-- ==== Sys2Proof/Word.lean ====
section
/-! DEFINITION. The words of the IZ-5120 Beybor and their plainest arithmetic. -/

namespace Sys2Proof

/-- A byte. -/
abbrev Byte := BitVec 8

/-- A 64-bit register value (R9). -/
abbrev W64 := BitVec 64

/-- A fabric port, 0 to 63 (R17). -/
abbrev Port := Fin 64

/-- A physical lane, 0 to 511 (R17). -/
abbrev LaneId := Fin 512

/-- A traffic class or virtual lane, 0 to 7 (R250). -/
abbrev Class := Fin 8

/-- Add to a counter that stops at its largest value, as every W-bit counter of the maps does (DEDUCED, log 64). -/
def satAdd (max a b : Nat) : Nat := min max (a + b)

/-- Set one entry of a file of fixed length. -/
def vset {α : Type} {n : Nat} (v : Vector α n) (i : Fin n) (x : α) : Vector α n := v.set i.val x i.isLt

/-- Change one entry of a file of fixed length. -/
def vmod {α : Type} {n : Nat} (v : Vector α n) (i : Fin n) (f : α → α) : Vector α n := v.set i.val (f v[i.val]) i.isLt

end Sys2Proof
end

