-- ==== Sys2Proof/Syntax.lean ====
section
/-! DEFINITION. The commands and events the block takes, one constructor of `Instr` per row of spec/opcode_table.json, and
the operands they carry. An operand is what comes from outside the step: a frame, a datagram, a written value, the number
of an accepted command, or what a decoder, a monitor or a memory reports. -/

namespace Sys2Proof

/-- A fault source, 0x00 to 0x16 (Table Faults-1). -/
abbrev SrcId := Fin 23

/-- A packet as a data frame carries it: the header fields that do not belong to the link, and the packet bytes from
offset 0x10 of the frame, kind header and body (R240, Table Link-1, Table Link-8). PLEN is the number of bytes. -/
structure Packet where
  kind   : Byte
  vl     : Class
  dest   : BitVec 16
  src    : BitVec 16
  resend : Bool := false
  bytes  : List Byte
  deriving DecidableEq, Repr

/-- Why the box office writes a log record (R395). -/
inductive LogCause where
  | hourly | powerUp | sealChange | firmware
  deriving DecidableEq, Repr

/-- Where a datagram comes from: source address (4 or 16 bytes) and UDP port (R322, R326). -/
structure Peer where
  addr : List Byte
  port : BitVec 16
  deriving DecidableEq, Repr

/-- How a frame that carries UDP departs from what Table Host-1 supports: it does not, or it is a PAUSE or PFC frame, has stacked tags,
IPv4 options, an IPv6 extension header or a multicast destination, or is a fragment, or goes to another UDP port (R320). -/
inductive EthForm where
  | plain | pause | stacked | options | extension | multicast | fragment | otherPort
  deriving DecidableEq, Repr

/-- A Prompt datagram as it reaches UDP port 48640: the host port, the source, the 802.1Q tag if it has one, and the UDP
payload (R322, R325). -/
structure Dgram where
  port  : Fin 2
  peer  : Peer
  vlan  : Option (BitVec 16)
  bytes : List Byte
  form  : EthForm := .plain
  deriving DecidableEq, Repr

/-- Who makes a register access: a session through a window of Table Registers-1, or the Prompter (R441). -/
inductive Requester where
  | window (session : BitVec 32) (win : Fin 3)
  | prompter
  deriving DecidableEq, Repr

/-- Who reads a register by REG_READ: an accepted command, or the Prompter at an offset of its own view (R440, R441). -/
inductive RegReader where
  | command (id : Nat)
  | prompter (offset : Nat)
  deriving DecidableEq, Repr

/-- One raise of a fault source: its INDEX, the sticky register of its block as latched, and the failing address, for the
log (R403, Table Faults-7). -/
structure Raise where
  src    : SrcId
  index  : BitVec 4 := 0
  sticky : W64 := 0
  addr   : W64 := 0
  deriving DecidableEq, Repr

/-- What one LPDDR6 access reports: a corrected or an uncorrectable error, or the 16 tag bits read with it (R132, R133). -/
inductive AccErrKind where
  | corrected
  | uncorrectable
  | tag (found : BitVec 16)
  deriving DecidableEq, Repr

/-- What an access x of the data space reports when it is read (R130, R132, R133). -/
structure AccErr where
  access : Nat
  kind   : AccErrKind
  deriving DecidableEq, Repr

/-- What the SD272 check of slot memory, or the residue check of the add, reports for one access (R92, R411). -/
inductive HarnErr where
  /-- No error. -/
  | clean
  /-- A corrected error in a descriptor or the harness store. -/
  | corrected
  /-- Uncorrectable 64-bit words of the slot's accumulators. -/
  | words (ws : List Nat)
  /-- The descriptor is uncorrectable. -/
  | descriptor
  /-- The residue check of the Team engine's add failed. -/
  | residue
  /-- Errors of the LPDDR6 accesses that the read makes: a spill image, or stored state words. -/
  | dram (errs : List AccErr)
  deriving DecidableEq, Repr

/-- What a reload reports: the LPDDR6 accesses of its image, and the check of its descriptor (R90, R92). -/
structure ReloadErr where
  dram : List AccErr := []
  harn : HarnErr := .clean
  deriving DecidableEq, Repr

/-- The number of an accepted command that reads LPDDR6, and what the accesses of its reads report (R132, R133). -/
structure MemCmd where
  id   : Nat
  errs : List AccErr := []
  deriving DecidableEq, Repr

/-- A PAM4 level: −3, −1, +1, +3 (R217). -/
inductive Level where
  | m3 | m1 | p1 | p3
  deriving DecidableEq, Repr

/-- One superframe of one lane as received: its 94,380 symbols in line order, and the ticks since its M0 arrived at the lands
(R217 to R227, R260). -/
structure SuperframeRx where
  line : List Level
  age  : Nat
  deriving DecidableEq, Repr

/-- The parts of Table Audit-3. -/
inductive DigestPart where
  | inp | out | w | bcast
  deriving DecidableEq, Repr

/-- What the Outrider's compare of an exact check shows: equal bits, or the first element that differs (R197, R202). -/
inductive CheckSeen where
  | same
  | differs (elem : BitVec 6)
  deriving DecidableEq, Repr

/-- An Ethernet frame as received: its port, how it departs from Table Host-1, its length with headers and FCS, and whether it came over
IEEE 802.3 transport and not over UDP (R320, R323). -/
structure EthFrame where
  port : Fin 2
  form : EthForm := .plain
  len  : Nat := 64
  l2   : Bool := false
  deriving DecidableEq, Repr

/-- A supply rail's excursion, and its end: the rail has been out of its range for 10 µs, or is back in it (R456). -/
structure RailEvent where
  rail : Fin 8
  out  : Bool := true
  deriving DecidableEq, Repr

/-- A port whose receiver acts or whose replay runs, and the SEQs of the unacknowledged frames of which a replay finds a packet buffer word
uncorrectable (R419). -/
structure ReplayRead where
  port : Port
  bad  : List (BitVec 12) := []
  deriving DecidableEq, Repr

/-- A Neighbor Discovery message: a solicitation, or a router advertisement with its autonomous /64 prefixes (R321). -/
inductive NdMsg where
  | solicitation (src target : BitVec 128)
  | advertisement (prefixes : List (BitVec 64))
  deriving DecidableEq, Repr

/-- The data set of a PTP Announce as best master selection compares it, most significant first, and the master's clock
identity (R323). -/
structure PtpMaster where
  rank  : List Nat
  ident : W64
  deriving DecidableEq, Repr


/-- The commands and events of the block: one constructor per row of spec/opcode_table.json, in the order of the table. -/
inductive Instr where
  /-- OPEN, R329. A host OPEN datagram asks for a session; the module negotiates the version, grants mailboxes and
  privilege, and answers with OPEN_R. -/
  | open_ (d : Dgram)
  /-- AUTH, R331. A host AUTH datagram carries an ML-DSA-87 signature; the module verifies it against the operator
  table and makes the session READY or closes it. -/
  | auth (d : Dgram)
  /-- LOCKOUT_EXPIRY, R333. The 60 s lockout ends, and OPEN is served again. -/
  | lockoutExpiry
  /-- AUTH_TIMEOUT, R328. A session in OPENING that has received no AUTH for 1 s is closed. -/
  | authTimeout (sid : BitVec 32)
  /-- CLOSE, R328. A host CLOSE datagram ends the session, frees its mailboxes and discards its results. -/
  | close (d : Dgram)
  /-- KEEP, R334. A host KEEP datagram keeps the session alive and is answered with KEEP_R. -/
  | keep (d : Dgram)
  /-- SESSION_TIMEOUT, R334. A session with no valid datagram for 4 x KEEP_MS closes, and TIMEOUT is set. -/
  | sessionTimeout (sid : BitVec 32)
  /-- POST, R336. A host POST to a mailbox is accepted, repeated or refused by its sequence number; an accepted POST
  starts its command. -/
  | post (d : Dgram)
  /-- READ, R337. A host READ of a mailbox returns PENDING, the result, a repeat of the result, or STALE. -/
  | read (d : Dgram)
  /-- COMMAND_END, R336. A running command ends, and its mailbox becomes DONE and holds the result. -/
  | commandEnd (id : Nat)
  /-- BULK_W, R346. A host BULK_W writes data into a bulk window, subject to range, privilege and busy checks, and
  is answered with BULK_WR. -/
  | bulkW (d : Dgram)
  /-- BULK_R, R345. A host BULK_R reads data from a bulk window and is answered with BULK_D. -/
  | bulkR (d : Dgram) (errs : List AccErr)
  /-- EVACK, R351. A host EVACK acknowledges every queued event up to its sequence number. -/
  | evack (d : Dgram)
  /-- EVENT_RESEND, R351. An unacknowledged event is sent again when 20 ms have passed since it was last sent. -/
  | eventResend (sid : BitVec 32)
  /-- INFO, R338. The INFO command returns the serial, MAC addresses, link and PTP state, interface versions and
  LLDP neighbours. -/
  | info (id : Nat)
  /-- LOAD_SHEET, R341. The LOAD_SHEET command checks the staged cue sheet under R109 and accepts or refuses it. -/
  | loadSheet (cmd : MemCmd)
  /-- START_RUN, R341. The START_RUN command checks the loaded sheet again under R109 and starts the run. -/
  | startRun (cmd : MemCmd)
  /-- STOP, R342. The STOP command with MODE 0 ends the run at the next step boundary. -/
  | stop (id : Nat)
  /-- STOP_RECOVERY, R315. The STOP command with MODE 1 starts the recovery drain: no further launches, waiting work
  is abandoned and open cues end FAILED. -/
  | stopRecovery (id : Nat)
  /-- DRAIN_END, R316. The recovery drain ends, the progress entries are written and the STOP result is returned. -/
  | drainEnd
  /-- READMIT, R123. The READMIT command brings an excluded member back into its company from the next step advance
  of each head. -/
  | readmit (id : Nat)
  /-- PROGRESS, R316. The PROGRESS command returns the progress entry of a shard. -/
  | progress (cmd : MemCmd)
  /-- PB_ACK, R349. The PB_ACK command frees playbill ring space up to a written record end. -/
  | pbAck (id : Nat)
  /-- LOAD_PLAN, R299. The LOAD_PLAN command checks an axis plan and, when it is accepted, commits it as R300
  states. -/
  | loadPlan (cmd : MemCmd)
  /-- SET_LIVE, R308. The SET_LIVE command replaces the live set and judges the links again. -/
  | setLive (id : Nat)
  /-- PLACE, R311. The PLACE command computes shard assignment, routes and trees from the plan, the live set and the
  request. -/
  | place (cmd : MemCmd)
  /-- ADMIT, R307. The ADMIT command with ADMIT 1 admits an off-book link. -/
  | admitLink (id : Nat)
  /-- ADMIT_WITHDRAW, R307. The ADMIT command with ADMIT 0 withdraws a host admission. -/
  | admitWithdraw (id : Nat)
  /-- SHARD_CREATE, R137. The SHARD_CREATE command creates an OWNER shard record, allocates its state and starts its
  zero fill. -/
  | shardCreate (cmd : MemCmd)
  /-- ZERO_FILL_DONE, R137. The zero fill of a new shard record's state words completes. -/
  | zeroFillDone (rec : Fin 4096)
  /-- SHARD_REMOVE, R137. The SHARD_REMOVE command removes a shard record. -/
  | shardRemove (cmd : MemCmd)
  /-- PROMOTE, R153. The PROMOTE command changes an UNDERSTUDY record to OWNER while no run is active. -/
  | promote (cmd : MemCmd)
  /-- REG_READ, R440. The REG_READ command reads a register through a window, after the window, privilege and offset
  checks; or the Prompter reads one (R441). -/
  | regRead (reader : RegReader)
  /-- REG_WRITE, R440. The REG_WRITE command writes a register through a window, after the window, privilege and
  offset checks. -/
  | regWrite (id : Nat)
  /-- REGISTER_WRITE, R13. A write to a register that has no row of its own sets its RW fields and clears or sets
  its W1C and W1S bits. -/
  | registerWrite (who : Requester) (offset : Nat) (v : W64)
  /-- ENROLL, R344. The ENROLL command adds the key in the KEY window to the operator table. -/
  | enroll (id : Nat)
  /-- REVOKE, R344. The REVOKE command removes an operator entry and closes its sessions. -/
  | revoke (id : Nat)
  /-- OPERATOR_TABLE_ERASE, R362. The older operator table copy is erased after a table write. -/
  | operatorTableErase
  /-- IDENT, R370. The IDENT command writes the identity record, and the endorsement when it verifies, to scratch.
  -/
  | ident (id : Nat)
  /-- ATTEST, R372. The ATTEST command writes an attestation report signed with the identity key. -/
  | attest (id : Nat)
  /-- ENDORSE, R358. The ENDORSE command verifies an endorsement blob and stores it in flash. -/
  | endorse (cmd : MemCmd) (flashOk : Bool)
  /-- FW_STAGE, R373. The FW_STAGE command checks an image, programs it into the other slot and sets TRY. -/
  | fwStage (cmd : MemCmd) (flashOk : Bool) (ctlOk : Bool)
  /-- FW_ACTIVATE, R374. The FW_ACTIVATE command resets the Prompter so that the ROM boots the trial image. -/
  | fwActivate (id : Nat)
  /-- FW_COMMIT, R374. The FW_COMMIT command makes the running trial ACTIVE and may raise MIN_SVN. -/
  | fwCommit (id : Nat) (flashOk : Bool)
  /-- FW_STATUS, R370. The FW_STATUS command returns the slot, trial, boot and version state. -/
  | fwStatus (id : Nat)
  /-- KEY_REVOKE, R375. The KEY_REVOKE command burns the FWREVOKE bit of a firmware key. -/
  | keyRevoke (id : Nat)
  /-- LEAVE_INFO, R400. The LEAVE_INFO command returns the cap, the booked watts, the estimate and the throttle
  level. -/
  | leaveInfo (id : Nat)
  /-- BOX_LAST, R400. The BOX_LAST command returns the last box office reading held. -/
  | boxLast (id : Nat)
  /-- BOX_COPY, R400. The BOX_COPY command copies held readings and records to scratch. -/
  | boxCopy (id : Nat)
  /-- FAULT_INFO, R420. The FAULT_INFO command returns the fault registers and the state of every source. -/
  | faultInfo (id : Nat)
  /-- FAULT_REACT, R407. The FAULT_REACT command sets the reaction of a source when it is allowed. -/
  | faultReact (id : Nat)
  /-- FAULT_INJECT, R420. The FAULT_INJECT command raises a source once as if its unit had raised it. -/
  | faultInject (id : Nat)
  /-- EPOCH_ARM, R99. A write that sets STG_CTRL.ARM arms an epoch load, or is ignored with EPOCH_BAD while a run is
  active. -/
  | epochArm (who : Requester) (v : W64)
  /-- SW_COLD, R423. A keyed write of RST_CTRL.COLD asserts a software cold reset for 1 ms. -/
  | swCold (who : Requester) (v : W64)
  /-- SW_WARM, R423. A keyed write of RST_CTRL.WARM starts the warm entry sequence and then asserts a software warm
  reset for 1 ms. -/
  | swWarm (who : Requester) (v : W64)
  /-- SOFTWARE_RESET_END, R423. The 1 ms of a software or fault warm or cold reset ends, and the source is released.
  -/
  | softwareResetEnd (src : Fin 7)
  /-- RST_BLOCK, R429. A write to RST_BLOCK holds units in reset or releases them, or is refused with BLOCK_REFUSED.
  -/
  | rstBlock (who : Requester) (v : W64)
  /-- STATE_AUDIT, R214. A write of DIG_AUDIT.GO starts a state audit of one shard, or is refused with
  AUDIT_REFUSED. -/
  | stateAudit (who : Requester) (v : W64)
  /-- AUDIT_DONE, R214. A state audit writes its last digest and sets AUDIT_DONE. -/
  | auditDone (errs : List AccErr)
  /-- BEAT, R415. The firmware writes FLT_BEAT.BEAT; the right value keeps the stage door RUNNING, and a wrong one
  causes a restart. -/
  | beat (who : Requester) (v : W64)
  /-- FATAL, R403. A write of FLT_BEAT.FATAL raises the FW_FATAL source. -/
  | fatal (who : Requester) (v : W64)
  /-- NMI_ACK, R406. A write of FLT_BEAT.NMI_ACK acknowledges the pending NMI. -/
  | nmiAck (who : Requester) (v : W64)
  /-- FLT_SRC_CTRL, R407. A write to FLT_SRC_CTRL sets the selected source's reaction, or is ignored with REACT_BAD.
  -/
  | fltSrcCtrl (who : Requester) (v : W64)
  /-- SCHED_SHAPER, R292. A write to SCHED_SHAPER sets the shaper and loads its tokens from INIT. -/
  | schedShaper (who : Requester) (v : W64)
  /-- SCHED_POLICER, R292. A write to SCHED_POLICER sets the policer and loads its tokens from INIT. -/
  | schedPolicer (who : Requester) (v : W64)
  /-- SWC_CREDIT, R270. A write to SWC_CREDIT_LO or SWC_CREDIT_HI sets the credit offers, or is ignored with
  CREDIT_BAD. -/
  | swcCredit (who : Requester) (high : Bool) (v : W64)
  /-- LOCAL_RES, R270. A write to SWC_CTRL.LOCAL_RES sets the local share, or is ignored with CREDIT_BAD. -/
  | localRes (who : Requester) (v : W64)
  /-- SWC_RT_STATIC, R276. A write to SWC_RT_STATIC replaces the STATIC port of a route entry at once. -/
  | swcRtStatic (who : Requester) (v : W64)
  /-- SWC_RT_SPRAY, R276. A write to SWC_RT_SPRAY replaces the SPRAY mask of a route entry at once. -/
  | swcRtSpray (who : Requester) (v : W64)
  /-- LEAVE_CTRL, R383. A write of HOST_CAP or BASE_RES changes the pool and may suspend grants. -/
  | leaveCtrl (who : Requester) (v : W64)
  /-- LANE_PORT_CTRL, R234. A write to LANE_PORT_CTRL enables or disables a port's lanes or changes MAX_GAIT. -/
  | lanePortCtrl (who : Requester) (v : W64)
  /-- OUTR_CTRL, R196. A write to OUTR_CTRL changes sampling, effective from the next step to open. -/
  | outrCtrl (who : Requester) (v : W64)
  /-- WDR_OVF_COUNT, R61. A read of WDR_OVF_COUNT returns and clears the Wardrobe overflow count. -/
  | wdrOvfCount (who : Requester)
  /-- WDR_VOID_COUNT, R61. A read of WDR_VOID_COUNT returns and clears the Wardrobe void count. -/
  | wdrVoidCount (who : Requester)
  /-- HARN_SPILL_COUNT, R94. A read of HARN_SPILL_COUNT returns and clears the spill and reload counts. -/
  | harnSpillCount (who : Requester)
  /-- HARN_MBR_CNT, R94. A read of HARN_MBR_CNT returns and clears the selected member's counters. -/
  | harnMbrCnt (who : Requester)
  /-- OUTR_EVENTS, R215. A read of OUTR_EVENTS returns and clears the Outrider event counts. -/
  | outrEvents (who : Requester)
  /-- LANE_ERR_COUNT, R238. A read of LANE_ERR_COUNT returns and clears the selected lane's error counts. -/
  | laneErrCount (who : Requester)
  /-- LINK_ERR_COUNT, R263. A read of LINK_ERR_COUNT returns and clears the selected port's link error counts. -/
  | linkErrCount (who : Requester)
  /-- SWC_DROP_COUNT, R295. A read of SWC_DROP_COUNT returns and clears the switch drop counts. -/
  | swcDropCount (who : Requester)
  /-- SCHED_QSTAT, R293. A read of SCHED_QSTAT returns and clears the selected queue's maxima. -/
  | schedQstat (who : Requester)
  /-- MBX_DROP_COUNT, R352. A read of MBX_DROP_COUNT returns and clears the datagram drop counts. -/
  | mbxDropCount (who : Requester)
  /-- MBX_VIOL, R446. A read of MBX_VIOL returns and clears the violation count and keeps the last record. -/
  | mbxViol (who : Requester)
  /-- TMARK_EDGE, R100. A TMARK edge is captured against the grid, and an armed epoch load takes place at it. -/
  | tmarkEdge
  /-- GRID_POINT_JUDGED, R100. When STG_NOW passes a grid point plus 16, the point is judged good, with its slew
  started, or missed. -/
  | gridPointJudged
  /-- SLEW_CORRECTION, R100. Every 4,096 ticks during a slew the counter adds 2 or 0 in place of 1. -/
  | slewCorrection
  /-- HOLDOVER_EXPIRY, R97. After 1,000 ms in HOLDOVER the clock moves to FREE. -/
  | holdoverExpiry
  /-- NOTICE_TIMEOUT, R97. 64 TMARK periods with no time notice move a MACHINE clock with ROOT 0 to RACK. -/
  | noticeTimeout
  /-- PLL_UNLOCK, R97. The stage PLL loses lock on REFCLK, and the clock enters STOPPED. -/
  | pllUnlock
  /-- PLL_RELOCK, R97. The stage PLL regains lock, and the clock moves from STOPPED to FREE. -/
  | pllRelock
  /-- TIME_EXCHANGE_START, R260. Once per TMARK period the leader sends a TIME request to its parent. -/
  | timeExchangeStart
  /-- TIME, R260. A TIME packet is received: a parent answers a request, or a leader takes a reply and updates its
  theta. -/
  | time (p : Port) (pk : Packet)
  /-- NOTICE_SEND, R101. Once per period the leader sends its rack a time notice. -/
  | noticeSend
  /-- NOTICE, R261. A NOTICE packet is received, scheduled for application if it names this rack, and sent on with
  TTL - 1. -/
  | notice (p : Port) (pk : Packet)
  /-- NOTICE_APPLY, R101. At G(k) the notice's GRID is slewed or stepped in, or the step is refused with
  STEP_REFUSED. -/
  | noticeApply
  /-- STEP_OPEN, R114. A step opens at its planned tick or when step s - 2 closes in cued mode, or when the previous
  step closes in liberty mode. -/
  | stepOpen
  /-- CUE_LAUNCH, R114. A cue launches when STG_NOW reaches its step's open tick plus OFFSET, which grants
  permission. -/
  | cueLaunch (step : Nat) (cue : Nat)
  /-- DEADLINE, R118. At its deadline a cue that is not DONE becomes LATE. -/
  | deadline (step : Nat) (cue : Nat)
  /-- ACTION_TICK, R121. At the action tick the late policy is applied to each missing member. -/
  | actionTick (step : Nat) (cue : Nat)
  /-- CONTRIB, R71. A CONTRIB packet reaches harness intake, is tested in the order of Table Harness-6, and is
  dropped or accumulated. -/
  | contrib (p : Port) (pk : Packet) (err : HarnErr)
  /-- PARTIAL, R71. A PARTIAL packet from a child or an owner reaches harness intake and is tested and accumulated
  as a contribution. -/
  | partial_ (p : Port) (pk : Packet) (err : HarnErr)
  /-- INTAKE_RESUME, R88. A contribution waiting in the intake queue for a move, a scale entry, a reducing launch or
  park room enters the intake tests. -/
  | intakeResume (k : Nat) (err : HarnErr)
  /-- SPILL_DONE, R69. A spill image is written, and the descriptor goes from SPILLING to SPILLED. -/
  | spillDone (idx : Fin 32768) (err : HarnErr)
  /-- RELOAD_DONE, R69. A reloaded image is read back, and the slot becomes FILLING or FIRED. -/
  | reloadDone (idx : Fin 32768) (err : ReloadErr)
  /-- SCALE_WINDOW_FILL, R85. Scale window entries are filled from LPDDR6 once their conditions hold. -/
  | scaleWindowFill (head : Fin 4096) (seg : BitVec 24) (errs : List AccErr)
  /-- GROOM_ISSUE, R149. The Groom engine issues a fired segment's update once it holds the fire token, leave,
  permission and clipping factor. -/
  | groomIssue (head : Fin 4096) (seg : BitVec 24) (errs : List AccErr) (err : HarnErr)
  /-- GROOM_WRITES_DONE, R145. A segment's state writes complete, and LASTSTEP is set after the step's last write.
  -/
  | groomWritesDone (head : Fin 4096) (seg : BitVec 24)
  /-- CAST_ISSUE, R59. The Wardrobe engine issues a cast of a segment once the update is written and, at an
  understudy, compare room is held. -/
  | castIssue (head : Fin 4096) (seg : BitVec 24) (err : HarnErr)
  /-- MULTICAST, R147. The switch core multicasts a cast segment with its scale bytes once egress credit is held. -/
  | multicast (head : Fin 4096) (seg : BitVec 24)
  /-- DIGEST_DONE, R207. The segment digests of a segment are in the buffer, ending its digest stage. -/
  | digestDone (head : Fin 4096) (seg : BitVec 24) (err : HarnErr)
  /-- HEAD_DIGEST_FOLD, R206. The Digest engine folds the segment digests of a head and part into a head digest. -/
  | headDigestFold (head : Fin 4096) (step : Nat) (part : DigestPart)
  /-- SLOT_RELEASE, R82. A slot whose multicast and digest are done is released, BASE advances and is advertised,
  and the head's step may advance. -/
  | slotRelease (head : Fin 4096) (seg : BitVec 24) (err : HarnErr)
  /-- WINDOW, R82. A WINDOW packet advertises a head's step and BASE; forwarding modules and senders free what it
  covers. -/
  | window (p : Port) (pk : Packet)
  /-- MCAST, R282. An MCAST packet is received and its scales taken in, passed on to the module's group, compared at
  an understudy, or used as S. -/
  | mcast (p : Port) (pk : Packet)
  /-- BROADCAST_READ, R148. A BROADCAST issues the state read of its next segment for cast and multicast. -/
  | broadcastRead (step : Nat) (cue : Nat) (errs : List AccErr)
  /-- LOAD, R141. A MOVE LOAD copies scratch pages into working space. -/
  | load (step : Nat) (cue : Nat) (errs : List AccErr)
  /-- STORE, R141. A MOVE STORE copies working space into scratch pages. -/
  | store (step : Nat) (cue : Nat)
  /-- ZERO_MOMENTS, R150. A ZERO_MOMENTS MOVE zeroes a shard's moments and AGE once earlier Groom work of the shard
  is done. -/
  | zeroMoments (step : Nat) (cue : Nat) (errs : List AccErr)
  /-- CONVERT, R60. A CONVERT cue runs its conversion over a working-space range once earlier MOVEs of the step have
  finished. -/
  | convert (step : Nat) (cue : Nat) (err : HarnErr)
  /-- PATROL_SCRUB, R133. The controllers patrol-scrub an access and correct or void it. -/
  | patrolScrub (access : Nat) (err : Option AccErrKind)
  /-- SEED_HDR, R154. A SEED_HDR packet gives a receiver the header values, or is answered busy. -/
  | seedHdr (p : Port) (pk : Packet)
  /-- SEED_COPY, R154. A SEED_COPY packet writes a segment copy at the receiver and sets its seed bit. -/
  | seedCopy (p : Port) (pk : Packet)
  /-- SEED_ACK, R154. A SEED_ACK packet acknowledges a copy or header, or refuses it, at the owner, which sends
  further copies. -/
  | seedAck (p : Port) (pk : Packet) (errs : List AccErr)
  /-- SEED_HEADER_SEND, R154. The owner sends the header copy between steps, or at once when no run is active. -/
  | seedHeaderSend (errs : List AccErr)
  /-- SEED_HEADER_RETRY, R155. A refused header is sent again after 100 ms or when a shard finishes. -/
  | seedHeaderRetry (errs : List AccErr)
  /-- SEED_ABORT, R156. A partner that cannot be reached or refuses a copy ends seeding with SEED_ABORT. -/
  | seedAbort (hid : BitVec 16)
  /-- BAND_FORM, R166. G' = G + R is formed for each fired segment of a PROJECT band. -/
  | bandForm (head : Fin 4096) (seg : BitVec 24) (errs : List AccErr) (err : HarnErr)
  /-- BAND_STAGE, R166. G' is cast to C with e1 kept in staging, and the slot is released. -/
  | bandStage (head : Fin 4096) (seg : BitVec 24) (err : HarnErr)
  /-- PASS_ISSUE, R161. A projection array pass issues with permission, leave and operands held. -/
  | passIssue (array : Fin 4) (head : Fin 4096) (band : Nat) (tile : Nat) (bad : List Nat)
  /-- PASS_DONE, R161. A projection array pass writes its Z48 results. -/
  | passDone (array : Fin 4) (checksumOk : Bool)
  /-- BAND_SEND, R168. P is cast under the upper head's scale and contributed as slot 64. -/
  | bandSend (head : Fin 4096) (band : Nat) (err : HarnErr)
  /-- RESIDUAL_WRITE, R169. R_new is computed and written, and staging is freed. -/
  | residualWrite (head : Fin 4096) (band : Nat)
  /-- BAND_OUT, R165. The restored band is cast with the cue's CONV and multicast. -/
  | bandOut (head : Fin 4096) (band : Nat) (err : HarnErr)
  /-- CALL, R182. A CALL packet reaches the Callboard and is tested, stored, combined, forwarded or passed down. -/
  | call (p : Port) (pk : Packet)
  /-- USER, R264. A USER packet is routed by DEST or dropped. -/
  | user (p : Port) (pk : Packet)
  /-- PLAYBILL_WRITE, R210. The Prompter writes the step's playbill to the ring, which closes the step. -/
  | playbillWrite
  /-- SIGNATURE_COMPLETE, R211. A playbill signature completes, and its record is written to the ring. -/
  | signatureComplete
  /-- SUPERFRAME_RECEIVED, R226. A lane's superframe is decoded: codewords are corrected or lost, markers and the
  info word are read, and health is judged. -/
  | superframeReceived (lane : LaneId) (rx : SuperframeRx)
  /-- LANE_LOCKED, R225. 64 consecutive valid headers at one offset move a lane from HUNT to LOCKED. -/
  | laneLocked (lane : LaneId) (offset : Fin 65) (heads : List Level)
  /-- LANE_MARKED, R225. An M0 and M1 found, and M0 again after 1,452 blocks, move a lane to MARKED. -/
  | laneMarked (lane : LaneId) (m0 m1 next : List Level) (shift : Nat)
  /-- BLOCK_LOSS, R225. 32 or more invalid headers in 1,024 blocks send a lane back to HUNT. -/
  | blockLoss (lane : LaneId) (heads : List Level)
  /-- MARK_LOSS, R225. Bad markers in 4 consecutive superframes move a lane from MARKED to LOCKED. -/
  | markLoss (lane : LaneId)
  /-- LOS, R231. A lane loses signal without an announced IDLE_NEXT. -/
  | los (lane : LaneId)
  /-- INFO_WORD_FIXED, R223. 32 ticks before a superframe the transmitter fixes its info word. -/
  | infoWordFixed (p : Port)
  /-- SUPERFRAME_START, R233. A transmitter starts a superframe and applies a new active set, idle entry or idle
  exit at that boundary. -/
  | superframeStart (p : Port)
  /-- IDLE_REQUEST, R262. The link layer asks for transmit idle when its conditions hold. -/
  | idleRequest (p : Port)
  /-- IDLE_EXIT_REQUEST, R236. The link layer asks to leave idle, and the wake burst and train blocks are sent. -/
  | idleExitRequest (p : Port)
  /-- ENERGY_DETECTED, R236. A receiver in IDLE detects wake energy and starts recovery. -/
  | energyDetected (lane : LaneId)
  /-- WAKE_TIMEOUT, R237. A lane that has not reached MARKED 4 superframes after energy becomes BAD. -/
  | wakeTimeout (lane : LaneId)
  /-- DATA_FRAME, R244. A data frame is received whole and accepted, discarded as a duplicate, or discarded as an
  error. -/
  | dataFrame (p : Port) (n : Nat)
  /-- LINK_CELL, R247. A LINK control cell frees acknowledged frames, takes FREED credits and triggers a replay on
  NAK. -/
  | linkCell (rd : ReplayRead)
  /-- LINK_CELL_SEND, R246. The receiver sends a LINK cell when one is owed, or every 1,024 ticks. -/
  | linkCellSend (p : Port)
  /-- HELLO, R252. A HELLO cell is received and negotiation is judged: ROLLCALL, NOVERSION, BAD_PARAM or DOWN on a
  new EPOCH. -/
  | hello (p : Port)
  /-- HELLO_SEND, R252. In HELLO and NOVERSION a HELLO cell is sent every 1,024 ticks. -/
  | helloSend (p : Port)
  /-- ROLLCALL, R305. A ROLLCALL cell is received, and the peer is admitted, kept off-book, or withdrawn. -/
  | rollcall (p : Port)
  /-- ROLLCALL_SEND, R254. A ROLLCALL cell is sent every 1,024 ticks until acknowledged, and whenever a field
  changes. -/
  | rollcallSend (p : Port)
  /-- REPLAY_TIMEOUT, R248. The replay timer reaches REPLAY_TO, and every unacknowledged frame is replayed. -/
  | replayTimeout (rd : ReplayRead)
  /-- PORT_UP, R251. A port becomes UP, and its link enters HELLO with a new EPOCH. -/
  | portUp (p : Port)
  /-- PORT_DOWN, R249. A port stops being UP, the link goes DOWN, and its frames are discarded or routed again. -/
  | portDown (p : Port)
  /-- FRAME_AT_OUTPUT, R269. A frame becomes whole at its switch output and enters its class queue. -/
  | frameAtOutput (input : Fin 128) (output : Fin 128) (cls : Class)
  /-- EGRESS_FRAME_START, R288. An egress port picks a class under priority and DRR and starts a frame. -/
  | egressFrameStart (output : Fin 128) (bufErr : Bool)
  /-- HISTORY_UPDATE, R279. Every 256 deck cycles each port's congestion history is updated. -/
  | historyUpdate
  /-- QUEUE_SAMPLE, R293. At each sample point all egress queues are sampled. -/
  | queueSample
  /-- REORDER_TIMEOUT, R283. A held MCAST frame that has waited REORDER_TO is sent with lower held frames. -/
  | reorderTimeout (p : Port) (hid : BitVec 16) (step : BitVec 32)
  /-- REORDER_CONTEXT_FREE, R283. A reorder context with no frame for 4 x REORDER_TO is freed. -/
  | reorderContextFree (p : Port) (hid : BitVec 16) (step : BitVec 32)
  /-- HOST_LINK_UP, R321. A host port links up and starts taking its addresses. -/
  | hostLinkUp (hp : Fin 2)
  /-- DHCP_TIMEOUT, R321. With no lease 10 s after link-up the port uses an IPv4 link-local address. -/
  | dhcpTimeout (hp : Fin 2)
  /-- DHCP_LEASE, R321. A DHCPv4 reply gives the port a lease. -/
  | dhcpLease (fr : EthFrame) (addr : BitVec 32)
  /-- ICMP_ECHO, R320. An ICMP or ICMPv6 echo request is answered. -/
  | icmpEcho (fr : EthFrame) (src : Peer) (dst : List Byte) (vlan : Option (BitVec 16)) (body : List Byte)
  /-- LLDP_SEND, R324. Every 30 s each host port sends an LLDPDU. -/
  | lldpSend (hp : Fin 2)
  /-- LLDPDU, R324. A received LLDPDU updates the stored chassis and port IDs. -/
  | lldpdu (fr : EthFrame) (chassis : List Byte) (portId : List Byte)
  /-- SYNC, R323. A PTP Sync message updates the offset and the synchronised state. -/
  | sync (fr : EthFrame) (seq : BitVec 16) (twoStep : Bool) (origin : Nat) (received : Nat) (correction : Int) (ident : W64)
  /-- PTP_SYNC_LOSS, R323. 4 Sync intervals with no Sync end the synchronised state. -/
  | ptpSyncLoss
  /-- PROMPTER_RELEASE, R365. The Prompter leaves reset, and the ROM reads fuses, derives the key, loads and checks
  a slot, and jumps to ENTRY or halts. -/
  | prompterRelease (tiles : BitVec 8) (writesOk : Bool)
  /-- HEARTBEAT_TIMEOUT, R415. No beat for HB_TO in RUNNING starts a stage door restart with cause 0. -/
  | heartbeatTimeout
  /-- BOOT_TIMEOUT, R415. No first beat within BOOT_TO starts a restart with cause 2. -/
  | bootTimeout
  /-- NMI_TIMEOUT, R415. An NMI not acknowledged within 10 ms starts a restart with cause 3. -/
  | nmiTimeout
  /-- RESTART_RELEASE, R415. 1 ms after a restart the Prompter reset is released and the stage door is BOOTING. -/
  | restartRelease
  /-- ALIVE_TOGGLE, R413. At each 12,500th AO cycle ALIVE toggles while its conditions hold. -/
  | aliveToggle
  /-- LEAVE_REQUEST, R380. A unit asks the riding master for ordinary leave, and the request is queued. -/
  | leaveRequest (step : Nat) (cue : Nat)
  /-- LEAVE_GRANT, R380. The request at the head of the queue is granted when the pool and ramp allow. -/
  | leaveGrant
  /-- LEAVE_RELEASE, R380. An ordinary grant ends after IDLE_REL with no issue, or at DONE. -/
  | leaveRelease (grant : Nat)
  /-- WINDOW_OPEN, R382. A pre-grant window opens at its START, or later when it fits, and ramps in. -/
  | windowOpen (step : Nat) (entry : Nat)
  /-- WINDOW_END, R382. A pre-grant window ends, and no new issue starts under it. -/
  | windowEnd (grant : Nat)
  /-- ISSUE_TAIL_END, R382. An issue in flight finishes and its watts leave HELD. -/
  | issueTailEnd (grant : Nat)
  /-- RAMP_STEP, R379. Each µs a ramping grant raises its booked watts and issue rate. -/
  | rampStep (grant : Nat)
  /-- THROTTLE_UPDATE, R386. Each µs P_EST is formed and the throttle level is raised or lowered. -/
  | throttleUpdate (pest : BitVec 16)
  /-- BOX_READING, R396. A box office reading reaches the core die, is checked and held, and brings the board cap
  and DIDT. -/
  | boxReading (bytes : List Byte) (crc : BitVec 32)
  /-- BOX_RECORD, R396. A checkpoint, identity block or log record reaches the core die and is checked and held. -/
  | boxRecord (bytes : List Byte) (crc : BitVec 32)
  /-- BOX_LOST, R385. 10 ms with no reading sets BOX_LOST and raises the BOX source. -/
  | boxLost
  /-- READING_CLOSE, R392. Every 1 ms the box office closes and sends a reading. -/
  | readingClose (energy : Vector W64 8) (power : Vector (BitVec 16) 8) (slow : W64)
  /-- CHECKPOINT, R393. After every 1,024th reading the box office signs and sends a checkpoint and identity block.
  -/
  | checkpoint
  /-- LOG_RECORD, R395. Hourly, and at power-up, seal and firmware changes, the box office writes a signed log
  record. -/
  | logRecord (cause : LogCause)
  /-- BOX_POWER_UP, R394. The box office powers up, raises BOOT, continues SEQ and the chain, and starts its first
  interval. -/
  | boxPowerUp
  /-- SEAL_CHANGE, R399. METER_SEAL_N changes, opening or closing the seal. -/
  | sealChange (high : Bool)
  /-- READ_LAST, R397. The box office port command returns the last reading. -/
  | readLast
  /-- READ_ID, R397. The box office port command returns the identity block. -/
  | readId
  /-- READ_CKPT, R397. The box office port command returns the last checkpoint. -/
  | readCkpt
  /-- READ_LOG, R397. The box office port command returns a log record. -/
  | readLog (index : BitVec 32)
  /-- STATUS, R397. The box office port command returns BUSY and LAST_OK. -/
  | status
  /-- SET_CAP, R398. The box office port command stores CAP and DIDT, in force from the next interval end. -/
  | setCap (cap : BitVec 16) (didt : BitVec 16)
  /-- FW_WRITE, R399. The box office port command stages 256 bytes of firmware while the seal is open. -/
  | fwWrite (offset : BitVec 32) (data : List Byte)
  /-- BOX_FW_COMMIT, R399. The box office port command verifies the staged image and switches banks at the next
  interval boundary. -/
  | boxFwCommit (len : BitVec 32)
  /-- FAULT_RAISE, R406. A fault source is raised, counted, logged, and takes its reaction. -/
  | faultRaise (raises : List Raise)
  /-- BLOCK_RESET_END, R429. 1 µs after a BLOCK_RESET reaction the unit's bit is cleared. -/
  | blockResetEnd
  /-- REACTION_COMPLETE, R404. An event source's reaction completes, and the source goes to QUIET. -/
  | reactionComplete (src : SrcId)
  /-- CONDITION_GONE, R404. A level source's condition ends, and the source goes to QUIET. -/
  | conditionGone (src : SrcId)
  /-- QUIET_EXPIRY, R404. QUIET_MS pass without a raise; the source goes to OK and its held effects are released. -/
  | quietExpiry (src : SrcId)
  /-- LOG_DRAIN, R418. The firmware drains fault queue entries into the Prompter's log. -/
  | logDrain
  /-- SUPPLY_EXCURSION, R456. A rail outside its range for 10 µs raises SUPPLY. -/
  | supplyExcursion (ev : RailEvent)
  /-- THERMAL_THRESHOLD, R403. The core die junction crosses 100 °C or 115 °C, raising THERM_WARN or THERM_TRIP. -/
  | thermalThreshold (trip : Bool)
  /-- STANDBY_POR, R423. 3.3 V standby leaves or re-enters its range, asserting or releasing POWER reach. -/
  | standbyPor (assert : Bool)
  /-- MAIN_POR, R423. 12 V main or a rail made from it leaves or re-enters its range, asserting or releasing COLD
  reach. -/
  | mainPor (assert : Bool) (rail : Fin 8)
  /-- RESET_N, R423. The RESET_N pin is taken as asserted or released. -/
  | resetN (assert : Bool)
  /-- WARM_N, R423. The WARM_N pin is taken as asserted, starting warm entry, or released. -/
  | warmN (assert : Bool)
  /-- WARM_ENTRY_END, R427. The warm entry sequence ends, with LPDDR6 in self-refresh, and the warm reset takes
  effect. -/
  | warmEntryEnd
  /-- WARM_ENTRY_TIMEOUT, R427. Warm entry not ended within 50 µs upgrades the reset to COLD. -/
  | warmEntryTimeout
  /-- RESET_EXIT, R425. Every reset source is released, and the exit of the widest reach seen starts. -/
  | resetExit (samples : List (List (BitVec 6)))
  /-- ONDIE_READY, R437. The on-die fill is done, and the arena, deck, Prompter and MACs are released. -/
  | ondieReady
  /-- REF_LOCK, R437. The stage and lane PLL locks, and the stage clock unit is released. -/
  | refLock
  /-- REFCLK_LATE, R438. 10 ms into the exit without the stage PLL locked sets REFCLK_LATE. -/
  | refclkLate
  /-- LPDDR6_TRAINED, R437. LPDDR6 training completes, and the data space fill starts. -/
  | lpddr6Trained
  /-- OPT_DONE, R434. The equalisation table read ends, option loading is complete, and the lanes start. -/
  | optDone (reads : List (Option (List Byte)))
  /-- MEM_READY, R437. The data space fill or the self-refresh exit is done, and READY is set. -/
  | memReady
  /-- MOVE_DONE, R150. A MOVE (LOAD, STORE or ZERO_MOMENTS) finishes its last Carriage access. This lets later
  CONVERTs and held Groom issues start, and the MOVE cue becomes DONE. -/
  | moveDone (step : Nat) (cue : Nat)
  /-- CONVERT_DONE, R60. A CONVERT cue writes its last result, and the cue becomes DONE. -/
  | convertDone (step : Nat) (cue : Nat)
  /-- SAMPLE_CHECK_END, R198. The last check of an Outrider sample ends: the compare or tolerance measure completes,
  events or EXACT_MISS are raised, and the context is freed. -/
  | sampleCheckEnd (head : Fin 4096) (seg : BitVec 24) (block : Fin 4) (check : Fin 7) (seen : CheckSeen)
  /-- HOST_LINK_DOWN, R320. A host Ethernet port loses its link, which changes the link-up state that INFO reports
  and ends its address and PTP use on that port. -/
  | hostLinkDown (hp : Fin 2)
  /-- ARP_REQUEST, R320. An ARP request for the port's IPv4 address is received and answered. -/
  | arpRequest (fr : EthFrame) (sender : BitVec 32) (senderMac : BitVec 48) (target : BitVec 32)
  /-- NEIGHBOR_DISCOVERY, R321. A Neighbor Discovery message, such as a solicitation or router advertisement, is
  received; the port answers it or forms SLAAC global addresses from it. -/
  | neighborDiscovery (fr : EthFrame) (msg : NdMsg)
  /-- DUPLICATE_ADDRESS_DETECTION, R321. Duplicate address detection for a tentative IPv6 address completes, and the
  port takes the address. -/
  | duplicateAddressDetection (hp : Fin 2) (addr : BitVec 128) (unique : Bool)
  /-- ANNOUNCE, R323. A PTP Announce message is received, and the best master clock algorithm chooses the port and
  master. -/
  | announce (fr : EthFrame) (master : PtpMaster)
  /-- FOLLOW_UP, R323. A PTP Follow_Up from a two-step master supplies the precise origin time for the last Sync and
  updates the offset. -/
  | followUp (fr : EthFrame) (seq : BitVec 16) (origin : Nat) (correction : Int) (ident : W64)
  /-- DELAY_RESP, R323. A PTP Delay_Resp completes a delay request-response exchange and updates the path delay used
  for the offset. -/
  | delayResp (fr : EthFrame) (seq : BitVec 16) (received : Nat) (correction : Int) (ident : W64)
  deriving DecidableEq, Repr

end Sys2Proof
end

