-- ==== Sys2Proof/Decode.lean ====
section
/-! DEFINITION. The words of the table. No row of spec/opcode_table.json gives bits, so no word spells a command. -/

namespace Sys2Proof

/-- The command that a word of the table's bits spells: none, for every word (DESIGN CHOICE, log 15). -/
def decodeTableWord (_nbits _w : Nat) : Option Instr := none

end Sys2Proof
end

