-- ==== Sys2Proof/Machine/Bytes.lean ====
section
/-! DEFINITION. Bytes, bit fields, the check codes and the hash of the spec (R7 to R9, R223, R241, R108). -/

namespace Sys2Proof.Machine

/-- `n` bytes of `v`, least significant first (R9). -/
def leBytes : Nat → Nat → List Byte
  | 0, _ => []
  | n + 1, v => BitVec.ofNat 8 v :: leBytes n (v / 256)

/-- The value of bytes, least significant first (R9). -/
def leVal : List Byte → Nat
  | [] => 0
  | b :: r => b.toNat + 256 * leVal r

/-- Byte at an offset; past the end reads 0. -/
def byteAt (l : List Byte) (off : Nat) : Byte := l.getD off 0

/-- Little-endian field of `n` bytes at an offset. -/
def leAt (l : List Byte) (off n : Nat) : Nat := leVal ((l.drop off).take n)

/-- Pad with zero bytes to `n`, or cut to `n`. -/
def padTo (n : Nat) (l : List Byte) : List Byte := l.take n ++ List.replicate (n - l.length) 0

/-- Zero bytes. -/
def zeros (n : Nat) : List Byte := List.replicate n 0

/-- Are all bytes zero? -/
def allZero (l : List Byte) : Bool := l.all (· == 0)

/-- Bits [hi:lo] of a register (R8). -/
def fld (v : W64) (hi lo : Nat) : Nat := (v.toNat >>> lo) % 2 ^ (hi + 1 - lo)

/-- A register field put in place: `x` in bits from `lo` up, `w` bits wide. -/
def put (x w lo : Nat) : W64 := BitVec.ofNat 64 ((x % 2 ^ w) <<< lo)

/-- A Bool as a bit in place. -/
def putB (b : Bool) (lo : Nat) : W64 := if b then put 1 1 lo else 0

/-- Replace the bits of `mask` in `old` by those of `new`. -/
def maskIn (old new mask : W64) : W64 := (old &&& ~~~mask) ||| (new &&& mask)

/-- Bits [hi:lo] all ones. -/
def ones (hi lo : Nat) : W64 := BitVec.ofNat 64 ((2 ^ (hi + 1 - lo) - 1) <<< lo)

/-- A two's complement field of `w` bits as an integer. -/
def signed (w v : Nat) : Int := if v % 2 ^ w < 2 ^ (w - 1) then (v % 2 ^ w : Int) else (v % 2 ^ w : Int) - 2 ^ w

/-- An integer as a two's complement field of `w` bits. -/
def twos (w : Nat) (v : Int) : Nat := (v % (2 ^ w : Int)).toNat

/-- Set bits of a 65-bit member bitmap, lowest first. -/
def slotsOf (m : BitVec 65) : List Nat := (List.range 65).filter (fun i => m.getLsbD i)

/-- The bitmap with one member slot. -/
def slotBit (i : Nat) : BitVec 65 := BitVec.ofNat 65 (1 <<< i)

/-- Number of set bits. -/
def popcount {w : Nat} (v : BitVec w) : Nat := (List.range w).countP (fun i => v.getLsbD i)

/-- Ceiling of a division; 0 for a zero divisor. -/
def ceilDiv (a b : Nat) : Nat := (a + b - 1) / b

/-- One byte into a most-significant-bit-first CRC of width `w` (R223, R241). -/
def crcMsbStep (w : Nat) (poly crc : BitVec w) (b : Byte) : BitVec w :=
  (List.range 8).foldl
    (fun c i => let top := c.getLsbD (w - 1) != b.getLsbD (7 - i)
                if top then (c <<< 1) ^^^ poly else c <<< 1) crc

/-- HCRC: x^16 + x^12 + x^5 + 1, initial value 0xFFFF, no final inversion (R241) (PRESUMED, log 7). -/
def crc16 (l : List Byte) : BitVec 16 := l.foldl (crcMsbStep 16 0x1021) 0xFFFF

/-- CRC-8 of the info word: x^8 + x^2 + x + 1, initial value 0 (Table Lanes-2) (PRESUMED, log 7). -/
def crc8 (l : List Byte) : Byte := l.foldl (crcMsbStep 8 0x07) 0

/-- One byte into the IEEE 802.3 CRC-32. -/
def crc32Step (crc : BitVec 32) (b : Byte) : BitVec 32 :=
  (List.range 8).foldl (fun c _ => if c.getLsbD 0 then (c >>> 1) ^^^ 0xEDB8_8320 else c >>> 1) (crc ^^^ b.setWidth 32)

/-- IEEE 802.3 CRC-32 (R241; PRESUMED, log 7). -/
def crc32 (l : List Byte) : BitVec 32 := ~~~(l.foldl crc32Step 0xFFFF_FFFF)

/-- CRC-32 as 4 bytes. -/
def crc32Bytes (l : List Byte) : List Byte := leBytes 4 (crc32 l).toNat

/-- Keccak-f[1600] round constants. -/
def keccakRC : List W64 :=
  [0x0000000000000001, 0x0000000000008082, 0x800000000000808A, 0x8000000080008000, 0x000000000000808B,
   0x0000000080000001, 0x8000000080008081, 0x8000000000008009] ++
  [0x000000000000008A, 0x0000000000000088, 0x0000000080008009, 0x000000008000000A, 0x000000008000808B,
   0x800000000000008B, 0x8000000000008089, 0x8000000000008003] ++
  [0x8000000000008002, 0x8000000000000080, 0x000000000000800A, 0x800000008000000A, 0x8000000080008081,
   0x8000000000008080, 0x0000000080000001, 0x8000000080008008]

/-- Rotation of lane x + 5y. -/
def keccakRot : List Nat :=
  [0, 1, 62, 28, 27, 36, 44, 6, 55, 20, 3, 10, 43] ++ [25, 39, 41, 45, 15, 21, 8, 18, 2, 61, 56, 14]

/-- One round of Keccak-f[1600] on 25 lanes. -/
def keccakRound (a : List W64) (rc : W64) : List W64 :=
  let at' (l : List W64) (i : Nat) : W64 := l.getD i 0
  let c := (List.range 5).map (fun x => at' a x ^^^ at' a (x + 5) ^^^ at' a (x + 10) ^^^ at' a (x + 15) ^^^ at' a (x + 20))
  let d := (List.range 5).map (fun x => at' c ((x + 4) % 5) ^^^ (at' c ((x + 1) % 5)).rotateLeft 1)
  let e := (List.range 25).map (fun i => (at' a i ^^^ at' d (i % 5)).rotateLeft (keccakRot.getD i 0))
  -- lane (X, Y) of b is lane (x, y) of e with X = y, Y = 2x + 3y
  let b := (List.range 25).map (fun i => let X := i % 5; let Y := i / 5; at' e (((X + 3 * Y) % 5) + 5 * X))
  let r := (List.range 25).map (fun i => let x := i % 5; let y := 5 * (i / 5)
    at' b i ^^^ (~~~(at' b (y + (x + 1) % 5)) &&& at' b (y + (x + 2) % 5)))
  r.set 0 (at' r 0 ^^^ rc)

/-- Keccak-f[1600] (PRESUMED, log 6). -/
def keccakF (a : List W64) : List W64 := keccakRC.foldl keccakRound a

/-- Absorb blocks of 72 bytes (PRESUMED, log 6). -/
def sha3Absorb : Nat → List Byte → List W64 → List W64
  | 0, _, st => st
  | k + 1, m, st =>
    let lanes := (List.range 25).map (fun i => st.getD i 0 ^^^ if i < 9 then BitVec.ofNat 64 (leAt m (8 * i) 8) else 0)
    sha3Absorb k (m.drop 72) (keccakF lanes)

/-- SHA3-512 of FIPS 202 (PRESUMED, log 6). -/
def sha3 (m : List Byte) : List Byte :=
  let pad := 72 - m.length % 72
  let padded := m ++ (if pad = 1 then [0x86] else 0x06 :: List.replicate (pad - 2) 0 ++ [0x80])
  let st := sha3Absorb (padded.length / 72) padded (List.replicate 25 0)
  (st.take 8).flatMap (fun w => leBytes 8 w.toNat)

end Sys2Proof.Machine
end

