-- ==== Sys2Proof/Machine/Formats.lean ====
section
/-! DEFINITION. Number formats, rounding, the arithmetic in Z48 and the conversions of the Wardrobe engine
(02_number_formats.md). -/

namespace Sys2Proof.Machine

/-- The storage formats 0x0 to 0x6 (Table Formats-1). -/
inductive SFmt where
  | z4 | z8e | z8m | z16 | z16u | z32 | z48
  deriving DecidableEq, Repr

/-- Format of a code 0x0 to 0x6. -/
def fmtOf : Nat → Option SFmt
  | 0 => some .z4
  | 1 => some .z8e
  | 2 => some .z8m
  | 3 => some .z16
  | 4 => some .z16u
  | 5 => some .z32
  | 6 => some .z48
  | _ => none

/-- Width in bits (Table Formats-1). -/
def fmtWidth : SFmt → Nat
  | .z4 => 4 | .z8e => 8 | .z8m => 8 | .z16 => 16 | .z16u => 16 | .z32 => 32 | .z48 => 48

/-- Fraction bits (Table Formats-2). -/
def fmtFrac : SFmt → Nat
  | .z4 => 1 | .z8e => 2 | .z8m => 3 | .z16 => 9 | .z16u => 10 | .z32 => 24 | .z48 => 37

/-- Exponent bias (Table Formats-2). -/
def fmtBias : SFmt → Nat
  | .z4 => 2 | .z8e => 15 | .z8m => 7 | .z16 => 31 | .z16u => 31 | .z32 => 63 | .z48 => 511

/-- Largest exponent (Table Formats-2). -/
def fmtEmax : SFmt → Int
  | .z4 => 1 | .z8e => 16 | .z8m => 8 | .z16 => 32 | .z16u => 32 | .z32 => 64 | .z48 => 512

/-- Is there no sign bit? -/
def fmtUnsigned : SFmt → Bool
  | .z16u => true
  | _ => false

/-- Is the format block-scaled (Table Formats-1)? -/
def blockScaled : SFmt → Bool
  | .z4 => true | .z8e => true | .z8m => true
  | _ => false

/-- log2 of the unit: 2^(1 − b − fb) (R31). -/
def fmtUnit (f : SFmt) : Int := 1 - (fmtBias f : Int) - fmtFrac f

/-- Significand and exponent of M (Table Formats-3). The last code of Z16u is void, so its M is one code lower. -/
def fmtMax (f : SFmt) : Nat × Int :=
  (2 ^ (fmtFrac f + 1) - (if fmtUnsigned f then 2 else 1), fmtEmax f - fmtFrac f)

/-- Code of +M (Table Formats-3). -/
def fmtMaxCode (f : SFmt) : Nat := if fmtUnsigned f then 0xFFFE else 2 ^ (fmtWidth f - 1) - 1

/-- The void code (R34). -/
def fmtVoid (f : SFmt) : Nat := if fmtUnsigned f then 0xFFFF else 2 ^ (fmtWidth f - 1)

/-- A finite value (−1)^neg × m × 2^q. -/
structure Dy where
  neg : Bool
  m   : Nat
  q   : Int
  deriving DecidableEq, Repr

/-- An element's value; none is void. -/
abbrev Val := Option Dy

/-- Value of a code before its block scale (R31, R34). -/
def decodeVal (f : SFmt) (code : Nat) : Val :=
  if code = fmtVoid f then none
  else
    let fb := fmtFrac f
    let neg := !fmtUnsigned f && code.testBit (fmtWidth f - 1)
    let mag := if neg then code - 2 ^ (fmtWidth f - 1) else code
    let ef := mag / 2 ^ fb
    let fr := mag % 2 ^ fb
    if ef = 0 then some ⟨neg, fr, fmtUnit f⟩ else some ⟨neg, 2 ^ fb + fr, (ef : Int) - fmtBias f - fb⟩

/-- A value times 2^e. -/
def scaleVal (v : Val) (e : Int) : Val := v.map (fun d => { d with q := d.q + e })

/-- m1·2^q1 < m2·2^q2. -/
def magLt (m1 : Nat) (q1 : Int) (m2 : Nat) (q2 : Int) : Bool :=
  let q := min q1 q2
  decide (m1 * 2 ^ (q1 - q).toNat < m2 * 2 ^ (q2 - q).toNat)

/-- Sticky flags of Table Formats-7. -/
abbrev Flags := BitVec 5

def fOvf : Flags := 1
def fVoidIn : Flags := 2
def fVoidMade : Flags := 4
def fUnderflow : Flags := 8
def fScaleLimit : Flags := 16

/-- Rounding modes; code 0b11 is invalid and never reaches a rounder (Table Formats-6). -/
inductive RMode where
  | rne | rtz | sr
  deriving DecidableEq, Repr

/-- An out-of-range value (R47). -/
def outOfRange (f : SFmt) (neg ovfVoid : Bool) : Nat × Flags :=
  if ovfVoid then (fmtVoid f, fOvf ||| fVoidMade)
  else (if neg then (if fmtUnsigned f then 0 else fmtMaxCode f + 2 ^ (fmtWidth f - 1)) else fmtMaxCode f, fOvf)

/-- Round (−1)^neg × m × 2^q into a storage format: the code and the flags it sets (R46, R47, R49). -/
def roundTo (f : SFmt) (d : Dy) (rnd : RMode) (ovfVoid : Bool) (draw : BitVec 32) : Nat × Flags :=
  let mx := fmtMax f
  if d.m = 0 then (0, 0)
  else if (d.neg && fmtUnsigned f) || magLt mx.1 mx.2 d.m d.q then outOfRange f d.neg ovfVoid
  else
    let fb := fmtFrac f
    let l : Int := (Nat.log2 d.m : Int) + d.q
    let e : Int := max l (1 - (fmtBias f : Int))
    let k : Int := e - fb
    let sh := (k - d.q).toNat
    let n := if d.q ≥ k then d.m * 2 ^ (d.q - k).toNat else d.m / 2 ^ sh
    let low := if d.q ≥ k then 0 else d.m % 2 ^ sh
    let first := if sh ≥ 32 then low / 2 ^ (sh - 32) else low * 2 ^ (32 - sh)
    let rest := decide (sh > 32) && decide (low % 2 ^ (sh - 32) ≠ 0)
    let up := match rnd with
      | .rne => decide (first > 0x8000_0000) || (decide (first = 0x8000_0000) && (rest || decide (n % 2 = 1)))
      | .rtz => false
      | .sr => decide (draw.toNat < first)
    let n := if up then n + 1 else n
    if n = 0 then (0, fUnderflow)
    else
      let carry := decide (n = 2 * 2 ^ fb)
      let n := if carry then n / 2 else n
      let e := if carry then e + 1 else e
      let body := if n < 2 ^ fb then n else (e + fmtBias f).toNat * 2 ^ fb + (n - 2 ^ fb)
      (body + (if d.neg && !fmtUnsigned f then 2 ^ (fmtWidth f - 1) else 0), 0)

/-! ### Stochastic rounding (R51) -/

def srMix (x : W64) : W64 :=
  let x := (x ^^^ (x >>> 30)) * 0xA3B1_95C4_7E2D_0F6B
  let x := (x ^^^ (x >>> 29)) * 0xE7F3_2C59_9B1D_4A87
  x ^^^ (x >>> 32)

def srDraw (seed step : W64) (hid : BitVec 16) (site : Byte) (eidx : BitVec 32) : BitVec 32 :=
  let a := srMix (seed ^^^ srMix step)
  let b := (hid.setWidth 64 <<< 40) ||| (site.setWidth 64 <<< 32) ||| eidx.setWidth 64
  (srMix (a ^^^ srMix (b ^^^ 0x5C1E_9A3D_2B87_F061)) >>> 32).setWidth 32

/-! ### Arithmetic in Z48 (R50) -/

/-- A Z48 code with the flags of the operations that made it. -/
structure ZF where
  v : BitVec 48
  f : Flags := 0
  deriving DecidableEq, Repr

def zVoid : BitVec 48 := 0x8000_0000_0000

/-- Value of a Z48 code. -/
def zVal (z : BitVec 48) : Val := decodeVal .z48 z.toNat

/-- Round an exact value to Z48 with RNE; beyond the largest finite value it is void (R50). -/
def zRound (d : Dy) (f : Flags) : ZF :=
  let r := roundTo .z48 d .rne true 0
  ⟨BitVec.ofNat 48 r.1, f ||| r.2⟩

/-- A value of a narrower format in Z48. -/
def zOf (v : Val) : ZF := match v with
  | none => ⟨zVoid, 0⟩
  | some d => zRound d 0

/-- Signed sum of two values, exact. -/
def dyAdd (a b : Dy) : Dy :=
  let q := min a.q b.q
  let x : Int := a.m * 2 ^ (a.q - q).toNat
  let y : Int := b.m * 2 ^ (b.q - q).toNat
  let t := (if a.neg then -x else x) + (if b.neg then -y else y)
  ⟨decide (t < 0), t.natAbs, q⟩

def dyNeg (a : Dy) : Dy := { a with neg := !a.neg }

/-- a < b. -/
def dyLt (a b : Dy) : Bool := let d := dyAdd a (dyNeg b); d.neg && decide (d.m ≠ 0)

/-- Apply an operation to two Z48 values; void propagates (R36). -/
def zOp2 (op : Dy → Dy → Flags → ZF) (a b : ZF) : ZF :=
  match zVal a.v, zVal b.v with
  | some x, some y => op x y (a.f ||| b.f)
  | _, _ => ⟨zVoid, a.f ||| b.f⟩

def zAdd (a b : ZF) : ZF := zOp2 (fun x y f => zRound (dyAdd x y) f) a b
def zSub (a b : ZF) : ZF := zOp2 (fun x y f => zRound (dyAdd x (dyNeg y)) f) a b
def zMul (a b : ZF) : ZF := zOp2 (fun x y f => zRound ⟨x.neg != y.neg, x.m * y.m, x.q + y.q⟩ f) a b

/-- Division: 128 quotient bits and a sticky bit decide the rounding of the exact quotient; by zero it is void (R143). -/
def zDiv (a b : ZF) : ZF :=
  zOp2 (fun x y f =>
    if y.m = 0 then ⟨zVoid, f ||| fVoidMade⟩
    else
      let n := x.m * 2 ^ 128
      zRound ⟨x.neg != y.neg, 2 * (n / y.m) + (if n % y.m = 0 then 0 else 1), x.q - y.q - 129⟩ f) a b

/-- Integer square root of a number below 2^(2·bits). -/
def isqrt (bits n : Nat) : Nat :=
  (List.range bits).foldl (fun r i => let t := r + 2 ^ (bits - 1 - i); if t * t ≤ n then t else r) 0

/-- Square root; of a negative value it is void (R143). -/
def zSqrt (a : ZF) : ZF :=
  match zVal a.v with
  | none => ⟨zVoid, a.f⟩
  | some x =>
    if x.m = 0 then ⟨0, a.f⟩
    else if x.neg then ⟨zVoid, a.f ||| fVoidMade⟩
    else
      let odd := decide (x.q % 2 ≠ 0)
      let m := (if odd then 2 * x.m else x.m) * 2 ^ 128
      let q := (if odd then x.q - 1 else x.q) - 128
      let r := isqrt 86 m
      zRound ⟨false, 2 * r + (if r * r = m then 0 else 1), q / 2 - 1⟩ a.f

/-! ### Exact accumulators (Table Formats-1, Table Harness-3) -/

/-- Accumulator code of a head's format; Z48 for float mode (R57). -/
def accOf : SFmt → Nat
  | .z4 => 8 | .z8e => 9 | .z8m => 10 | .z16 => 11
  | _ => 6

/-- Storage format whose sums an accumulator code holds. -/
def accBase : Nat → Option SFmt
  | 8 => some .z4
  | 9 => some .z8e
  | 10 => some .z8m
  | 11 => some .z16
  | _ => none

/-- Width of an accumulator. -/
def accWidth : Nat → Nat
  | 8 => 32 | 9 => 56 | 10 => 48 | 11 => 96
  | _ => 48

/-- Value of an accumulator under block scale e (DEDUCED, log 64). -/
def accVal (code : Nat) (bits : Nat) (e : Int) : Val :=
  match accBase code with
  | some f => let a := signed (accWidth code) bits; some ⟨decide (a < 0), a.natAbs, fmtUnit f + e⟩
  | none => decodeVal .z48 (bits % 2 ^ 48)

/-! ### Conversion controls (Table Formats-10) -/

structure Conv where
  op   : Nat
  src  : Nat
  dst  : Nat
  rnd  : Nat
  void : Bool
  scl  : Nat
  deriving DecidableEq, Repr

def convOf (c : BitVec 16) : Conv :=
  let n := c.toNat
  { op := n / 8192, src := n / 512 % 16, dst := n / 32 % 16, rnd := n / 8 % 4, void := n.testBit 2, scl := n % 4 }

/-- Rounding mode of a valid control. -/
def convMode (c : Conv) : RMode := if c.rnd = 0 then .rne else if c.rnd = 1 then .rtz else .sr

/-- Is a code one of Z4, Z8e, Z8m? -/
def scaledCode (c : Nat) : Bool := decide (c < 3)

/-- Is a conversion control valid (R55, Table Formats-9)? -/
def convValid (c : Conv) : Bool :=
  decide (c.rnd ≠ 3) && decide (c.scl ≠ 3) &&
  (if c.op = 0 then
     decide (c.src < 6) && decide (c.dst < 6) &&
       (if scaledCode c.dst then decide (c.scl = 1 ∨ c.scl = 2) else decide (c.scl = 0))
   else if c.op = 1 then
     (decide (c.src = 6) || (decide (8 ≤ c.src) && decide (c.src < 12))) && decide (c.dst < 6) &&
       (if scaledCode c.dst then decide (c.scl = 1 ∨ c.scl = 2) else decide (c.scl = 0))
   else if c.op = 2 then decide (c.src = 0) && decide (c.dst = 2) && decide (c.scl = 0)
   else if c.op = 3 then scaledCode c.src && decide (c.dst = c.src) && decide (c.scl = 1)
   else false)

/-! ### One block through the Wardrobe engine -/

/-- E of a scale byte (Table Formats-5). -/
def scaleExp (b : Byte) : Int := signed 6 b.toNat

/-- A scale byte. -/
def scaleByte (voidBlock ovf : Bool) (e : Int) : Byte :=
  BitVec.ofNat 8 ((if voidBlock then 128 else 0) + (if ovf then 64 else 0) + twos 6 e)

/-- What converting one block gives: codes of its 64 elements, its data scale byte, the flags, and how many carried
elements went out of range and were written void. -/
structure BlockOut where
  codes : List Nat
  scale : Byte
  flags : Flags
  ovf   : Nat
  voids : Nat
  deriving DecidableEq, Repr

/-- Smallest E in −32 to +31 that fits every element, and whether none does (R56). -/
def fitScale (f : SFmt) (vs : List Val) : Int × Bool :=
  let live := vs.filterMap (fun v => v.filter (fun d => d.m ≠ 0))
  if live.isEmpty then (0, false)
  else
    let mx := fmtMax f
    match (List.range 64).find? (fun (i : Nat) => live.all (fun d => !magLt mx.1 (mx.2 + (i : Int) - 32) d.m d.q)) with
    | some i => ((i : Int) - 32, false)
    | none => (31, true)

/-- Convert the elements of one block (R46 to R49, R53, R56). `vs` are the exact values of its 64 elements, scale applied,
void as none; `carried` of them are elements of the tensor (R38); `given` is the target E under GIVEN; `srcScale` the source
scale byte, which EXPAND copies. -/
def convertBlock (c : Conv) (vs : List Val) (carried : Nat) (given : Int) (srcScale : Byte) (draw : Nat → BitVec 32) :
    BlockOut :=
  match fmtOf c.dst with
  | none => ⟨[], 0, 0, 0, 0⟩
  | some f =>
    let fit := fitScale f vs
    let e : Int := if c.op = 2 then scaleExp srcScale else if c.scl = 1 then given else if c.scl = 2 then fit.1 else 0
    let rs := (List.range vs.length).map (fun i =>
      match vs.getD i none with
      | none => (fmtVoid f, fVoidIn)
      | some d => roundTo f { d with q := d.q - e } (convMode c) c.void (draw i))
    let flags := rs.foldl (fun a r => a ||| r.2) (if c.scl = 2 && fit.2 then fScaleLimit else 0)
    let live := rs.take carried
    let ovf := live.countP (fun r => r.2.getLsbD 0)
    let voids := live.countP (fun r => r.1 = fmtVoid f)
    let scale := if c.op = 2 then srcScale
      else scaleByte (decide (voids = carried)) (rs.any (fun r => r.2.getLsbD 0)) e
    ⟨rs.map (·.1), if blockScaled f then scale else 0, flags, ovf, voids⟩

/-- Codes packed as they lie in memory and in frames (R32). -/
def packCodes (f : SFmt) (codes : List Nat) : List Byte :=
  match f with
  | .z4 => (List.range ((codes.length + 1) / 2)).map (fun i =>
      BitVec.ofNat 8 (codes.getD (2 * i) 0 % 16 + 16 * (codes.getD (2 * i + 1) 0 % 16)))
  | _ => codes.flatMap (fun c => leBytes (fmtWidth f / 8) c)

/-- The `n` codes that packed bytes hold. -/
def unpackCodes (f : SFmt) (n : Nat) (bytes : List Byte) : List Nat :=
  match f with
  | .z4 => (List.range n).map (fun i => (byteAt bytes (i / 2)).toNat / 16 ^ (i % 2) % 16)
  | _ => let w := fmtWidth f / 8; (List.range n).map (fun i => leAt bytes (w * i) w)

/-- Bytes that `n` elements take. -/
def codeBytes (f : SFmt) (n : Nat) : Nat := (n * fmtWidth f + 7) / 8

end Sys2Proof.Machine
end

