-- ==== Sys2Proof/Machine/AuditState.lean ====
section
/-! DEFINITION. State of the Wardrobe registers (02_number_formats.md R61), the Outrider, the Digest engine and the
playbills (08_numerics_watch_and_audit.md) and of the topology (12_topology_and_recovery.md). -/

namespace Sys2Proof.Machine

/-- Wardrobe registers (R61). -/
structure Wardrobe where
  sticky : BitVec 64 := 0
  ovf    : Nat := 0
  void   : Nat := 0
  elems  : W64 := 0
  deriving DecidableEq, Repr

/-- One Outrider sample in a context, with the checks still to end (R198). -/
structure Sample where
  head   : Nat
  seg    : Nat
  block  : Nat
  step   : Nat
  /-- Checks of Table Audit-2 still to end, and the measures formed (R199). -/
  checks : List Nat := []
  /-- Checks whose operands and results have passed. -/
  ready  : List Nat := []
  gmax   : Option Int := none
  drift  : Option Nat := none
  /-- OUTR_CTRL in force for the sample's step (R196). -/
  ctrl   : W64 := 0
  /-- The Outrider's own sum of the block, with its void elements (SUM, FSUM). -/
  sum    : List (BitVec 96) := []
  void   : BitVec 64 := 0
  /-- Exact checks whose compare shows a difference, with its first element. -/
  miss   : List (Nat × BitVec 6) := []
  deriving DecidableEq, Repr

/-- What the Outrider has reported for a head's step: a tolerance event sent, an exact check failed (R202, R350). -/
structure OutrNote where
  step  : Nat
  head  : Nat
  told  : Bool := false
  exact : Bool := false
  deriving DecidableEq, Repr

/-- The Outrider (R195 to R202, R215). -/
structure Outrider where
  ctrl     : W64 := 0x0004_40A1
  sticky   : BitVec 5 := 0
  samples  : W64 := 0
  exact    : Nat := 0
  growth   : Nat := 0
  drift    : Nat := 0
  abandoned : Nat := 0
  miss     : W64 := 0
  ctxs     : List Sample := []
  notes    : List OutrNote := []
  /-- The snoop queue: entries in it times 300, at a time (R198). -/
  snoop    : Nat := 0
  snoopAt  : Nat := 0
  /-- Events of a step whose playbill was being closed, counted in the next (R202): exact, tolerance, samples, abandoned. -/
  carry    : Nat × Nat × Nat × Nat := (0, 0, 0, 0)
  deriving DecidableEq, Repr

/-- A segment digest waiting for its fold (R206). -/
structure SegDigest where
  hid  : BitVec 16
  step : Nat
  part : Nat
  seg  : Nat
  hash : List Byte
  deriving DecidableEq, Repr

/-- A record waiting for ring space, or a signature being made (R210 to R212). -/
structure Signing where
  step   : Nat
  jobId  : W64
  digest : List Byte
  since  : Nat
  deriving DecidableEq, Repr

/-- A state audit in progress (R214). -/
structure AuditJob where
  hid  : BitVec 16
  page : Nat
  /-- Issue number of its accesses (R134). -/
  issue : Nat := 0
  deriving DecidableEq, Repr

/-- The Digest engine and the playbill ring (R205 to R216). -/
structure Digest where
  ctrl     : W64 := 16
  last     : BitVec 32 := 0
  sticky   : BitVec 4 := 0
  audit    : W64 := 0
  auditJob : Option AuditJob := none
  buffer   : List SegDigest := []
  /-- Ring positions: bytes freed and bytes written since the ring was last empty at its start. -/
  freedTo  : Nat := 0
  writtenTo : Nat := 0
  /-- Records in the ring not yet freed: end, step, and whether it is a signature record. -/
  records  : List (Nat × Nat × Bool) := []
  signing  : Option Signing := none
  due      : Option Signing := none
  /-- Complete signature records, with their steps, that wait for ring space. -/
  ready    : List (Nat × List Byte) := []
  /-- A playbill waits for ring space, with so many of the ready records before it (R211). -/
  pbAhead  : Option Nat := none
  deriving DecidableEq, Repr

/-- The accepted axis plan (R297 to R300). -/
structure Plan where
  id      : W64
  dx      : Nat
  dy      : Nat
  dz      : Nat
  rolemap : Nat
  torus   : List (BitVec 10 × BitVec 48)
  /-- Spine entries: tier − 1, plane, GROUP, serial. -/
  spine   : List (Nat × Nat × BitVec 10 × BitVec 48)
  penalty : List (BitVec 16)
  deriving DecidableEq, Repr

/-- A row of the placement result (R314). -/
structure PlaceRow where
  hid      : BitVec 16
  flags    : Byte
  parent   : Byte
  pslot    : Byte
  expected : W64
  leads    : W64
  deriving DecidableEq, Repr

/-- Topology state (R297 to R314). -/
structure Topology where
  plan    : Option Plan := none
  /-- Serials of the modules in the live set (R308). -/
  live    : List (BitVec 48) := []
  rows    : List PlaceRow := []
  placed  : Bool := false
  stgCtrl : W64 := 0
  placeDigest : List Byte := []
  deriving DecidableEq, Repr

end Sys2Proof.Machine
end

