-- ==== Sys2Proof/Machine/CueState.lean ====
section
/-! DEFINITION. State of the stage clock, the cue sheet, the run and its cue instances (04_cues_and_stage_clock.md),
and of the Callboard (07_callboard.md). -/

namespace Sys2Proof.Machine

/-- Stage clock states (Table Cue-1); the code is the place in this list. -/
inductive ClockSt where
  | free | rack | machine | holdover | stopped
  deriving DecidableEq, Repr

/-- A time notice waiting for its grid point (R101). -/
structure NoticeRec where
  k       : W64
  grid    : BitVec 32
  machine : Bool
  hold    : Bool
  deriving DecidableEq, Repr

/-- The stage clock unit (R95 to R104, R128). -/
structure StageClock where
  /-- Out of reset (R437). -/
  released : Bool := false
  now      : W64 := 0
  st       : ClockSt := .free
  /-- STG_CTRL as written, and the fields in force since the last TMARK edge. -/
  ctrl     : W64 := 0
  inForce  : W64 := 0
  epochReg : W64 := 0
  /-- STG_EPOCH as loaded: the base of the grid. -/
  epoch    : W64 := 0
  grid     : BitVec 32 := 0
  wall     : W64 := 0
  sticky   : BitVec 6 := 0
  /-- θ of the last exchanges used, newest first, and their mean. -/
  thetas   : List Int := []
  theta    : Int := 0
  /-- Grid point to be judged next, the edge captured against it, and grid points missed in a row (R100). -/
  nextK    : Nat := 0
  captured : Option Int := none
  missed   : Nat := 0
  /-- Correction still to slew, and ticks since the last one. -/
  slew     : Int := 0
  sinceSlew : Nat := 0
  /-- When HOLDOVER was entered. -/
  holdAt   : Nat := 0
  /-- When a time notice, and a usable exchange, last came. -/
  noticeAt : Nat := 0
  usableAt : Nat := 0
  /-- SFC_A and T1 of the open exchange (R260). -/
  exchange : Option (BitVec 16 × W64) := none
  /-- The last TMARK period in which an exchange was started, and a notice sent. -/
  exchangeK : Option Nat := none
  noticeK  : Option Nat := none
  /-- The last four (RACK, K) seen, newest first (R261). -/
  seen     : List (BitVec 10 × W64) := []
  notices  : List NoticeRec := []
  deriving DecidableEq, Repr

/-- A companies entry (Table Cue-5). -/
structure Company where
  number : BitVec 10
  accels : Nat
  deriving DecidableEq, Repr

/-- A heads entry (Table Cue-5). Slot 64 is bit 64 of EXPECTED and LEADS. -/
structure SheetHead where
  hid      : BitVec 16
  company  : BitVec 10
  fmt      : BitVec 4
  root     : Bool
  parent   : BitVec 6
  pslot    : BitVec 7
  len      : Nat
  expected : BitVec 65
  segwin   : Nat
  scaleset : Nat
  leads    : BitVec 65
  deriving DecidableEq, Repr

/-- A scale replacement (Table Cue-5). -/
structure ScaleRepl where
  step : Nat
  hid  : BitVec 16
  set  : Nat
  deriving DecidableEq, Repr

/-- A leave pre-grant (Table Cue-5). -/
structure PreGrant where
  start  : Nat
  length : Nat
  watts  : Nat
  lclass : BitVec 4
  ramp   : Nat
  deriving DecidableEq, Repr

/-- A Groom parameter set (Table Groom-5). -/
structure PSet where
  lr     : BitVec 32
  beta1  : BitVec 32
  beta2  : BitVec 32
  eps    : BitVec 32
  wd     : BitVec 32
  gscale : BitVec 32
  clip   : BitVec 32
  flags  : BitVec 32
  deriving DecidableEq, Repr

/-- A cue word (Table Cue-7). -/
structure CueWord where
  w0 : W64
  w1 : W64
  w2 : W64
  w3 : W64
  deriving DecidableEq, Repr

/-- A loaded cue sheet: the header and the sections. The scale bytes stay in the staging bytes of the scratch region
(R347); `scaleAt` is the sheet offset of that section. -/
structure Sheet where
  length    : Nat
  jobId     : W64
  seed      : W64
  firstStep : Nat
  stepCount : Nat
  baseTick  : Nat
  period    : Nat
  module    : BitVec 48
  liberty   : Bool
  companies : List Company
  heads     : List SheetHead
  scaleSets : List (Nat × Nat)
  scaleAt   : Nat
  scaleCount : Nat
  repls     : List ScaleRepl
  preGrants : List PreGrant
  psets     : List PSet
  cues      : List CueWord
  deriving DecidableEq, Repr

/-- Cue instance states (Table Cue-9); the code is the place in this list. -/
inductive InstSt where
  | idle | running | late | waiting | done | failed
  deriving DecidableEq, Repr

/-- A cue instance (R118 to R124, R464). -/
structure Inst where
  cue      : Nat
  st       : InstSt := .idle
  launched : Bool := false
  fmtFlags : BitVec 5 := 0
  late     : Bool := false
  waited   : Bool := false
  leftOut  : Bool := false
  leaveOverrun : Bool := false
  laggard  : Nat := 127
  missing  : Nat := 0
  launchAt : Nat := 0
  firstAt  : Option Nat := none
  doneAt   : Nat := 0
  /-- The action tick has been acted on. -/
  acted    : Bool := false
  /-- A MOVE or CONVERT has started, and has finished its accesses; a BROADCAST's next segment. -/
  started  : Bool := false
  finished : Bool := false
  nextSeg  : Nat := 0
  /-- Issue number of a MOVE's accesses (R134). -/
  issue    : Nat := 0
  deriving DecidableEq, Repr

/-- What the module keeps of one head for one open step (R203, R206, R209). -/
structure HeadStep where
  head     : Nat
  expected : BitVec 65
  leftOut  : BitVec 65 := 0
  excluded : Bool := false
  updated  : Bool := false
  reduced  : Bool := false
  ovfblk   : Nat := 0
  voidel   : Nat := 0
  ovfSent  : Bool := false
  /-- Head digests by part: IN, OUT, W, BCAST. -/
  digests  : List (Nat × List Byte) := []
  deriving DecidableEq, Repr

/-- An open step (R113 to R115, R209, R210). -/
structure OpenStep where
  step    : Nat
  openAt  : W64
  insts   : List Inst
  heads   : List HeadStep
  outrCtrl : W64
  /-- Tick, clock state and BOXSEQ when the last cue became DONE or FAILED. -/
  ended   : Option (W64 × BitVec 4 × W64) := none
  samples : Nat := 0
  exact   : Nat := 0
  toler   : Nat := 0
  abandon : Nat := 0
  deriving DecidableEq, Repr

/-- Why a run is ending (R113, R103, R315). -/
inductive Ending where
  | none | stop | recovery | clock
  deriving DecidableEq, Repr

/-- The active run. -/
structure Run where
  nextStep  : Nat
  closed    : Nat := 0
  ending    : Ending := .none
  steps     : List OpenStep := []
  prevPb    : List Byte
  signEvery : Nat
  /-- The step whose playbill was written last, and whether that was due for signing. -/
  lastPb    : Option Nat := none
  lastDue   : Bool := false
  /-- When a recovery drain began. -/
  drainAt   : Nat := 0
  deriving DecidableEq, Repr

/-- The action tick of an instance whose step has closed before it (R122). -/
structure LateTick where
  step : Nat
  cue  : Nat
  tick : Nat
  deriving DecidableEq, Repr

/-- Counters of one member slot of one company (R122, R123). -/
structure MemberCount where
  company  : BitVec 10
  slot     : Nat
  consec   : BitVec 4 := 0
  missed   : Nat := 0
  worst    : Nat := 0
  excluded : Bool := false
  deriving DecidableEq, Repr

/-- Cue registers, the loaded sheet and the run (R105 to R129). -/
structure CueUnit where
  sheet   : Option Sheet := none
  program : List Byte := []
  reason  : Byte := 0
  whereAt : Nat := 0
  sticky  : BitVec 7 := 0
  run     : Option Run := none
  /-- The step last opened, for CUE_STEP. -/
  stepNow : Nat := 0
  /-- The most recent launched instance of each cue, with its step (R129). -/
  last    : List (Nat × Inst) := []
  members : List MemberCount := []
  /-- Members to be readmitted when the head's STEP next advances: head, slot (R123). -/
  readmit : List (Nat × Nat) := []
  /-- The step last closed by the last run. -/
  lastClosed : Option Nat := none
  /-- The step last closed in a run of the loaded sheet (R182). -/
  closedTo : Option Nat := none
  late    : List LateTick := []
  /-- The next run is the first after a recovery stop (R318). -/
  resuming : Bool := false
  deriving DecidableEq, Repr

/-- A Callboard context (R182 to R188). Operands are kept by member slot. -/
structure CallCtx where
  step     : Nat
  cue      : Nat
  operands : List (Nat × List (BitVec 48)) := []
  received : BitVec 65 := 0
  result   : Option (List (BitVec 48)) := none
  /-- The partial has been sent up, and the result or release sent to the members. -/
  sentUp   : Bool := false
  sentDown : Bool := false
  deriving DecidableEq, Repr

/-- The local operand of a SUMSQ call as it is formed: partials of segments not yet folded, segments folded, and the total (R186). -/
structure SumSq where
  step     : Nat
  cue      : Nat
  segs     : Nat
  partials : List (Nat × BitVec 48) := []
  folded   : Nat := 0
  total    : BitVec 48 := 0
  deriving DecidableEq, Repr

/-- An arrival that waits: held under test 3 (Table Callboard-2), or while the clock is STOPPED (R189). -/
structure HeldCall where
  port    : Port
  bytes   : List Byte
  stopped : Bool := false
  deriving DecidableEq, Repr

/-- The Callboard (R177 to R191). -/
structure Callboard where
  ctxs    : List CallCtx := []
  sums    : List SumSq := []
  held    : List HeldCall := []
  sticky  : BitVec 8 := 0
  /-- Results of the most recent completed instance of each cue (R191). -/
  results : List (Nat × List (BitVec 48)) := []
  deriving DecidableEq, Repr

end Sys2Proof.Machine
end

