-- ==== Sys2Proof/Machine/FaultState.lean ====
section
/-! DEFINITION. State of the always-on domain: fault collector, stage door, reset controller, violation counter
(16_faults.md, 17_reset_and_bringup.md, 18_registers.md R446). -/

namespace Sys2Proof

namespace Machine

/-- Source states (R404); the code of FLT_SRC_STATUS.STATE is the place in this list. -/
inductive SrcSt where
  | ok | active | quiet
  deriving DecidableEq, Repr

/-- One fault source (R404 to R407). -/
structure Source where
  st         : SrcSt := .ok
  index      : BitVec 4 := 0
  react      : BitVec 3 := 0
  events     : Nat := 0
  recoveries : Nat := 0
  /-- When the source last left ACTIVE, or was last raised. -/
  since      : Nat := 0
  /-- The reaction applied by the raise that made it ACTIVE. -/
  applied    : Nat := 0
  /-- The last raise took a reaction of 1 or above, so a CLEARED event is due (R421). -/
  told       : Bool := false
  /-- Fences and the stop of ALIVE held until the source is OK (Table Faults-3). -/
  teamHeld   : BitVec 8 := 0
  arrayHeld  : BitVec 4 := 0
  aliveHeld  : Bool := false
  deriving DecidableEq, Repr

/-- A log record before its CRC (Table Faults-7). -/
structure LogRec where
  seq    : W64
  type   : Byte
  source : Byte
  react  : Byte
  index  : Byte
  tick   : W64
  wall   : W64
  sticky : W64
  addr   : W64
  deriving DecidableEq, Repr

/-- Stage door states (Table Faults-5); the code is the place in this list. -/
inductive DoorSt where
  | off | booting | running | restarting | givenUp
  deriving DecidableEq, Repr

/-- The stage door and ALIVE (R413 to R416). -/
structure StageDoor where
  st       : DoorSt := .off
  cause    : BitVec 2 := 0
  run      : BitVec 4 := 0
  restarts : Nat := 0
  /-- FLT_BEAT.BEAT. -/
  beat     : BitVec 16 := 0
  /-- When the last beat was written, the Prompter was released, the running restart began. -/
  beatAt   : Nat := 0
  bootAt   : Nat := 0
  restartAt : Nat := 0
  /-- ALIVE toggles, and its level. -/
  aliveOn  : Bool := false
  level    : Bool := false
  /-- The last toggle point taken. -/
  toggleAt : Nat := 0
  deriving DecidableEq, Repr

/-- The reactions of Table Faults-1 at power-on, source by source. HEARTBEAT's field reads 0 (Table Faults-14). -/
def defaultReact : List (BitVec 3) :=
  [1, 1, 0, 1, 1, 0, 1, 0, 1, 0, 1, 3] ++ [3, 1, 1, 1, 1, 6, 6, 4, 4, 0, 6]

/-- The fault collector (R403 to R412, R418, R422) and the violation counter (R446). -/
structure FaultUnit where
  ctrl     : W64 := 0x07D0_0C8F_A300_0000
  sources  : Vector Source 23 := Vector.ofFn (fun i => ({ react := defaultReact.getD i.val 0 } : Source))
  reactBad : Bool := false
  first    : W64 := 0
  /-- The AO cycle in which FLT_FIRST was latched (R408). -/
  firstAt  : Option Nat := none
  /-- Fences in force, and fences to be lifted at the next step boundary (R412). -/
  team     : BitVec 8 := 0
  array    : BitVec 4 := 0
  liftTeam : BitVec 8 := 0
  liftArray : BitVec 4 := 0
  queue    : List LogRec := []
  lost     : Nat := 0
  logSeq   : W64 := 0
  /-- Interrupts waiting for the Prompter, and the time of an unacknowledged NMI. -/
  intr     : BitVec 32 := 0
  nmiAt    : Option Nat := none
  violCount : Nat := 0
  violLast : BitVec 32 := 0
  deriving DecidableEq, Repr

/-- Reset reaches (R423). -/
inductive Reach where
  | block | warm | cold | power
  deriving DecidableEq, Repr

/-- The reset controller (R423 to R439). -/
structure ResetCtl where
  /-- Sources of Table Reset-1 asserted now. -/
  asserted : BitVec 7 := 3
  /-- Sources asserted since the last completed exit, and the widest reach that counts. -/
  seen     : BitVec 8 := 3
  widest   : Reach := .power
  /-- A WARM reach or wider has taken effect and the module has not left reset. -/
  held     : Bool := true
  /-- An exit is in progress, and when it started. -/
  exiting  : Bool := false
  exitAt   : Nat := 0
  exit     : BitVec 2 := 0
  ready    : Bool := false
  memReady : Bool := false
  optDone  : Bool := false
  ondie    : Bool := false
  refLock  : Bool := false
  choice   : BitVec 4 := 0
  code     : BitVec 6 := 0
  optRestarts : Nat := 0
  causeReach : BitVec 2 := 0
  causeSeen : BitVec 8 := 0
  exits    : Nat := 0
  sticky   : BitVec 5 := 0
  /-- RST_BLOCK bits as the host writes them and as BLOCK_RESET reactions hold them. -/
  block    : BitVec 19 := 0
  reactBlock : BitVec 19 := 0
  /-- Units that a BLOCK_RESET holds, each with the end of its 1 µs (R429). -/
  reactEnds : List (Nat × Nat) := []
  backup   : Vector W64 16 := Vector.replicate 16 0
  /-- Start of the warm entry sequence, and the sources waiting for it. -/
  warmAt   : Option Nat := none
  warmFor  : BitVec 7 := 0
  /-- End of the 1 ms of SW_COLD, SW_WARM and FAULT_WARM. -/
  end4     : Nat := 0
  end5     : Nat := 0
  end6     : Nat := 0
  /-- LPDDR6 trained, and its fill started (R437). -/
  trained  : Bool := false
  /-- Rails whose excursion raised SUPPLY, each with the time since when it is back in range (R456). -/
  rails    : List (Fin 8 × Option Nat) := []
  /-- The SPI flash lines, and those of the equalisation EEPROM, are driven (Table Reset-4). -/
  spi      : Bool := false
  eeprom   : Bool := false
  /-- When STANDBY_POR was last released, from which toggle points are counted (R413). -/
  porAt    : Nat := 0
  deriving DecidableEq, Repr

end Machine
end Sys2Proof
end

