-- ==== Sys2Proof/Machine/LinkState.lean ====
section
/-! DEFINITION. The state of the 64 IZ-Link instances (10_izano_link.md). -/

namespace Sys2Proof

namespace Machine

/-- Link states, Table Link-3; the code of LINK_STATUS.STATE is the place in this list. -/
inductive LinkSt where
  | down | hello | noversion | rollcall | offBook | opened
  deriving DecidableEq, Repr

/-- A peer HELLO (Table Link-5). -/
structure Hello where
  seen     : Bool
  kind     : Byte
  epoch    : BitVec 32
  vers     : List (Byte × Byte)
  credit   : Vector Nat 8
  maxCells : Nat
  deriving DecidableEq, Repr

/-- A ROLLCALL cell's fields (Table Link-6). -/
structure Roll where
  seen   : Bool
  kind   : Byte
  port   : Byte
  modnum : BitVec 16
  serial : BitVec 48
  plan   : W64
  coord  : BitVec 24
  role   : Byte
  deriving DecidableEq, Repr

/-- A frame sent and not yet acknowledged (R245, R248). -/
structure Unacked where
  seq     : BitVec 12
  buf     : Nat
  packet  : Packet
  replays : Nat
  /-- The switch input and the fabric port it came from, for routing it again (R249). -/
  input   : Fin 128
  arrival : Option Port
  deriving DecidableEq, Repr

/-- One link instance. -/
structure LinkPort where
  state     : LinkSt := .down
  verMajor  : BitVec 4 := 0
  verMinor  : BitVec 4 := 0
  epoch     : BitVec 32 := 0
  /-- The peer's EPOCH agreed at the entry to ROLLCALL. -/
  peerEpoch : BitVec 32 := 0
  /-- A HELLO of the peer has been received since the entry to HELLO. -/
  peerHello : Option Hello := none
  /-- CREDIT[v] that this end offers, fixed at the entry to HELLO (R270). -/
  offer     : Vector Nat 8 := Vector.replicate 8 0
  /-- The model's own: SEQs of unacknowledged frames of which a replay of this command finds a word uncorrectable (R419). -/
  badRead   : List (BitVec 12) := []
  nextSeq   : BitVec 12 := 0
  rxExpect  : BitVec 12 := 0
  anyAccepted : Bool := false
  unacked   : List Unacked := []
  lastFreed : Option (BitVec 12) := none
  used      : Vector (BitVec 16) 8 := Vector.replicate 8 0
  freedPeer : Vector (BitVec 16) 8 := Vector.replicate 8 0
  freedOwn  : Vector (BitVec 16) 8 := Vector.replicate 8 0
  nak       : Bool := false
  owed      : Bool := false
  resync    : Bool := false
  /-- When the last LINK, HELLO and ROLLCALL cell was sent in this state. -/
  linkAt    : Option Nat := none
  helloAt   : Option Nat := none
  rollAt    : Option Nat := none
  /-- Start of the replay timer, and when it was paused by an idle receive direction (R248). -/
  timerAt   : Nat := 0
  pausedAt  : Option Nat := none
  /-- ACK value of the last NAK acted on, none where its VALID was 0, and when that replay started (R247). -/
  lastNak   : Option (Option (BitVec 12) × Nat) := none
  peerRoll  : Option Roll := none
  /-- A ROLLCALL with SEEN = 1 has come since the entry to HELLO (R254). -/
  rollSeen  : Bool := false
  rollOwed  : Bool := false
  /-- The host has admitted this port's neighbour (R307). -/
  hostAdmit : Bool := false
  /-- OPEN by the host's admission alone, with a peer that fails R305: no routed frame takes it as a hop (R307). -/
  hostOnly  : Bool := false
  /-- When a data frame was last sent or accepted (R262). -/
  lastData  : Nat := 0
  /-- The last cell sent was a LINK cell with the current ACK and FREED (R262). -/
  linkLast  : Bool := false
  sticky    : BitVec 8 := 0
  crcBad    : Nat := 0
  replays   : Nat := 0
  naks      : Nat := 0
  dropped   : Nat := 0
  ctrl      : W64 := 0x0080_0808
  deriving DecidableEq, Repr

end Machine
end Sys2Proof
end

