-- ==== Sys2Proof/Machine/HarnessState.lean ====
section
/-! DEFINITION. State of heads, slots and intake (03_harnesses.md), of the segments in the stages after fire, of the
Groom engine and its shards (05_groom_and_master_state.md) and of the projection path (06_projection_and_upper_levels.md). -/

namespace Sys2Proof.Machine

/-- Baseline of one head in the Outrider (R200). -/
structure Baseline where
  count : Nat := 0
  sumG  : Int := 0
  sumD  : Int := 0
  baseG : Int := 0
  baseD : Int := 0
  deriving DecidableEq, Repr

/-- A head (Table Harness-1). The sheet's own fields stay in the loaded sheet at the same index. -/
structure Head where
  /-- EXPECTED now, members left out of the open step, members the company has lost. -/
  expected : BitVec 65
  leftOut  : BitVec 65 := 0
  lost     : BitVec 65 := 0
  step     : Nat
  base     : Nat := 0
  released : BitVec 256 := 0
  /-- The open step is not yet advertised: its scale window is being filled (R85). -/
  adverting : Bool := false
  /-- Steps at which a readmission took effect (R123). -/
  readmits : List Nat := []
  /-- Scale window: segments filled, with the four EXP fields (R85). -/
  window   : List (Nat × BitVec 24) := []
  /-- ROOT = 0: segments whose multicast of the step before the open one, and of the open one, has passed (R84, R85). -/
  passed   : List Nat := []
  passedNow : List Nat := []
  /-- First byte of the residual range (R172) and of SCALES (R85). -/
  resAt    : Nat := 0
  scaleAt  : Nat := 0
  baseline : Baseline := {}
  deriving DecidableEq, Repr

/-- Descriptor states (Table Harness-4); the code is the place in this list. -/
inductive DescSt where
  | free | armed | filling | spilling | spilled | reloading | fired | draining | fenced
  deriving DecidableEq, Repr

/-- A parked float contribution (R79). -/
structure Parked where
  mslot : Nat
  vals  : List (BitVec 48)
  voids : BitVec 256
  ovf   : BitVec 4
  deriving DecidableEq, Repr

/-- A live descriptor with its accumulators (Table Harness-2, Table Harness-3). -/
structure Slot where
  index    : Nat
  head     : Nat
  seg      : Nat
  st       : DescSt
  fmt      : BitVec 4
  blkovf   : BitVec 4 := 0
  seglen   : Nat
  zero     : Bool := true
  step     : Nat
  scale    : BitVec 24 := 0
  expected : BitVec 65
  received : BitVec 65 := 0
  void     : BitVec 256 := 0
  acc      : List (BitVec 96) := []
  parked   : List Parked := []
  /-- Members whose contribution has been added (R79). -/
  added    : BitVec 65 := 0
  /-- Fire rule met and the slot fired; partial or forward sent and accepted; digest in the buffer. -/
  hasFired : Bool := false
  sentUp   : Bool := false
  accepted : Bool := false
  forwarded : Bool := false
  fwdAccepted : Bool := false
  inDigest : Bool := false
  /-- A seeding receiver's slot whose forward is not applied: released without update (Table Groom-9). -/
  dropped : Bool := false
  /-- Spill index of the image being left or read (R69). -/
  image    : Nat := 0
  /-- Flags of Table Formats-7 that the adds have raised (R48, R78). -/
  flags    : BitVec 5 := 0
  /-- Issue number of its spill or reload (R134). -/
  issue    : Nat := 0
  deriving DecidableEq, Repr

/-- Counters of one member slot (Table Harness-14). -/
structure MbrCount where
  dup   : Nat := 0
  stale : Nat := 0
  early : Nat := 0
  mismatch : Nat := 0
  deriving DecidableEq, Repr

/-- A contribution in the intake queue (R86). -/
structure Waiting where
  packet : Packet
  deriving DecidableEq, Repr

/-- A segment in the stages after fire at a root, or of a BROADCAST (Table Module-6). -/
structure Job where
  head   : Nat
  seg    : Nat
  step   : Nat
  cue    : Nat
  bcast  : Bool
  /-- The cue is a PROJECT's restored band. -/
  band   : Bool := false
  /-- The update has written W to working space; its state writes are done (R149). -/
  wReady : Bool := false
  writesDone : Bool := false
  w      : List (BitVec 32) := []
  state  : List W64 := []
  cast   : Bool := false
  codes  : List (BitVec 32) := []
  dscale : List Byte := []
  nscale : List Byte := []
  /-- Multicast entered the switch core, and its buffers; an understudy's compare entry made. -/
  sent   : Bool := false
  bufs   : List Nat := []
  digest : Bool := false
  released : Bool := false
  /-- Issue number of its state writes (R134), and the grant under which an update was issued (R382). -/
  issue  : Nat := 0
  grant  : Nat := 0
  deriving DecidableEq, Repr

/-- Harness registers, descriptors and intake (R64 to R94). -/
structure Harness where
  heads   : List Head := []
  slots   : List Slot := []
  jobs    : List Job := []
  sticky  : BitVec 10 := 0
  spills  : Nat := 0
  reloads : Nat := 0
  members : Vector MbrCount 65 := Vector.replicate 65 ({} : MbrCount)
  intake  : List Waiting := []
  /-- (STEP, BASE) last advertised by the module on a port for a HID. -/
  peers   : List (BitVec 16 × Port × BitVec 32 × Nat) := []
  deriving DecidableEq, Repr

/-- A compare buffer entry (R152): own cast, or a multicast that came first. -/
structure Compare where
  hid   : BitVec 16
  step  : BitVec 32
  seg   : Nat
  own   : Bool
  bytes : List Byte
  deriving DecidableEq, Repr

/-- Seeding out (R154, R155). -/
structure SeedOut where
  hid      : BitVec 16
  headerSent : Bool := false
  headerOk : Bool := false
  nextSeg  : Nat := 0
  unacked  : List Nat := []
  /-- The header, under SEG 0xFFFFFF, and the copies that are not acknowledged, as sent (R154). -/
  kept     : List (Nat × Packet) := []
  done     : Nat := 0
  /-- When a refused header may be sent again. -/
  retryAt  : Option Nat := none
  deriving DecidableEq, Repr

/-- Seeding in (R154). -/
structure SeedIn where
  hid   : BitVec 16
  /-- Segments whose seed bit is 1. -/
  map   : List Nat := []
  /-- Last step for which AGE, P1 and P2 were advanced. -/
  stepDone : Option Nat := none
  deriving DecidableEq, Repr

/-- Groom engine, shards and Carriage (R130 to R157). Shard records are in the data space. -/
structure Groom where
  sticky   : BitVec 11 := 0
  segCount : W64 := 0
  mismatch : W64 := 0
  /-- (HID, step) that have made their first Groom issue, or taken their first forward while seeding (R145). -/
  advanced : List (BitVec 16 × Nat) := []
  compare  : List Compare := []
  /-- Shard record indexes whose zero fill runs, each with its issue number (R134, R137). -/
  fills    : List (Nat × Nat) := []
  seedQueue : List SeedOut := []
  seedIn   : Option SeedIn := none
  /-- The model's own: what accesses of copies not yet sent will report (log 98). -/
  seedErrs : List AccErr := []
  deriving DecidableEq, Repr

/-- Stages of one band (Table Projection-3): the stage that runs or may start next. -/
inductive BandSt where
  | form | project | send | local | residual | globalRestore | out | done
  deriving DecidableEq, Repr

/-- One band of a PROJECT instance (R165 to R171). RANK 0b00 uses one segment as a band. -/
structure Band where
  head   : Nat
  cue    : Nat
  step   : Nat
  band   : Nat
  st     : BandSt := .form
  /-- Segments formed: G', and the scale in force and BLKOVF of the slot; segments staged. -/
  formed : List (Nat × List (BitVec 48)) := []
  info   : List (Nat × BitVec 24 × BitVec 4) := []
  staged : List Nat := []
  /-- C with its scale bytes by block of the head; e1 by segment. -/
  cCodes : List (Nat × List (BitVec 32) × Byte) := []
  e1     : List (Nat × List (BitVec 16)) := []
  /-- P by row; the cast P by block of the upper head. -/
  p      : List (Nat × List (BitVec 48)) := []
  pCast  : List (Nat × List (BitVec 32) × Byte) := []
  /-- L and Ĝ by segment. -/
  l      : List (Nat × List (BitVec 48)) := []
  ghat   : List (Nat × List (BitVec 48)) := []
  /-- Tiles of the stage issued and done. -/
  issued : List Nat := []
  passed : List Nat := []
  deriving DecidableEq, Repr

/-- A pass running on an array, the grant it runs under, and its result bits as they will be written. -/
structure Pass where
  array : Fin 4
  head  : Nat
  step  : Nat
  band  : Nat
  tile  : Nat
  grant : Nat
  /-- 64-bit words of operand A that failed their SD272 check (R160). -/
  bad   : List Nat := []
  deriving DecidableEq, Repr

/-- A segment of S: the upper head's multicast as it arrived (R165, R171). -/
structure UpperSeg where
  head   : Nat
  step   : BitVec 32
  seg    : Nat
  fmt    : BitVec 4
  codes  : List (BitVec 32)
  scales : List Byte
  deriving DecidableEq, Repr

/-- The projection path (R158 to R176). -/
structure Projection where
  sticky  : BitVec 8 := 0
  passes  : W64 := 0
  resUsed : Nat := 0
  bands   : List Band := []
  running : List Pass := []
  upper   : List UpperSeg := []
  /-- Cycle at which each array last started a pass, with its K (R161). -/
  started : List (Fin 4 × Nat × Nat) := []
  deriving DecidableEq, Repr

end Sys2Proof.Machine
end

