-- ==== Sys2Proof/Machine/HostState.lean ====
section
/-! DEFINITION. State of the host ports, sessions and mailboxes (13_host_and_prompt_protocol.md), of the Prompter, its
fuses and flash (14_prompter_boot_identity.md). -/

namespace Sys2Proof

namespace Machine

/-- Memory: cells in canonical form (Host.Cell). -/
abbrev Mem := List Host.Cell

/-- One Ethernet port (R320 to R324). -/
structure EthPort where
  up        : Bool := false
  upAt      : Nat := 0
  lease     : Option (BitVec 32) := none
  linkLocal4 : Option (BitVec 32) := none
  addrs6    : List (BitVec 128) := []
  tentative : List (BitVec 128) := []
  /-- When the last LLDPDU was sent since link-up. -/
  lldpAt    : Option Nat := none
  /-- Chassis ID and port ID of the last LLDPDU: subtype and value. -/
  chassis   : Option (Byte × List Byte) := none
  portId    : Option (Byte × List Byte) := none
  /-- The PTP master heard, and when it last announced itself. -/
  master    : Option PtpMaster := none
  masterAt  : Nat := 0
  deriving DecidableEq, Repr

/-- The PTP service (R323). Times in ns. -/
structure Ptp where
  synced    : Bool := false
  port      : Option (Fin 2) := none
  /-- PTP time minus module time. -/
  adjust    : Int := 0
  pathDelay : Int := 0
  inBounds  : Nat := 0
  lastSync  : Nat := 0
  interval  : Nat := 2000000000
  /-- Two-step Sync waiting for its Follow_Up: sequence number and receive time. -/
  twoStep   : Option (BitVec 16 × Int) := none
  /-- Receive and origin time of the last Sync, for the path delay. -/
  t1        : Int := 0
  t2        : Int := 0
  /-- The last Delay_Req: sequence number, and when it was sent, while its response is awaited. -/
  reqSeq    : BitVec 16 := 0
  reqAt     : Option Nat := none
  deriving DecidableEq, Repr

/-- The selector registers of one requester (R448). -/
structure Selectors where
  harnMbr  : W64 := 0
  harnDesc : W64 := 0
  cue      : W64 := 0
  call     : W64 := 0
  outr     : W64 := 0
  lane     : W64 := 0
  link     : W64 := 0
  swcRt    : W64 := 0
  sched    : W64 := 0
  flt      : W64 := 0
  deriving DecidableEq, Repr

/-- A queued event of a session (R350, R351). -/
structure Event where
  eseq    : BitVec 32
  payload : List Byte
  sentAt  : Nat
  deriving DecidableEq, Repr

/-- A session (R328 to R334). -/
structure Session where
  id       : BitVec 32
  peer     : Peer
  port     : Fin 2
  vlan     : Option (BitVec 16)
  ready    : Bool
  opid     : BitVec 16
  priv     : Nat
  mbxFirst : Nat
  mbxCount : Nat
  maxdg    : Nat
  keepMs   : Nat
  evmask   : BitVec 32
  openPay  : List Byte
  openRPay : List Byte
  lastAt   : Nat
  openedAt : Nat
  events   : List Event := []
  eseq     : BitVec 32 := 0
  lostNext : BitVec 16 := 0
  sel      : Selectors := {}
  deriving DecidableEq, Repr

/-- Mailbox states (R335). -/
inductive MbxSt where
  | empty | busy | done
  deriving DecidableEq, Repr

/-- A mailbox (R335 to R337). -/
structure Mailbox where
  owner   : Option (BitVec 32) := none
  st      : MbxSt := .empty
  cseq    : BitVec 32 := 0
  payload : List Byte := []
  status  : BitVec 16 := 0
  result  : List Byte := []
  read    : Bool := false
  deriving DecidableEq, Repr

/-- An accepted command that has not ended (R336, R339). `out` is its status and result once known. -/
structure Cmd where
  id      : Nat
  session : BitVec 32
  mbx     : Fin 64
  seq     : BitVec 32
  code    : BitVec 16
  args    : List Byte
  priv    : Nat
  /-- The command has acted; its result may still have to wait (R342). -/
  acted   : Bool := false
  /-- Port and Prompter cycle of the POST (R339). -/
  port    : Fin 2 := 0
  cycle   : Nat := 0
  out     : Option (BitVec 16 × List Byte) := none
  deriving DecidableEq, Repr

/-- Host ports and the Prompt protocol (R320 to R352). -/
structure HostUnit where
  eth      : Vector EthPort 2 := Vector.replicate 2 ({} : EthPort)
  ptp      : Ptp := {}
  sessions : List Session := []
  mboxes   : Vector Mailbox 64 := Vector.replicate 64 ({} : Mailbox)
  cmds     : List Cmd := []
  nextCmd  : Nat := 0
  /-- INSTALL sessions that have posted their ENROLL (R332). -/
  installed : List (BitVec 32) := []
  /-- Datagrams waiting for the Prompter (Table Host-4, test 6), each with what the accesses of a bulk read report (log 98). -/
  waiting  : List (Dgram × List AccErr) := []
  authFails : List Nat := []
  lockUntil : Option Nat := none
  sticky   : BitVec 7 := 0
  dropped  : Nat := 0
  authFail : Nat := 0
  overrun  : Nat := 0
  evLost   : Nat := 0
  key      : List Byte := []
  deriving DecidableEq, Repr

/-- Core die fuses (Table Prompter-2), and the identity words the lane tiles fuse (R355). -/
structure Fuses where
  idseed   : BitVec 256 := 0
  serial   : BitVec 48 := 0
  build    : Bool := false
  mac0     : BitVec 48 := 0
  dieId    : W64 := 0
  tileIds  : Vector W64 8 := Vector.replicate 8 0
  fwKey    : Vector (BitVec 512) 4 := Vector.replicate 4 0
  fwRevoke : BitVec 4 := 0
  endKey   : Vector (BitVec 512) 2 := Vector.replicate 2 0
  minSvn   : Fin 65 := 0
  romDigest : BitVec 512 := 0
  deriving DecidableEq, Repr

/-- SPI flash (Table Prompter-5): each field holds the bytes programmed from its first byte on; the rest is erased. -/
structure Flash where
  ctl0    : List Byte := []
  ctl1    : List Byte := []
  endorse : List Byte := []
  opt0    : List Byte := []
  opt1    : List Byte := []
  slot0   : List Byte := []
  slot1   : List Byte := []
  deriving DecidableEq, Repr

/-- An operator table entry (R331, R362). -/
structure Operator where
  opid : BitVec 16
  priv : Nat
  key  : List Byte
  deriving DecidableEq, Repr

/-- Modes of the Prompter's core (R353). -/
inductive PrmMode where
  | machine | user
  deriving DecidableEq, Repr

/-- The Prompter (R353 to R375). The mode, the program counter and the 16 PMP entries, configuration and address, are the core's; what
its instructions do is firmware and no command of the table (PRESUMED, log 86). -/
structure Prompter where
  mode     : PrmMode := .machine
  pc       : W64 := 0
  pmp      : Vector (Byte × W64) 16 := Vector.replicate 16 (0, 0)
  /-- Integer registers x1 to x31, and the control and status registers that are not at their reset value. -/
  xregs    : Vector W64 31 := Vector.replicate 31 0
  csrs     : List (BitVec 12 × W64) := []
  /-- Out of reset and running an image, or halted in the ROM (R368). -/
  running  : Bool := false
  halted   : Bool := false
  fuseGate : Bool := false
  slot     : Nat := 0
  trial    : Bool := false
  alt      : Bool := false
  fast     : Bool := false
  svn      : Nat := 0
  fwver    : BitVec 32 := 0
  keyIdx   : Nat := 0
  digest   : List Byte := []
  imem     : List Byte := []
  dmem     : List Byte := []
  /-- Private identity key; empty while KEYMEM is zero. -/
  keymem   : List Byte := []
  pubkey   : List Byte := []
  /-- The operator table in use, and the copy that is still to be erased with the time of the write. -/
  operators : List Operator := []
  /-- Lane tiles that answered the ROM at the last boot (R355). -/
  tiles    : BitVec 8 := 0
  eraseDue : Option (Fin 2 × Nat) := none
  retained : Mem := []
  sel      : Selectors := {}
  /-- The Prompter's reset has been released by the reset controller (the stage door may still hold it). -/
  released : Bool := false
  deriving DecidableEq, Repr

end Machine
end Sys2Proof
end

