-- ==== Sys2Proof/Machine/LaneState.lean ====
section
/-! DEFINITION. State of the 512 lanes and the lane side of the 64 ports (09_lanes.md). -/

namespace Sys2Proof.Machine

/-- Receive lane lock states, Table Lanes-3; the code of LANE_STATUS.LOCK is the place in this list. -/
inductive Lock where
  | off | hunt | locked | marked | idle
  deriving DecidableEq, Repr

/-- A 64-byte cell as the lane layer delivers it; none is LOST (R228). -/
abbrev RxCell := Option (List Byte)

/-- One physical lane: its receiver's lock, health and counters, and its equalisation entry (R225 to R231, R238). -/
structure Lane where
  lock      : Lock := .off
  good      : Bool := false
  bad       : Bool := false
  llane     : BitVec 3 := 0
  /-- An info word has been read, so LLANE is known. -/
  known     : Bool := false
  skew      : Nat := 0
  goodSf    : Nat := 0
  uncorr    : Nat := 0
  corr      : Nat := 0
  pattern   : Nat := 0
  sticky    : BitVec 6 := 0
  entry     : BitVec 27 := 0
  /-- Consecutive superframes with M0 or M1 more than 8 bits from its pattern. -/
  badMarks  : Nat := 0
  /-- Uncorrectable codewords, and superframes, in the running window of 1,024 (R231). -/
  winUncorr : Nat := 0
  winPos    : Nat := 0
  /-- UNCORR_LIMIT in force for the running window. -/
  winLimit  : Nat := 4
  /-- IDLE_NEXT was announced in the superframe just received. -/
  idleNext  : Bool := false
  /-- When wake energy was detected (R236, R237). -/
  energyAt  : Option Nat := none
  /-- The lane timed out in its wake and is still awaited (R237). -/
  late      : Bool := false
  /-- The candidate offset of the hunt (Table Lanes-3). -/
  hunt      : Fin 65 := 0
  /-- SFC of the last superframe received. -/
  sfc       : BitVec 16 := 0
  /-- PRBS31 generators of the transmitter and the receiver (R220, R226). -/
  prbsTx    : BitVec 31 := 0
  prbsRx    : Option (BitVec 31) := none
  deriving DecidableEq, Repr

/-- The part of an info word that the transmitter fixes 32 ticks ahead (R223, Table Lanes-2). -/
structure InfoFix where
  rxGood   : Byte
  active   : Byte
  idleNext : Bool
  sfc      : BitVec 16
  /-- When it was fixed. -/
  setAt    : Nat
  deriving DecidableEq, Repr

/-- One superframe of a port as its lanes deliver it: SFC, the arrival tick of the earliest M0, ACTIVE from an active lane whose info
word passed, and the data cells of each lane under its logical lane (R224, R227). -/
structure RxSf where
  sfc    : BitVec 16
  first  : W64
  active : Option Byte := none
  /-- Its cells have been delivered. -/
  done   : Bool := false
  lanes  : List (LaneId × BitVec 3 × List RxCell) := []
  deriving DecidableEq, Repr

/-- The lane side of one port: gaits, superframe counts and idle (R232 to R238, R260). -/
structure LanePort where
  ctrl     : W64 := 0x41
  txActive : Byte := 0
  rxActive : Byte := 0
  peerGood : Byte := 0
  /-- RX_GOOD of the last superframe sent. -/
  goodSent : Byte := 0
  txIdle   : Bool := false
  rxIdle   : Bool := false
  /-- The lanes of the port have been started (R234, R437). -/
  started  : Bool := false
  /-- SFC of the next superframe this end starts. -/
  sfc      : BitVec 16 := 0
  /-- The info word fixed for the next superframe. -/
  fixed    : Option InfoFix := none
  /-- When PEER_GOOD was read. -/
  peerAt   : Nat := 0
  /-- When the last superframe started, and its SFC and stage tick (R260). -/
  startAt  : Option Nat := none
  startSfc : BitVec 16 := 0
  startStg : W64 := 0
  /-- The superframe now being sent carries IDLE_NEXT. -/
  idleSent : Bool := false
  idleReq  : Bool := false
  /-- An exit was asked for before the drop to idle (R237). -/
  exitReq  : Bool := false
  /-- Earliest time of boundary B of a running idle exit (R236). -/
  exiting  : Option Nat := none
  /-- The last 64 superframes received: SFC and arrival tick, newest first (R260). -/
  rxLog    : List (BitVec 16 × W64) := []
  /-- Cells given by the link layer and not yet in a superframe, in port order (R228). -/
  txCells  : List (List Byte) := []
  /-- The newest superframes, oldest first, delivered or not (R227). -/
  rxSf     : List RxSf := []
  /-- Cells delivered to the link layer and not yet taken by it, in port order (R228). -/
  rxCells  : List RxCell := []
  deriving DecidableEq, Repr

/-- The lane layer. -/
structure LaneUnit where
  lanes     : Vector Lane 512 := Vector.replicate 512 ({} : Lane)
  ports     : Vector LanePort 64 := Vector.replicate 64 ({} : LanePort)
  /-- LANE_EQ_STATUS (Table Lanes-15). -/
  loaded    : Bool := false
  useDefault : Bool := false
  entryBad  : Bool := false
  board     : W64 := 0
  deriving DecidableEq, Repr

end Sys2Proof.Machine
end

