-- ==== Sys2Proof/Machine/LeaveState.lean ====
section
/-! DEFINITION. State of the riding master, the box office receiver and the box office die (15_leave_and_box_office.md). -/

namespace Sys2Proof.Machine

/-- What a grant is doing (R380, R382, R383). -/
inductive GrantSt where
  | running | deferred | suspended | tail
  deriving DecidableEq, Repr

/-- An ordinary grant (`window` none) or a pre-grant window of an open step (`window` its table index). -/
structure Grant where
  id      : Nat
  window  : Option Nat
  step    : Nat
  cue     : Nat
  lclass  : BitVec 4
  watts   : Nat
  ramp    : Nat
  st      : GrantSt := .running
  /-- Whole µs of its ramp done, and the time of the last one (R379). -/
  rampUs  : Nat := 0
  rampAt  : Nat := 0
  grantedAt : Nat := 0
  /-- Stage tick at which a window started and ends. -/
  startTick : Nat := 0
  endTick : Nat := 0
  inFlight : Nat := 0
  /-- When its last issue started, and when one last ended. -/
  lastIssue : Option Nat := none
  lastEnd  : Nat := 0
  deriving DecidableEq, Repr

/-- A request for ordinary leave (R380). -/
structure LeaveReq where
  step   : Nat
  cue    : Nat
  lclass : BitVec 4
  /-- Time of arrival. -/
  at'    : Nat := 0
  deriving DecidableEq, Repr

/-- The riding master (R376 to R387, R401). -/
structure Riding where
  ctrl     : W64 := 0x0000_0230_0000_0400
  released : Bool := false
  /-- BOARD_CAP and DIDT of the last reading; none before the first. -/
  board    : Option (Nat × Nat) := none
  /-- Release, or last reading (R385). -/
  lastAt   : Nat := 0
  grants   : List Grant := []
  nextId   : Nat := 0
  requests : List LeaveReq := []
  level    : Nat := 0
  pest     : BitVec 16 := 0
  lowUs    : Nat := 0
  throttleAt : Nat := 0
  sticky   : BitVec 6 := 0
  lost     : Bool := false
  deriving DecidableEq, Repr

/-- The box office receiver of the core die (R396, R402). Records are newest first. -/
structure BoxRx where
  readings : List (List Byte) := []
  ckpts    : List (List Byte) := []
  ident    : List Byte := []
  logs     : List (List Byte) := []
  valid    : Bool := false
  /-- The last valid reading. -/
  last     : List Byte := []
  sticky   : BitVec 5 := 0
  deriving DecidableEq, Repr

/-- The calibration record of the LCM build: gain and offset of channels 0 to 7 and, last, of the 50 MHz oscillator, the reference
instrument and the date, signed by the metrology key that it carries (R391) (DESIGN CHOICE, log 113). -/
structure CalRecord where
  gain       : Vector (BitVec 32) 9
  offset     : Vector (BitVec 32) 9
  instrument : List Byte
  date       : List Byte
  key        : List Byte
  sig        : List Byte
  deriving DecidableEq, Repr

/-- The box office die (R388 to R399). -/
structure BoxDie where
  powered  : Bool := false
  boot     : BitVec 32 := 0
  seq      : W64 := 0
  chain    : List Byte := []
  slow     : W64 := 0
  energy   : Vector W64 8 := Vector.replicate 8 0
  cap      : Nat := 600
  didt     : Nat := 25
  capNext  : Option (Nat × Nat) := none
  sealOpen : Bool := true
  sealCnt  : BitVec 32 := 0
  /-- This interval: the seal was open at some point, it changed, 12 V main was absent. -/
  unsealed : Bool := true
  sealEvent : Bool := false
  mainOff  : Bool := true
  /-- 12 V main is absent now. -/
  mainLow  : Bool := true
  /-- Fused or factory-written: LCM build, identity word, key seed, metrology key digest, calibration record. -/
  lcm      : Bool := false
  ident    : W64 := 0
  seed     : BitVec 256 := 0
  metroKey : BitVec 512 := 0
  cal      : Option CalRecord := none
  fwver    : BitVec 32 := 0
  minSvn   : Byte := 0
  /-- FW_WRITE data by offset, and an image to switch to at the next interval boundary. -/
  staged   : Option (List (Nat × Byte)) := none
  switchTo : Option (BitVec 32) := none
  last     : List Byte := []
  ckpt     : List Byte := []
  idBlock  : List Byte := []
  /-- A checkpoint is due for the reading with this SEQ and CHAIN. -/
  ckptDue  : Option (W64 × List Byte) := none
  /-- Log records, newest first, and the causes of records due but for the hourly one. -/
  logs     : List (List Byte) := []
  logDue   : List LogCause := []
  hourSlow : W64 := 0
  hourSeq  : W64 := 0
  /-- Energy of the minutes of this hour, oldest first, and SLOW and the energy counters at the last minute's end (R395). -/
  minutes  : List (List W64) := []
  minuteSlow : W64 := 0
  minuteEnergy : Vector W64 8 := Vector.replicate 8 0
  /-- Stored: energy and CHAIN of the last checkpoint, and the SEQ ceiling (R394). -/
  stored   : Option (Vector W64 8 × List Byte × W64) := none
  lastOk   : Bool := false
  closeAt  : Nat := 0
  deriving DecidableEq, Repr

end Sys2Proof.Machine
end

