-- ==== Sys2Proof/Machine/RegState.lean ====
section
/-! DEFINITION. The registers of the module, block by block in the order of their maps (18_registers.md R442). -/

namespace Sys2Proof.Machine

/-- A register of Table Registers-2's blocks and of Table Registers-4. -/
inductive Reg where
  | mbxStatus | mbxSticky | mbxDropCount | stgNow | stgCtrl | stgEpoch | stgStatus | stgWall | stgSticky
  | cueLoad | cueRun | cueStep | cueSticky | cueSel | cueStatus | cueTiming | cueMlate | harnStatus | harnSticky
  | harnSpillCount | harnMbrSel | harnMbrCnt | harnDescSel | harnDescData | wdrSticky | wdrOvfCount
  | wdrVoidCount | wdrElemCount | grmStatus | grmSticky | grmSegCount | grmSeedIn | grmSeedOut | grmMismatch
  | prjStatus | prjSticky | prjPassCount | prjResUsed | callStatus | callSticky | callSel | callResult
  | outrCtrl | outrSticky | outrSamples | outrEvents | outrMiss | outrSel | outrHead | digCtrl | digStatus
  | digSticky | digAudit | laneSel | laneStatus | laneEq | laneErrCount | laneSticky | lanePortCtrl
  | lanePortStatus | laneEqStatus | linkSel | linkCtrl | linkStatus | linkPeer | linkPeerPos | linkErrCount
  | linkSticky | swcCtrl | swcStatus | swcSticky | swcDropCount | swcCreditLo | swcCreditHi | swcRtSel
  | swcRtStatic | swcRtSpray | swcAdapt | swcMirror | swcMirrorFlow | schedSel | schedQuantum | schedShaper
  | schedPolicer | schedQnow | schedQstat | schedSample | leaveCtrl | leaveStatus | leaveSticky | boxStatus
  | boxSeq | boxSticky | fltCtrl | fltStatus | fltSel | fltSrcCtrl | fltSrcStatus | fltFirst | fltBeat
  | fltSdoor | fltFence | fltQueue | rstCtrl | rstStatus | rstCause | rstSticky | rstBlock | mbxViol
  | rstBackup (n : Fin 16)
  deriving DecidableEq, Repr

end Sys2Proof.Machine
end

