-- ==== Sys2Proof/Machine/SwitchState.lean ====
section
/-! DEFINITION. State of the switch core, its buffer, its routing and its schedulers (11_switch_core_and_traffic.md). -/

namespace Sys2Proof.Machine

/-- A switch port, 0 to 127: fabric ports 0 to 63, local ports 64 to 127 (R264). -/
abbrev SwPort := Fin 128

/-- The admission shares of the packet buffer (R270, Table Switch-4). -/
inductive Share where
  | lossless | localShare | lossy
  deriving DecidableEq, Repr

/-- One stored frame: its cells, its admission share, the copies that have not started, the copies started and not yet
acknowledged, and the fabric port and lane whose credit it holds (R270, R271). -/
structure Buf where
  id      : Nat
  cells   : Nat
  share   : Share
  waiting : Nat
  unacked : Nat
  holds   : Option (Port × Class)
  deriving DecidableEq, Repr

/-- A frame inside the core, on its way from an input to an output (R267, R268). -/
structure Transit where
  packet : Packet
  buf    : Nat
  input  : SwPort
  output : SwPort
  /-- Fabric port the frame arrived on; none for a frame a local port originates. -/
  arrival : Option Port
  deriving DecidableEq, Repr

/-- A whole frame in a class queue of an output, with its enqueue stamp (R269). -/
structure Queued where
  packet : Packet
  buf    : Nat
  input  : SwPort
  output : SwPort
  arrival : Option Port
  stamp  : W64
  deriving DecidableEq, Repr

/-- A lossless frame held because no port of its SPRAY mask is OPEN (R281). -/
structure HeldFrame where
  packet : Packet
  buf    : Nat
  input  : SwPort
  arrival : Option Port
  deriving DecidableEq, Repr

/-- A frame handed to a unit of the core die by local port 64 + p, and not yet taken (R264). -/
structure Handed where
  port   : Port
  packet : Packet
  buf    : Nat
  deriving DecidableEq, Repr

/-- A frame a unit originates that waits for room in the local share (R271). -/
structure LocalWait where
  packet : Packet
  input  : SwPort
  ports  : List Port
  /-- A further copy, routed: its DEST, and the port the unit names for its first hop. -/
  toward : Option (BitVec 16 × Port) := none
  deriving DecidableEq, Repr

/-- One route entry (R276), with the port last chosen by spraying (R278). -/
structure RouteEntry where
  valid  : Bool := false
  static : BitVec 6 := 0
  spray  : W64 := 0
  last   : BitVec 6 := 0
  deriving DecidableEq, Repr

/-- A reorder context (R283): held frames with the time each began to wait. -/
structure Reorder where
  port   : Port
  hid    : BitVec 16
  step   : BitVec 32
  next   : Nat
  held   : List (Nat × Nat × Queued)
  lastAt : Nat
  deriving DecidableEq, Repr

/-- A token bucket: shaper or policer (R290 to R292). Tokens are in units of 0.001 byte, current at time `stamp`. -/
structure Bucket where
  rate   : BitVec 18 := 0
  burst  : BitVec 16 := 0
  init   : BitVec 16 := 0
  tokens : Int := 0
  stamp  : Nat := 0
  deriving DecidableEq, Repr

/-- Deficit round robin of one switch port (R289). Index k is TCk. -/
structure Drr where
  deficit : Vector Nat 5 := Vector.replicate 5 0
  /-- The class being visited. -/
  visit   : Fin 5 := 4
  /-- The visit has added its QUANTUM. -/
  added   : Bool := false
  /-- The class's head frame was not allowed to start when last visited. -/
  blocked : Vector Bool 5 := Vector.replicate 5 false
  quantum : Vector Byte 5 := #v[8, 16, 64, 64, 16]
  deriving DecidableEq, Repr

/-- The last sample and the maxima of one egress queue (R293). -/
structure QSample where
  depth    : Nat := 0
  delay    : Nat := 0
  maxDepth : Nat := 0
  maxDelay : Nat := 0
  deriving DecidableEq, Repr

/-- The switch core (R264 to R287, R294, R295). -/
structure SwitchCore where
  ctrl       : W64 := 0x03E8_1000_0200_0003
  /-- LOCAL_RES in force (R270). -/
  localRes   : Nat := 131072
  creditLo   : W64 := 0x0C00_0800_0400_0400
  creditHi   : W64 := 0x0080_0080_0080_0400
  sticky     : BitVec 12 := 0
  pushout    : Nat := 0
  taildrop   : Nat := 0
  aged       : Nat := 0
  policed    : Nat := 0
  mirror     : W64 := 0
  mirrorFlow : W64 := 0
  routes     : Vector RouteEntry 512 := Vector.replicate 512 ({} : RouteEntry)
  penalty    : Vector (BitVec 16) 64 := Vector.replicate 64 0
  history    : Vector (BitVec 21) 64 := Vector.replicate 64 0
  bufs       : List Buf := []
  nextBuf    : Nat := 0
  transit    : List Transit := []
  queued     : List Queued := []
  held       : List HeldFrame := []
  handed     : List Handed := []
  localWait  : List LocalWait := []
  reorder    : List Reorder := []
  /-- When the histories were last updated (R279). -/
  histAt     : Nat := 0
  deriving DecidableEq, Repr

/-- The schedulers and the queue sampler (R288 to R293, R296). -/
structure Sched where
  drr      : Vector Drr 128 := Vector.replicate 128 ({} : Drr)
  shaper   : Vector (Vector Bucket 8) 64 := Vector.replicate 64 (Vector.replicate 8 ({} : Bucket))
  policer  : Vector (Vector Bucket 2) 64 := Vector.replicate 64 (Vector.replicate 2 ({} : Bucket))
  samples  : Vector (Vector QSample 8) 128 := Vector.replicate 128 (Vector.replicate 8 ({} : QSample))
  count    : BitVec 32 := 0
  interval : Byte := 16
  /-- INTERVAL written and not yet in effect (R296). -/
  intervalNext : Byte := 16
  lastSample : Option W64 := none
  deriving DecidableEq, Repr

end Sys2Proof.Machine
end

