-- ==== Sys2Proof/Machine/State.lean ====
section
/-! DEFINITION. The state of the block, its reset, and the reasons a step can stop. -/

namespace Sys2Proof.Machine

/-- Why a step faults. -/
inductive Fault where
  /-- PATROL_SCRUB names an access past the end of the LPDDR6 data space, which does not exist (R130). Safe: no such access
  can be made. -/
  | outsideDataSpace
  deriving DecidableEq, Repr

/-- Why a step is refused. -/
inductive Refusal where
  /-- An arm of `exec` with no meaning yet. Safe: nothing follows about the command. No arm of this model uses it. -/
  | notModelled (mnemonic : String)
  deriving DecidableEq, Repr

/-- What the module sends or drives; `State.out` keeps all of it, newest first (DESIGN CHOICE, log 3). -/
inductive Out where
  /-- A control cell or a whole data frame that the link layer gives the lanes of a fabric port. -/
  | cells (p : Port) (bytes : List Byte)
  /-- A superframe that starts: ACTIVE, RX_GOOD, IDLE_NEXT and SFC of its info word, and the symbols of each lane that is driven (R217). -/
  | superframe (p : Port) (active rxGood : Byte) (idleNext : Bool) (sfc : BitVec 16) (lines : List (LaneId × List Level))
  /-- An idle exit: when the wake burst starts and when the train blocks start, with the symbols of each by lane (R236). -/
  | wake (p : Port) (burstAt trainAt : Nat) (lines : List (LaneId × List Level × List Level))
  /-- A Prompt datagram: host port, destination, tag, UDP payload. -/
  | datagram (hp : Fin 2) (peer : Peer) (vlan : Option (BitVec 16)) (bytes : List Byte)
  /-- An ARP reply, ICMP echo reply, neighbour advertisement, DHCP or LLDP frame: host port, EtherType or IP protocol, body. -/
  | ether (hp : Fin 2) (proto : Nat) (bytes : List Byte)
  /-- The value a register read returns. -/
  | regValue (who : Requester) (v : W64)
  /-- An edge of ALIVE. -/
  | alive (level : Bool)
  /-- Interrupt and trap to the Prompter (Table Faults-3). -/
  | interrupt (src : SrcId)
  | nmi (src : SrcId)
  /-- The SPI flash lines, the lines of the equalisation EEPROM, and the rails made from 12 V main: driven or not (R368, R435, R457). -/
  | spi (driven : Bool)
  | eeprom (driven : Bool)
  | rails (on : Bool)
  /-- A record on the serial path from the box office die, and an answer on its SPI port. -/
  | boxPath (bytes : List Byte)
  | boxPort (bytes : List Byte)
  deriving DecidableEq, Repr

/-- The whole block. -/
structure State where
  /-- Commands waiting, first in first out. -/
  pending : List Instr := []
  /-- The model's clock, in units of 0.5 ns since power-on (DESIGN CHOICE, log 2). -/
  time    : Nat := 0
  /-- Free values drawn so far (DESIGN CHOICE, log 4). -/
  draws   : Nat := 0
  /-- Requests that units have issued to the Carriage so far (R134) (DESIGN CHOICE, log 72). -/
  issued  : Nat := 0
  /-- Sticky and clearing registers at the start of this arena cycle, by register and selected instance; those that were not 0
  (R14) (DESIGN CHOICE, log 14). -/
  cyc     : List (Reg × Nat × W64) := []
  /-- Writes made in this arena cycle to registers whose fields hardware also updates, by register and selected instance (R14, R451). -/
  written : List (Reg × Nat × W64) := []
  out     : List Out := []
  /-- The LPDDR6 data space and the 32 MiB of working space: listed bytes are the non-zero ones. -/
  dram    : Mem := []
  ws      : Mem := []
  stg     : StageClock := {}
  cue     : CueUnit := {}
  callb   : Callboard := {}
  harn    : Harness := {}
  wdr     : Wardrobe := {}
  grm     : Groom := {}
  prj     : Projection := {}
  outr    : Outrider := {}
  dig     : Digest := {}
  lane    : LaneUnit := {}
  link    : Vector LinkPort 64 := Vector.replicate 64 ({} : LinkPort)
  swc     : SwitchCore := {}
  sched   : Sched := {}
  topo    : Topology := {}
  host    : HostUnit := {}
  fuses   : Fuses := {}
  flash   : Flash := {}
  prm     : Prompter := {}
  rid     : Riding := {}
  boxRx   : BoxRx := {}
  boxDie  : BoxDie := {}
  flt     : FaultUnit := {}
  door    : StageDoor := {}
  rst     : ResetCtl := {}
  deriving DecidableEq, Repr

/-- The module under POWER reset, before any bring-up step (R424, R437): every register at the reset value of its map, the
clock FREE at 0, no sheet, plan, session or grant, memory zero. Fuses, flash and the box office die, which no reset
reaches, hold the model's own values (DESIGN CHOICE, logs 8, 9). -/
def State.reset : State := {}

end Sys2Proof.Machine
end

