-- ==== Sys2Proof/Machine/Operands.lean ====
section
/-! DEFINITION. Operand forms: the fields of packets, frames and control cells (10_izano_link.md), and how they are
built. Offsets of packet fields are from the packet's first byte, frame offset 0x10. -/

namespace Sys2Proof.Machine

/-! ### Packet kinds and classes (Table Link-7, Table Switch-2) -/

def kContrib : Byte := 0x01
def kPartial : Byte := 0x02
def kMcast : Byte := 0x03
def kWindow : Byte := 0x04
def kCall : Byte := 0x05
def kTime : Byte := 0x06
def kNotice : Byte := 0x07
def kSeedHdr : Byte := 0x08
def kSeedCopy : Byte := 0x09
def kSeedAck : Byte := 0x0A
def kUser : Byte := 0x10

/-- Is a kind listed in Table Link-7? -/
def kindKnown (k : Byte) : Bool := (decide (1 ≤ k.toNat) && decide (k.toNat ≤ 10)) || k == kUser

/-- The class of a kind other than USER (Table Switch-2). -/
def kindClass (k : Byte) : Class :=
  if k = kContrib then 2
  else if k = kPartial ∨ k = kMcast then 3
  else if k = kSeedCopy ∨ k = kSeedHdr ∨ k = kSeedAck then 4
  else if k = kWindow then 5
  else if k = kCall then 6
  else 7

/-- Does a frame's class suit its kind (R266)? -/
def classOk (pk : Packet) : Bool := if pk.kind = kUser then decide (pk.vl.val < 2) else pk.vl == kindClass pk.kind

/-- Is a class lossy (R265)? -/
def lossy (c : Class) : Bool := decide (c.val < 2)

/-- Is a kind sprayed in liberty mode (Table Switch-2)? -/
def sprayedKind (k : Byte) : Bool := k == kContrib || k == kPartial || k == kMcast || k == kSeedCopy || k == kCall

/-- Does a kind have a HID at offset 0x10 of the frame (Table Link-8)? -/
def hasHid (k : Byte) : Bool :=
  k == kContrib || k == kPartial || k == kMcast || k == kWindow || k == kSeedHdr || k == kSeedCopy || k == kSeedAck

/-! ### Packet fields (Table Link-8) -/

def pHid (pk : Packet) : BitVec 16 := BitVec.ofNat 16 (leAt pk.bytes 0 2)
def pFmt (pk : Packet) : Nat := (byteAt pk.bytes 2).toNat % 16
def pMslot (pk : Packet) : Nat := (byteAt pk.bytes 3).toNat % 128
def pStep (pk : Packet) : BitVec 32 := BitVec.ofNat 32 (leAt pk.bytes 4 4)
def pSeg (pk : Packet) : Nat := leAt pk.bytes 8 3
def pCount (pk : Packet) : Nat := (byteAt pk.bytes 11).toNat + 1

/-- Wire width of an accumulator in a PARTIAL (R259). -/
def wireBytes : Nat → Nat
  | 8 => 4 | 9 => 7 | 10 => 6 | 11 => 12 | 6 => 6
  | _ => 0

/-- PLEN that the kind, FMT and COUNT give; none where they give no length (R257, R258). -/
def wantedLength (pk : Packet) : Option Nat :=
  let k := pk.kind
  if k = kContrib then
    match fmtOf (pFmt pk) with
    | some f => if f = .z16u ∨ f = .z48 then none else some (16 + codeBytes f (pCount pk))
    | none => none
  else if k = kPartial then
    if wireBytes (pFmt pk) = 0 then none else some (48 + wireBytes (pFmt pk) * pCount pk)
  else if k = kMcast then
    match fmtOf (pFmt pk) with
    | some f => if f = .z48 then none else some (32 + codeBytes f (pCount pk))
    | none => none
  else if k = kWindow then some 16
  else if k = kCall then
    let fl := (byteAt pk.bytes 3).toNat
    if fl.testBit 5 then some 16 else some (16 + (fl % 8 + 1) * (if fl.testBit 4 then 8 else 4))
  else if k = kTime then some 32
  else if k = kNotice then some 16
  else if k = kSeedHdr then some 40
  else if k = kSeedCopy then some (16 + 8 * ((byteAt pk.bytes 7).toNat + 1))
  else if k = kSeedAck then some 16
  else none

/-- The length check of Table Link-8. -/
def lengthOk (pk : Packet) : Bool :=
  if pk.kind = kUser then decide (1 ≤ pk.bytes.length) && decide (pk.bytes.length ≤ 4076)
  else wantedLength pk == some pk.bytes.length && decide (pk.bytes.length ≤ 4076)

/-- Cells of a frame with a packet of `plen` bytes (R240). -/
def cellsOf (plen : Nat) : Nat := (20 + plen + 63) / 64

def pkCells (pk : Packet) : Nat := cellsOf pk.bytes.length

/-! ### Building packets -/

/-- A CONTRIB, PARTIAL or MCAST kind header up to COUNT (Table Link-8). -/
def segHeader (hid : BitVec 16) (fmt mslot : Nat) (step : BitVec 32) (seg count : Nat) : List Byte :=
  leBytes 2 hid.toNat ++ leBytes 1 fmt ++ leBytes 1 mslot ++ leBytes 4 step.toNat ++ leBytes 3 seg ++ leBytes 1 (count - 1)

/-- A PARTIAL: accumulators in wire width, void elements sent as zero (R259). -/
def partialPacket (hid : BitVec 16) (acc mslot : Nat) (step : BitVec 32) (seg count : Nat) (blkovf : BitVec 4)
    (void : BitVec 256) (accs : List (BitVec 96)) (dest src : BitVec 16) : Packet :=
  let w := wireBytes acc
  let body := (List.range count).flatMap (fun i =>
    if void.getLsbD i then zeros w else leBytes w (accs.getD i 0).toNat)
  { kind := kPartial, vl := 3, dest := dest, src := src
    bytes := segHeader hid acc mslot step seg count ++ leBytes 1 blkovf.toNat ++ zeros 3 ++ leBytes 32 void.toNat ++ body }

/-- An MCAST (Table Link-8). -/
def mcastPacket (hid : BitVec 16) (fmt : Nat) (bcast : Bool) (step : BitVec 32) (seg count : Nat)
    (dscale nscale : List Byte) (codes : List Byte) (dest src : BitVec 16) : Packet :=
  { kind := kMcast, vl := 3, dest := dest, src := src
    bytes := segHeader hid fmt (if bcast then 1 else 0) step seg count ++ padTo 4 dscale ++ padTo 4 nscale ++ zeros 12 ++ codes }

/-- A WINDOW (Table Link-8). -/
def windowPacket (hid : BitVec 16) (step : BitVec 32) (base : Nat) (src : BitVec 16) : Packet :=
  { kind := kWindow, vl := 5, dest := 0xFFFF, src := src
    bytes := leBytes 2 hid.toNat ++ zeros 2 ++ leBytes 4 step.toNat ++ leBytes 3 base ++ zeros 5 }

/-- A CALL (Table Link-8). `elems` are Z48 codes, sent as Z32 where `wide` is false. -/
def callPacket (cue mslot role : Nat) (curtain wide : Bool) (step : BitVec 32) (count : Nat) (elems : List (BitVec 48))
    (dest src : BitVec 16) : Packet :=
  let flags := 64 * role + (if curtain then 32 else 0) + (if wide then 16 else 0) + (count - 1) % 8
  { kind := kCall, vl := 6, dest := dest, src := src
    bytes := leBytes 2 cue ++ leBytes 1 mslot ++ leBytes 1 flags ++ leBytes 4 step.toNat ++ zeros 8 ++
      (if curtain then [] else elems.flatMap (fun e => leBytes (if wide then 8 else 4) e.toNat)) }

/-- A TIME packet (Table Link-8). -/
def timePacket (resp machine norec : Bool) (sfcA sfcB : BitVec 16) (t1 t2 t3 : W64) (src : BitVec 16) : Packet :=
  { kind := kTime, vl := 7, dest := 0xFFFF, src := src
    bytes := leBytes 1 ((if resp then 1 else 0) + (if machine then 2 else 0) + (if norec then 4 else 0)) ++ [0] ++
      leBytes 2 sfcA.toNat ++ leBytes 2 sfcB.toNat ++ zeros 2 ++ leBytes 8 t1.toNat ++ leBytes 8 t2.toNat ++ leBytes 8 t3.toNat }

/-- A NOTICE (Table Link-8). -/
def noticePacket (rack : BitVec 10) (machine hold : Bool) (ttl : Nat) (grid : BitVec 32) (k : W64) (src : BitVec 16) : Packet :=
  { kind := kNotice, vl := 7, dest := 0xFFFF, src := src
    bytes := leBytes 2 rack.toNat ++ leBytes 1 ((if machine then 1 else 0) + (if hold then 2 else 0)) ++ leBytes 1 ttl ++
      leBytes 4 grid.toNat ++ leBytes 8 k.toNat }

/-- SEED_HDR, SEED_COPY and SEED_ACK (Table Link-8). -/
def seedHdrPacket (hid : BitVec 16) (words : List W64) (dest src : BitVec 16) : Packet :=
  { kind := kSeedHdr, vl := 4, dest := dest, src := src
    bytes := leBytes 2 hid.toNat ++ zeros 6 ++ words.flatMap (fun w => leBytes 8 w.toNat) }

def seedCopyPacket (hid : BitVec 16) (seg count : Nat) (words : List Byte) (dest src : BitVec 16) : Packet :=
  { kind := kSeedCopy, vl := 4, dest := dest, src := src
    bytes := leBytes 2 hid.toNat ++ zeros 2 ++ leBytes 3 seg ++ leBytes 1 (count - 1) ++ zeros 8 ++ words }

def seedAckPacket (hid : BitVec 16) (status seg : Nat) (dest src : BitVec 16) : Packet :=
  { kind := kSeedAck, vl := 4, dest := dest, src := src
    bytes := leBytes 2 hid.toNat ++ leBytes 1 status ++ [0] ++ leBytes 3 seg ++ zeros 9 }

/-! ### Frames and control cells -/

/-- A whole data frame (Table Link-1, R240, R241) (DEDUCED, log 53). -/
def frameBytes (seq : BitVec 12) (pk : Packet) : List Byte :=
  let cells := pkCells pk
  let head := [0xD5, BitVec.ofNat 8 (32 * pk.vl.val)] ++ leBytes 2 seq.toNat ++ leBytes 1 (cells - 1) ++ [pk.kind] ++
    leBytes 2 pk.bytes.length ++ leBytes 2 pk.dest.toNat ++ leBytes 2 pk.src.toNat ++ [if pk.resend then 1 else 0, 0]
  let body := padTo (64 * cells - 4) (head ++ leBytes 2 (crc16 head).toNat ++ pk.bytes)
  body ++ crc32Bytes body

/-- Close a control cell: pad to 60 bytes and add its CRC-32 (R241). -/
def controlCell (bytes : List Byte) : List Byte :=
  let b := padTo 60 bytes
  b ++ crc32Bytes b

/-- A LINK cell (Table Link-4). -/
def linkCellBytes (l : LinkPort) : List Byte :=
  let last := if l.anyAccepted then (l.rxExpect - 1).toNat else 0
  controlCell ([0xC3, 0x01] ++ leBytes 2 (last + (if l.anyAccepted then 16384 else 0) + (if l.nak then 32768 else 0)) ++
    zeros 4 ++ l.freedOwn.toList.flatMap (fun f => leBytes 2 f.toNat))

/-- A HELLO cell: this module lists version (1, 0), offers its credits and MAXCELLS 64 (R252, R253, Table Link-5). -/
def helloBytes (l : LinkPort) : List Byte :=
  controlCell ([0xC3, 0x02, if l.peerHello.isSome then 1 else 0, 0] ++ leBytes 4 l.epoch.toNat ++
    [1, 0, 0, 0, 0, 0, 0, 0] ++ l.offer.toList.flatMap (fun c => leBytes 2 c) ++ [64])

/-- A ROLLCALL cell (Table Link-6). -/
def rollBytes (seen : Bool) (p : Port) (modnum : BitVec 16) (serial : BitVec 48) (plan : W64) (coord : BitVec 24)
    (role : Byte) : List Byte :=
  controlCell ([0xC3, 0x03, if seen then 1 else 0, 0] ++ leBytes 1 p.val ++ [0] ++ leBytes 2 modnum.toNat ++
    leBytes 8 serial.toNat ++ leBytes 8 plan.toNat ++ leBytes 4 coord.toNat ++ [role])

/-- Is a cell a control cell with a good CRC-32 (R243)? -/
def controlOk (c : List Byte) : Bool :=
  decide (c.length = 64) && byteAt c 0 == 0xC3 && (c.drop 60) == crc32Bytes (c.take 60)

/-- A peer HELLO as received. -/
def helloOf (c : List Byte) : Hello :=
  { seen := (byteAt c 2).getLsbD 0, kind := byteAt c 3, epoch := BitVec.ofNat 32 (leAt c 4 4)
    vers := (List.range 4).map (fun i => (byteAt c (8 + 2 * i), byteAt c (9 + 2 * i)))
    credit := Vector.ofFn (fun i : Fin 8 => leAt c (0x10 + 2 * i.val) 2), maxCells := (byteAt c 0x20).toNat }

/-- A peer ROLLCALL as received. -/
def rollOf (c : List Byte) : Roll :=
  { seen := (byteAt c 2).getLsbD 0, kind := byteAt c 3, port := byteAt c 4, modnum := BitVec.ofNat 16 (leAt c 6 2) &&& 0x81FF
    serial := BitVec.ofNat 48 (leAt c 8 6), plan := BitVec.ofNat 64 (leAt c 0x10 8), coord := BitVec.ofNat 24 (leAt c 0x18 3)
    role := byteAt c 0x1C }

/-- The data header of a cell, when it is one with a good HCRC and CELLS consistent with PLEN (R243): VL, SEQ, cells,
and PLEN. -/
def dataHeader (c : List Byte) : Option (Nat × BitVec 12 × Nat × Nat) :=
  let cells := (byteAt c 4).toNat % 64 + 1
  let plen := leAt c 6 2
  if byteAt c 0 = 0xD5 ∧ leAt c 14 2 = (crc16 (c.take 14)).toNat ∧ cells = cellsOf plen ∧ plen ≤ 4076 then
    some ((byteAt c 1).toNat / 32, BitVec.ofNat 12 (leAt c 2 2), cells, plen)
  else none

/-- The packet of a frame's bytes (DEDUCED, log 53). -/
def packetOf (vl : Nat) (plen : Nat) (f : List Byte) : Packet :=
  { kind := byteAt f 5, vl := Fin.ofNat 8 vl, dest := BitVec.ofNat 16 (leAt f 8 2), src := BitVec.ofNat 16 (leAt f 10 2)
    resend := (byteAt f 12).getLsbD 0, bytes := (f.drop 16).take plen }

end Sys2Proof.Machine
end

