-- ==== Sys2Proof/Config.lean ====
section
/-! DEFINITION. What the spec leaves open: free values and the functions it names and does not give. None has a body, so
nothing can be proved of a value of one (log 4). -/

namespace Sys2Proof.Config

/-- Draw n: the bits of a drawn value, EPOCH of HELLO (R252), session ID and MNONCE (R329), the randomness of a hedged
signature (R211), taken by their low bits (DESIGN CHOICE, log 4). -/
opaque free : Nat → BitVec 512

/-- Where the PRBS31 sequence of a lane starts when the lane starts (R220), and the cell that fills a data slot for which a link in DOWN
has nothing to send (R239, R256) (DESIGN CHOICE, logs 82, 92). -/
opaque prbsStart : BitVec 31
opaque idleCell : Vector Byte 64

/-- Whether the mean of these θ, whose sum and count do not divide, is taken as the next tick up (R101) (DESIGN CHOICE, log 46). -/
opaque thetaUp : Int → Nat → Bool

/-- The bytes of one shard (HID, owner number, understudy number, LOST) under PLACE_DIGEST, whose encoding R314 does not give (DESIGN CHOICE, log 49). -/
opaque placeEntry : (hid : BitVec 16) → (own und : Option Nat) → (lost : Bool) → List Byte

/-- The bytes of a calibration record before its key and signature: gains, offsets, reference instrument, date (R391) (DESIGN CHOICE, log 113). -/
opaque calBody : (gain offset : Vector (BitVec 32) 9) → (instrument date : List Byte) → List Byte

/-- What the spec does not lay out of the box office's own records: MAGIC of a log record, a log record before its signature
(cause, per-minute energies, first and last SEQ; R395), and of a firmware image the key, the signed bytes, the signature and
FWVER (R399) (DESIGN CHOICE, log 31). -/
opaque boxLogMagic : BitVec 32
opaque boxLogBody : (cause : LogCause) → (minutes : List (List W64)) → (first last : W64) → List Byte
opaque boxImage : List Byte → List Byte × List Byte × List Byte × BitVec 32

end Sys2Proof.Config
end

