-- ==== Sys2Proof/Machine/Ops.lean ====
section
/-! DEFINITION. Named operations over memory and the shared parts of the state: what is sent, free draws, host events and
log entries. -/

namespace Sys2Proof.Machine

/-! ### Memory: cells in rising address order, none zero -/

/-- The canonical form: addresses strictly rising, and no cell equal to what an unlisted address reads as. -/
def Memory.wf : Mem → Bool
  | [] => true
  | [c] => c.2 != 0
  | c :: d :: r => (c.2 != 0) && decide (c.1 < d.1) && Memory.wf (d :: r)

/-- What an address reads as: an unlisted byte reads 0, as the zero fill leaves it (R424, R437) (DEDUCED, log 66). -/
def memByte : Mem → Nat → Byte
  | [], _ => 0
  | c :: r, a => if a = c.1 then c.2 else memByte r a

/-- Write one byte. -/
def memPut : Mem → Nat → Byte → Mem
  | [], a, v => if v = 0 then [] else [(a, v)]
  | c :: r, a, v =>
    if a < c.1 then (if v = 0 then c :: r else (a, v) :: c :: r)
    else if a = c.1 then (if v = 0 then r else (a, v) :: r)
    else c :: memPut r a v

/-- Read `n` bytes. -/
def memRead (m : Mem) (a n : Nat) : List Byte := (List.range n).map (fun i => memByte m (a + i))

/-- Write bytes from an address up. -/
def memWrite (m : Mem) (a : Nat) : List Byte → Mem
  | [] => m
  | b :: r => memWrite (memPut m a b) (a + 1) r

/-- Make `n` bytes zero. -/
def memClear (m : Mem) (a n : Nat) : Mem := m.filter (fun c => !(decide (a ≤ c.1) && decide (c.1 < a + n)))

/-- Little-endian value in memory. -/
def memLe (m : Mem) (a n : Nat) : Nat := leVal (memRead m a n)

/-! ### The data space (Table Groom-1) -/

def stateBase : Nat := 0
def stateBytes : Nat := 320000000000
def shardTable : Nat := 0x4A_817C_8000
def progressTable : Nat := 0x4A_817C_8000 + 0x4_0000
def spillBase : Nat := 0x4A_818C_8000
def ringBase : Nat := 0x4A_848C_8000
def ringBytes : Nat := 1879048192
def logBase : Nat := 0x4A_F48C_8000
def logBytes : Nat := 268435456
def scratchBase : Nat := 0x4B_048C_8000
def scratchBytes : Nat := 1073741824
def residBase : Nat := 0x4B_448C_8000
def residBytes : Nat := 43231268864
def dataSpaceAccesses : Nat := 89478485 * 128

/-! ### Output, free values, time -/

/-- Send or drive something (DESIGN CHOICE, log 3). -/
def emit (o : Out) (s : State) : State := { s with out := o :: s.out }

/-- The first `k` pieces of `n` entries each. -/
def pieces {α : Type} (n : Nat) : Nat → List α → List (List α)
  | 0, _ => []
  | k + 1, l => l.take n :: pieces n k (l.drop n)

/-- The next free value, and the state after drawing it (DESIGN CHOICE, log 4). -/
def freeNow (s : State) : BitVec 512 := Config.free s.draws
def drawn (s : State) : State := { s with draws := s.draws + 1 }

/-- Hardware has set the bits of `m` of a register's instance `k`: an access of this arena cycle does not clear them any more (R14). -/
def fresh (r : Reg) (k : Nat) (m : W64) (s : State) : State :=
  { s with cyc := s.cyc.map (fun x => if x.1 = r ∧ x.2.1 = k then (x.1, x.2.1, x.2.2 &&& ~~~m) else x) }

/-- Bit `i` of a register. -/
def bitOf (i : Nat) : W64 := BitVec.ofNat 64 (1 <<< i)

/-- The last write of this arena cycle to an instance of a register: a hardware update of the cycle takes effect before it (R14). -/
def lastWrite (s : State) (r : Reg) (k : Nat) : Option W64 :=
  (s.written.reverse.find? (fun x => decide (x.1 = r) && decide (x.2.1 = k))).map (·.2.2)

/-- Half-nanosecond ticks in a millisecond, a microsecond and an AO cycle (R12; DESIGN CHOICE, log 2). -/
def ms : Nat := 2000000
def us : Nat := 2000
def aoCycle : Nat := 80

/-- Deck cycles passed at a time: three in four ticks (R12) (DESIGN CHOICE, log 2). -/
def deckCycles (t : Nat) : Nat := 3 * t / 4

/-- PTP time in ns, or 0 when PTP is not synchronised (R104, R323) (DESIGN CHOICE, log 2). -/
def wallNs (s : State) : W64 :=
  if s.host.ptp.synced then BitVec.ofInt 64 ((s.time / 2 : Nat) + s.host.ptp.adjust) else 0

/-! ### Parts of the state -/

def modLink (p : Port) (f : LinkPort → LinkPort) (s : State) : State := { s with link := vmod s.link p f }
def modLane (l : LaneId) (f : Lane → Lane) (s : State) : State :=
  { s with lane := { s.lane with lanes := vmod s.lane.lanes l f } }
def modLanePort (p : Port) (f : LanePort → LanePort) (s : State) : State :=
  { s with lane := { s.lane with ports := vmod s.lane.ports p f } }
/-- The link layer gives a port a control cell or a whole frame: its cells wait, in port order, for the superframes that carry them
(R228, R239). -/
def sendCells (p : Port) (bytes : List Byte) (s : State) : State :=
  emit (.cells p bytes) (modLanePort p (fun x => { x with txCells := x.txCells ++ pieces 64 (bytes.length / 64) bytes }) s)
def modSource (i : SrcId) (f : Source → Source) (s : State) : State :=
  { s with flt := { s.flt with sources := vmod s.flt.sources i f } }
def modMbx (m : Fin 64) (f : Mailbox → Mailbox) (s : State) : State :=
  { s with host := { s.host with mboxes := vmod s.host.mboxes m f } }
def modEth (p : Fin 2) (f : EthPort → EthPort) (s : State) : State :=
  { s with host := { s.host with eth := vmod s.host.eth p f } }

/-- Change the session with an ID. -/
def modSession (sid : BitVec 32) (f : Session → Session) (s : State) : State :=
  { s with host := { s.host with sessions := s.host.sessions.map (fun x => if x.id = sid then f x else x) } }

/-- The session with an ID. -/
def findSession (s : State) (sid : BitVec 32) : Option Session := s.host.sessions.find? (fun x => x.id = sid)

/-- Change the first list entry that meets a test. -/
def modFirst {α : Type} (p : α → Bool) (f : α → α) : List α → List α
  | [] => []
  | x :: r => if p x then f x :: r else x :: modFirst p f r

/-- Remove the first list entry that meets a test. -/
def dropFirst {α : Type} (p : α → Bool) : List α → List α
  | [] => []
  | x :: r => if p x then r else x :: dropFirst p r

/-- The first number from `i` on that meets a test, among `fuel` numbers. -/
def findFrom (p : Nat → Bool) : (fuel i : Nat) → Option Nat
  | 0, _ => none
  | n + 1, i => if p i then some i else findFrom p n (i + 1)

/-- Insert before the first entry that it does not come after. -/
def insertBy {α : Type} (le : α → α → Bool) (x : α) : List α → List α
  | [] => [x]
  | y :: r => if le x y then x :: y :: r else y :: insertBy le x r

/-- Sort; entries that compare equal keep their order. -/
def sortBy {α : Type} (le : α → α → Bool) : List α → List α
  | [] => []
  | x :: r => insertBy le x (sortBy le r)

/-! ### Prompt datagrams and events (R322, R325, R350, R351) -/

/-- The 24-byte header and the payload (Table Host-2). -/
def promptBytes (ver kind : Byte) (sid seq : BitVec 32) (mbx flags : Byte) (status : BitVec 16) (pay : List Byte) :
    List Byte :=
  [0x5A, 0x50, ver, kind] ++ leBytes 4 sid.toNat ++ leBytes 4 seq.toNat ++ leBytes 2 pay.length ++ [mbx, flags] ++
    leBytes 2 status.toNat ++ zeros 6 ++ pay

/-- Send an event of a session's queue: from the port, to the address and with the tag of its last valid datagram. -/
def sendEvent (x : Session) (e : Event) (s : State) : State :=
  emit (.datagram x.port x.peer x.vlan (promptBytes 0x10 0x30 x.id e.eseq 0xFF 0 0 e.payload)) s

/-- Queue an event for one session (R351). -/
def eventTo (kind : Nat) (body : List Byte) (s : State) (sid : BitVec 32) : State :=
  match findSession s sid with
  | none => s
  | some x =>
    if x.ready && x.evmask.getLsbD kind then
      if x.events.length < 1024 then
        let e : Event :=
          { eseq := x.eseq + 1
            payload := leBytes 1 kind ++ [0] ++ leBytes 2 x.lostNext.toNat ++ zeros 4 ++ leBytes 8 s.stg.now.toNat ++ body
            sentAt := s.time }
        sendEvent x e (modSession sid (fun y => { y with events := y.events ++ [e], eseq := y.eseq + 1, lostNext := 0 }) s)
      else
        let s := modSession sid (fun y => { y with lostNext := BitVec.ofNat 16 (satAdd 0xFFFF y.lostNext.toNat 1) }) s
        fresh .mbxSticky 0 0x10 { s with host := { s.host with sticky := s.host.sticky ||| 0x10, evLost := satAdd 0xFFFF s.host.evLost 1 } }
    else s

/-- Queue an event for every READY session whose EVMASK asks for its kind (R351). -/
def hostEvent (kind : Nat) (body : List Byte) (s : State) : State :=
  (s.host.sessions.map (·.id)).foldl (eventTo kind body) s

/-! ### The fault log's queue (R418) -/

/-- Queue a log entry, or count it lost; a lost one is no record and takes no SEQ (DEDUCED, log 37). -/
def queueLog (type : Nat) (src : SrcId) (react index : Nat) (sticky addr : W64) (s : State) : State :=
  let r : LogRec :=
    { seq := s.flt.logSeq, type := BitVec.ofNat 8 type, source := BitVec.ofNat 8 src.val, react := BitVec.ofNat 8 react
      index := BitVec.ofNat 8 index, tick := s.stg.now, wall := wallNs s, sticky := sticky, addr := addr }
  if s.flt.queue.length < 256 then
    { s with flt := { s.flt with queue := s.flt.queue ++ [r], logSeq := s.flt.logSeq + 1 } }
  else { s with flt := { s.flt with lost := satAdd 0xFFFF s.flt.lost 1 } }

end Sys2Proof.Machine
end

