-- ==== Sys2Proof/Machine/Roles.lean ====
section
/-! DEFINITION. The module's place in the axis plan, port roles and the peer each port expects (12_topology_and_recovery.md
R297 to R308). -/

namespace Sys2Proof.Machine

/-- Role codes (Table Topology-3) (DESIGN CHOICE, log 40). -/
def roleNone : Nat := 0x00
def roleDown : Nat := 0x01
def roleUp : Nat := 0x02
def roleSpineDown : Nat := 0x03
def roleSpineUp : Nat := 0x04

/-- Torus modules of a plan. -/
def nmod (p : Plan) : Nat := p.dx * p.dy * p.dz

/-- Tier sizes of one plane (R303). -/
def tier1 (n : Nat) : Nat := (n + 15) / 16
def tier2 (n : Nat) : Nat := 4 * ((tier1 n + 15) / 16)
def tier3 (n : Nat) : Nat := if tier1 n > 16 then 2 else 0

/-- Number of the torus module with a serial. -/
def torusIndex (p : Plan) (serial : BitVec 48) : Option Nat := p.torus.findIdx? (fun e => e.2 == serial)

/-- Plane, tier (1 to 3) and index within the tier of the spine module with a serial. -/
def spinePlace (p : Plan) (serial : BitVec 48) : Option (Nat × Nat × Nat) :=
  match p.spine.findIdx? (fun e => e.2.2.2 == serial) with
  | none => none
  | some i =>
    match p.spine[i]? with
    | none => none
    | some e =>
      some (e.2.1, e.1 + 1, (p.spine.take i).countP (fun f => decide (f.1 = e.1) && decide (f.2.1 = e.2.1)))

/-- Serial of the spine module at a plane, tier and index. -/
def spineSerial (p : Plan) (plane tier idx : Nat) : Option (BitVec 48) :=
  ((p.spine.filter (fun f => decide (f.1 + 1 = tier) && decide (f.2.1 = plane)))[idx]?).map (fun f => f.2.2.2)

/-- This module's number, once a plan gives it one (R300). -/
def ownNumber (s : State) : Option Nat := s.topo.plan.bind (fun p => torusIndex p s.fuses.serial)

/-- This module's spine place. -/
def ownSpine (s : State) : Option (Nat × Nat × Nat) := s.topo.plan.bind (fun p => spinePlace p s.fuses.serial)

/-- This module's own address, endpoint 64 (R255); 0xFFFF stands for none. -/
def ownAddr (s : State) : BitVec 16 := match ownNumber s with
  | some n => BitVec.ofNat 16 (128 * n + 64)
  | none => 0xFFFF

/-- SRC of what this module sends: its own address, 0 before a plan numbers it. -/
def srcAddr (s : State) : BitVec 16 := match ownNumber s with
  | some n => BitVec.ofNat 16 (128 * n + 64)
  | none => 0

/-- First port and size of each torus direction's group, by role code 0x10 to 0x15 (Table Topology-3). -/
def dirGroup (map role : Nat) : Option (Nat × Nat) :=
  if map = 0 then
    match role with
    | 0x10 => some (32, 4) | 0x11 => some (36, 4) | 0x12 => some (40, 4)
    | 0x13 => some (44, 4) | 0x14 => some (48, 4) | 0x15 => some (52, 4)
    | _ => none
  else
    match role with
    | 0x10 => some (32, 6) | 0x11 => some (38, 6) | 0x12 => some (44, 6) | 0x13 => some (50, 6)
    | _ => none

/-- Role of a port under a torus role map. -/
def torusRole (map : Nat) (port : Nat) : Nat :=
  if port < 32 then roleDown
  else if port ≥ 56 then roleUp
  else ([0x10, 0x11, 0x12, 0x13, 0x14, 0x15].find? (fun r => match dirGroup map r with
    | some g => decide (g.1 ≤ port) && decide (port < g.1 + g.2)
    | none => false)).getD roleNone

/-- Role of a port of a spine module; the upward ports of the top tier act as NONE (R301). -/
def spineRole (p : Plan) (tier port : Nat) : Nat :=
  let top := if tier3 (nmod p) = 0 then 2 else 3
  if port < 32 then roleSpineDown
  else if port < 40 ∧ tier < top then roleSpineUp
  else roleNone

/-- Role of a port of this module; NONE before a plan (DESIGN CHOICE, log 40). -/
def portRole (s : State) (port : Port) : Nat :=
  match s.topo.plan with
  | none => roleNone
  | some p =>
    match torusIndex p s.fuses.serial with
    | some _ => torusRole p.rolemap port.val
    | none => match spinePlace p s.fuses.serial with
      | some (_, tier, _) => spineRole p tier port.val
      | none => roleNone

/-- Is a role a torus direction? -/
def isTorus (role : Nat) : Bool := decide (0x10 ≤ role) && decide (role ≤ 0x15)

/-- The opposite direction. -/
def oppositeDir (role : Nat) : Nat := if role % 2 = 0 then role + 1 else role - 1

/-- Coordinates of module n (R300). -/
def coords (p : Plan) (n : Nat) : Nat × Nat × Nat := (n % p.dx, n / p.dx % p.dy, n / (p.dx * p.dy))

/-- Number of the module at coordinates. -/
def numberAt (p : Plan) (x y z : Nat) : Nat := x + p.dx * (y + p.dy * z)

/-- The neighbour of module n one step along a direction, with wrap-around (Table Topology-5). -/
def neighbour (p : Plan) (n role : Nat) : Nat :=
  let c := coords p n
  match role with
  | 0x10 => numberAt p ((c.1 + 1) % p.dx) c.2.1 c.2.2
  | 0x11 => numberAt p ((c.1 + p.dx - 1) % p.dx) c.2.1 c.2.2
  | 0x12 => numberAt p c.1 ((c.2.1 + 1) % p.dy) c.2.2
  | 0x13 => numberAt p c.1 ((c.2.1 + p.dy - 1) % p.dy) c.2.2
  | 0x14 => numberAt p c.1 c.2.1 ((c.2.2 + 1) % p.dz)
  | 0x15 => numberAt p c.1 c.2.1 ((c.2.2 + p.dz - 1) % p.dz)
  | _ => n

/-- COORD of a torus module and of a spine module (R302). -/
def coordOf (p : Plan) (n : Nat) : BitVec 24 :=
  let c := coords p n
  BitVec.ofNat 24 (c.1 + 256 * c.2.1 + 65536 * c.2.2)
def spineCoord (plane tier idx : Nat) : BitVec 24 := BitVec.ofNat 24 (idx + 256 * tier + 65536 * plane)

/-- MODNUM, COORD and PLAN that this module sends (R302). -/
def ownModnum (s : State) : BitVec 16 := match ownNumber s with
  | some n => BitVec.ofNat 16 (0x8000 + n)
  | none => 0
def ownCoord (s : State) : BitVec 24 := match s.topo.plan with
  | none => 0
  | some p => match torusIndex p s.fuses.serial with
    | some n => coordOf p n
    | none => match spinePlace p s.fuses.serial with
      | some (k, t, i) => spineCoord k t i
      | none => 0
def planId (s : State) : W64 := (s.topo.plan.map (·.id)).getD 0

/-- The ROLLCALL cell of a port (R254, R302). -/
def ownRoll (s : State) (port : Port) : List Byte :=
  rollBytes (s.link[port.val]).peerRoll.isSome port (ownModnum s) s.fuses.serial (planId s) (ownCoord s)
    (BitVec.ofNat 8 (portRole s port))

/-- What a port expects of a module peer: serial, COORD, MODNUM, ROLE, and the ports it may send. -/
structure Expect where
  serial : BitVec 48
  coord  : BitVec 24
  modnum : BitVec 16
  role   : Nat
  ports  : Nat × Nat
  deriving DecidableEq, Repr

def expectTorus (p : Plan) (n role : Nat) (ports : Nat × Nat) : Option Expect :=
  (p.torus[n]?).map (fun e => ⟨e.2, coordOf p n, BitVec.ofNat 16 (0x8000 + n), role, ports⟩)

def expectSpine (p : Plan) (plane tier idx role port : Nat) : Option Expect :=
  (spineSerial p plane tier idx).map (fun e => ⟨e, spineCoord plane tier idx, 0, role, (port, 1)⟩)

/-- The module a port expects (Table Topology-4, Table Topology-5); none where it expects none. -/
def expectModule (s : State) (port : Port) : Option Expect :=
  match s.topo.plan with
  | none => none
  | some p =>
    let role := portRole s port
    match torusIndex p s.fuses.serial with
    | some n =>
      if isTorus role then
        match dirGroup p.rolemap (oppositeDir role) with
        | some g => expectTorus p (neighbour p n role) (oppositeDir role) g
        | none => none
      else if role = roleUp then
        expectSpine p ((port.val - 56) / 2) 1 (n / 16) roleSpineDown (2 * (n % 16) + port.val % 2)
      else none
    | none =>
      match spinePlace p s.fuses.serial with
      | none => none
      | some (k, tier, i) =>
        let t := port.val % 2
        let d := port.val / 2
        if role = roleSpineDown then
          if tier = 1 then expectTorus p (16 * i + d) roleUp (56 + 2 * k + t, 1)
          else if tier = 2 then expectSpine p k 1 (16 * (i / 4) + d) roleSpineUp (32 + 2 * (i % 4) + t)
          else expectSpine p k 2 (d / 2) roleSpineUp (32 + 2 * (2 * (d % 2) + i) + t)
        else if role = roleSpineUp then
          let u := (port.val - 32) / 2
          if tier = 1 then expectSpine p k 2 (4 * (i / 16) + u) roleSpineDown (2 * (i % 16) + t)
          else expectSpine p k 3 (u % 2) roleSpineDown (2 * (2 * i + u / 2) + t)
        else none

/-- Does a peer show itself as an accelerator on the port of its pair that this port is (Table Topology-5)? -/
def accelShows (port : Port) (r : Roll) : Bool := r.kind == 1 && r.role == 0 && decide (r.port.toNat = port.val % 2)

/-- The serial that the other port of a downlink pair has been admitted to, which fixes the pair's (R306) (DEDUCED, log 59). -/
def pairSerial (s : State) (port : Port) : Option (BitVec 48) :=
  let q : Port := Fin.ofNat 64 (if port.val % 2 = 0 then port.val + 1 else port.val - 1)
  if (s.link[q.val]).state = .opened then ((s.link[q.val]).peerRoll.filter (accelShows q)).map (·.serial) else none

/-- Does a peer match the expectation for the port (R305, R306, R308)? -/
def peerMatches (s : State) (port : Port) (r : Roll) : Bool :=
  if portRole s port = roleDown then
    accelShows port r &&
      (match pairSerial s port with
        | some x => x == r.serial
        | none => true)
  else
    match expectModule s port with
    | none => false
    | some e =>
      r.kind == 0 && r.plan == planId s && r.serial == e.serial && r.coord == e.coord && r.modnum == e.modnum &&
        decide (r.role.toNat = e.role) && decide (e.ports.1 ≤ r.port.toNat) && decide (r.port.toNat < e.ports.1 + e.ports.2) &&
        s.topo.live.contains r.serial

/-- The accelerator's other attachment, for a downlink port (R275, R306). -/
def otherPort (s : State) (port : Port) : Option Port :=
  if portRole s port = roleDown then some (Fin.ofNat 64 (if port.val % 2 = 0 then port.val + 1 else port.val - 1)) else none

/-- Is a link OPEN? -/
def isOpen (s : State) (port : Port) : Bool := decide ((s.link[port.val]).state = .opened)

/-- Does the peer of a port show itself as an accelerator, or as a module? -/
def peerAccel (s : State) (port : Port) : Bool := match (s.link[port.val]).peerRoll with
  | some r => r.kind == 1
  | none => false
def peerModule (s : State) (port : Port) : Bool := match (s.link[port.val]).peerRoll with
  | some r => r.kind == 0
  | none => false

end Sys2Proof.Machine
end

