-- ==== Sys2Proof/Machine/Shards.lean ====
section
/-! DEFINITION. Shard records and their state words in the data space (05_groom_and_master_state.md R130 to R138), and the
progress entries (12_topology_and_recovery.md R316). -/

namespace Sys2Proof.Machine

/-- Roles of a record (Table Groom-4). -/
def roleFree : Nat := 0
def roleOwner : Nat := 1
def roleUnderstudy : Nat := 2
def roleSeeding : Nat := 3

/-- A shard record (Table Groom-4). -/
structure Shard where
  hid      : BitVec 16
  role     : Nat
  seedout  : Bool
  diverged : Bool
  uport    : Nat
  uslot    : Nat
  len      : Nat
  base     : Nat
  age      : W64
  p1       : BitVec 48
  p2       : BitVec 48
  partner  : BitVec 48
  last     : W64
  deriving DecidableEq, Repr

def shardAddr (i : Nat) : Nat := shardTable + 64 * i

/-- Record i. -/
def readShard (s : State) (i : Nat) : Shard :=
  let b := memRead s.dram (shardAddr i) 64
  let fl := (byteAt b 2).toNat
  { hid := BitVec.ofNat 16 (leAt b 0 2), role := fl % 4, seedout := fl.testBit 2, diverged := fl.testBit 3
    uport := (byteAt b 3).toNat % 64, uslot := (byteAt b 4).toNat % 128, len := leAt b 8 8, base := leAt b 0x10 8
    age := BitVec.ofNat 64 (leAt b 0x18 8), p1 := BitVec.ofNat 48 (leAt b 0x20 6), p2 := BitVec.ofNat 48 (leAt b 0x28 6)
    partner := BitVec.ofNat 48 (leAt b 0x30 6), last := BitVec.ofNat 64 (leAt b 0x38 8) }

/-- The 64 bytes of a record. -/
def shardBytes (r : Shard) : List Byte :=
  leBytes 2 r.hid.toNat ++ leBytes 1 (r.role + (if r.seedout then 4 else 0) + (if r.diverged then 8 else 0)) ++
    leBytes 1 r.uport ++ leBytes 1 r.uslot ++ zeros 3 ++ leBytes 8 r.len ++ leBytes 8 r.base ++ leBytes 8 r.age.toNat ++
    leBytes 8 r.p1.toNat ++ leBytes 8 r.p2.toNat ++ leBytes 8 r.partner.toNat ++ leBytes 8 r.last.toNat

/-- Write record i back to the table (R136). -/
def writeShard (i : Nat) (r : Shard) (s : State) : State := { s with dram := memWrite s.dram (shardAddr i) (shardBytes r) }

/-- Index of the record of a HID, one with ROLE other than FREE. -/
def findShard (s : State) (hid : BitVec 16) : Option Nat :=
  findFrom (fun i => decide ((memByte s.dram (shardAddr i + 2)).toNat % 4 ≠ 0) &&
    decide (memLe s.dram (shardAddr i) 2 = hid.toNat)) 4096 0

/-- Change the record of a HID. -/
def modShard (hid : BitVec 16) (f : Shard → Shard) (s : State) : State := match findShard s hid with
  | some i => writeShard i (f (readShard s i)) s
  | none => s

/-- The record of a HID. -/
def shardOf (s : State) (hid : BitVec 16) : Option Shard := (findShard s hid).map (readShard s)

/-- Bytes of state that a shard takes: whole segments of 2 KiB (R137). -/
def stateSize (len : Nat) : Nat := (len + 255) / 256 * 2048

/-- Indexes of the records in use. -/
def shardIndexes (s : State) : List Nat :=
  (List.range 4096).filter (fun i => decide ((memByte s.dram (shardAddr i + 2)).toNat % 4 ≠ 0))

/-- Does a range of state bytes overlap a record's? -/
def overlaps (a n b m : Nat) : Bool := decide (a < b + m) && decide (b < a + n)

/-- Lowest free 2,048-aligned range of the state region that holds `len` parameters (R137). -/
def findRoom (s : State) (len : Nat) : Option Nat :=
  let used := (shardIndexes s).map (fun i => let r := readShard s i; (r.base, stateSize r.len))
  let n := stateSize len
  let cands := sortBy (fun a b => decide (a ≤ b)) (0 :: used.map (fun u => u.1 + u.2))
  cands.find? (fun a => decide (a + n ≤ stateBytes) && used.all (fun u => !overlaps a n u.1 u.2))

/-- First FREE record index. -/
def freeRecord (s : State) : Option Nat :=
  findFrom (fun i => decide ((memByte s.dram (shardAddr i + 2)).toNat % 4 = 0)) 4096 0

/-- Create a record (R137): its state words are zeroed by a fill that starts now. -/
def createShard (i base : Nat) (hid : BitVec 16) (role len : Nat) (partner : BitVec 48) (uport uslot : Nat) (s : State) : State :=
  let r : Shard :=
    { hid := hid, role := role, seedout := false, diverged := false, uport := uport, uslot := uslot, len := len, base := base
      age := 0, p1 := 0x3FE0_0000_0000, p2 := 0x3FE0_0000_0000, partner := partner, last := 0xFFFF_FFFF_FFFF_FFFF }
  let s := writeShard i r s
  { s with issued := s.issued + 1, grm := { s.grm with fills := s.grm.fills ++ [(i, s.issued)] } }

/-- Does the zero fill of a HID's record still run? -/
def filling (s : State) (hid : BitVec 16) : Bool := match findShard s hid with
  | some i => s.grm.fills.any (fun f => decide (f.1 = i))
  | none => false

/-- Address of the state word of element e. -/
def stateAddr (r : Shard) (e : Nat) : Nat := r.base + 8 * e

/-- State words of `n` elements from element e. -/
def readWords (s : State) (r : Shard) (e n : Nat) : List W64 :=
  (List.range n).map (fun i => BitVec.ofNat 64 (memLe s.dram (stateAddr r (e + i)) 8))

/-- Write state words from element e. -/
def writeWords (r : Shard) (e : Nat) (ws : List W64) (s : State) : State :=
  { s with dram := memWrite s.dram (stateAddr r e) (ws.flatMap (fun w => leBytes 8 w.toNat)) }

/-- Fields of a state word (Table Groom-3). -/
def wordW (x : W64) : BitVec 32 := x.setWidth 32
def wordM (x : W64) : BitVec 16 := (x >>> 32).setWidth 16
def wordV (x : W64) : BitVec 16 := (x >>> 48).setWidth 16
def mkWord (w : BitVec 32) (m v : BitVec 16) : W64 := w.setWidth 64 ||| (m.setWidth 64 <<< 32) ||| (v.setWidth 64 <<< 48)

/-- A progress entry: STEP, BASE, VALID, RELEASED (R316). -/
structure Progress where
  step     : Nat
  base     : Nat
  valid    : Bool
  released : BitVec 256
  deriving DecidableEq, Repr

def readProgress (s : State) (i : Nat) : Progress :=
  let a := progressTable + 64 * i
  { step := memLe s.dram a 8, base := memLe s.dram (a + 8) 4, valid := memLe s.dram (a + 12) 1 % 2 = 1
    released := BitVec.ofNat 256 (memLe s.dram (a + 16) 32) }

def progressBytes (p : Progress) : List Byte :=
  leBytes 8 p.step ++ leBytes 4 p.base ++ leBytes 4 (if p.valid then 1 else 0) ++ leBytes 32 p.released.toNat ++ zeros 16

def writeProgress (i : Nat) (p : Progress) (s : State) : State :=
  { s with dram := memWrite s.dram (progressTable + 64 * i) (progressBytes p) }

end Sys2Proof.Machine
end

