-- ==== Sys2Proof/Machine/Sheet.lean ====
section
/-! DEFINITION. Reading a cue sheet and the checks of Table Cue-6 (04_cues_and_stage_clock.md R105 to R111, 02 R55, R57, R60,
03 R65, 05 R138 to R141, 06 R163, 07 R178, 15 R377, R381). -/

namespace Sys2Proof.Machine

/-! ### Cue kinds and fields (Table Cue-7, Table Cue-8) -/

def cNop : Nat := 0
def cReduce : Nat := 1
def cReduceUpdate : Nat := 2
def cBroadcast : Nat := 3
def cProject : Nat := 4
def cConvert : Nat := 5
def cMove : Nat := 6
def cCall : Nat := 7
def cCurtain : Nat := 8

def cKind (c : CueWord) : Nat := fld c.w0 63 60
def cLate (c : CueWord) : Nat := fld c.w0 59 58
def cMissN (c : CueWord) : Nat := fld c.w0 57 54
def cLclass (c : CueWord) : Nat := fld c.w0 53 50
def cHid (c : CueWord) : BitVec 16 := BitVec.ofNat 16 (fld c.w0 47 32)
def cOffset (c : CueWord) : Nat := fld c.w0 31 0
def cDeadline (c : CueWord) : Nat := fld c.w1 63 32
def cGrace (c : CueWord) : Nat := fld c.w1 31 8
def cNotify (c : CueWord) : Bool := c.w1.getLsbD 7
def cConv (c : CueWord) : Conv := convOf (BitVec.ofNat 16 (fld c.w2 63 48))
def cCastset (c : CueWord) : Nat := fld c.w2 47 32
def cLslot (c : CueWord) : Nat := fld c.w2 31 16
/-- REDUCE_UPDATE's CALLIDX and PSET. -/
def cCallIdx (c : CueWord) : Nat := fld c.w3 31 16
def cPset (c : CueWord) : Nat := fld c.w3 7 0
/-- MOVE's OP, WSOFF, PAGE, PAGES, HID. -/
def cMoveOp (c : CueWord) : Nat := fld c.w3 63 60
def cWsoff (c : CueWord) : Nat := fld c.w3 59 41
def cPage (c : CueWord) : Nat := fld c.w3 40 23
def cPages (c : CueWord) : Nat := fld c.w3 22 9
def cZeroHid (c : CueWord) : BitVec 16 := BitVec.ofNat 16 (fld c.w3 59 44)
/-- CALL's and CURTAIN's fields (Table Callboard-1). -/
def cOp (c : CueWord) : Nat := fld c.w3 63 60
def cCount (c : CueWord) : Nat := fld c.w3 59 57 + 1
def cInZ48 (c : CueWord) : Bool := c.w3.getLsbD 56
def cMemb (c : CueWord) : Bool := c.w3.getLsbD 55
def cSrc (c : CueWord) : Nat := fld c.w3 54 53
def cThid (c : CueWord) : BitVec 16 := BitVec.ofNat 16 (fld c.w3 47 32)
def cShid (c : CueWord) : BitVec 16 := BitVec.ofNat 16 (fld c.w3 31 16)
/-- PROJECT's fields (Table Projection-2). RANK as r, 0 for cast only. -/
def cUhid (c : CueWord) : BitVec 16 := BitVec.ofNat 16 (fld c.w3 63 48)
def cRank (c : CueWord) : Nat := match fld c.w3 47 46 with
  | 1 => 64
  | 2 => 128
  | 3 => 256
  | _ => 0
def cColsField (c : CueWord) : Nat := fld c.w3 45 38
def cCols (c : CueWord) : Nat := 256 * (cColsField c + 1)
def cBandrowsField (c : CueWord) : Nat := fld c.w3 37 28
def cBandrows (c : CueWord) : Nat := cBandrowsField c + 1
def cPrnd (c : CueWord) : Nat := fld c.w3 27 26
def cPovf (c : CueWord) : Bool := c.w3.getLsbD 25
def cRzero (c : CueWord) : Bool := c.w3.getLsbD 24
/-- CONVERT's fields (Table Formats-19): offsets in bytes, length in blocks. -/
def cSrcOff (c : CueWord) : Nat := 64 * fld c.w3 63 45
def cDstOff (c : CueWord) : Nat := 64 * fld c.w3 44 26
def cBlocks (c : CueWord) : Nat := fld c.w3 25 8 + 1

/-- Does a kind name a head (Table Cue-8)? -/
def headed (k : Nat) : Bool := decide (1 ≤ k) && decide (k ≤ 4)
/-- Does a cue of this kind reduce its head (R109, R163)? -/
def reducing (k : Nat) : Bool := k == cReduce || k == cReduceUpdate || k == cProject
/-- Does a kind run a cast stage (R111)? -/
def casting (k : Nat) : Bool := headed k || k == cConvert

/-- Segments and blocks of a head. -/
def segsOf (len : Nat) : Nat := (len + 255) / 256
def blocksOf (len : Nat) : Nat := (len + 63) / 64
def headFmt (h : SheetHead) : Option SFmt := fmtOf h.fmt.toNat
/-- Does a head have scales in force (R84)? -/
def headScaled (h : SheetHead) : Bool := decide (h.fmt.toNat < 3)
/-- Is a head in float mode? -/
def headFloat (h : SheetHead) : Bool := decide (h.fmt.toNat = 5)

/-! ### Reading the image (Table Cue-3 to Table Cue-5) -/

def entrySize (i : Nat) : Nat := [16, 48, 8, 1, 16, 16, 64, 32].getD i 1
def maxCount (i : Nat) : Nat := [1024, 4096, 65535, 2147483648, 65536, 4096, 256, 65536].getD i 0
def secOff (img : List Byte) (i : Nat) : Nat := leAt img (0x50 + 8 * i) 4
def secCount (img : List Byte) (i : Nat) : Nat := leAt img (0x54 + 8 * i) 4
/-- Offset of entry k of section i. -/
def entryAt (img : List Byte) (i k : Nat) : Nat := secOff img i + entrySize i * k

def readCompany (img : List Byte) (a : Nat) : Company := ⟨BitVec.ofNat 10 (leAt img a 2), leAt img (a + 2) 2⟩

def readHead (img : List Byte) (a : Nat) : SheetHead :=
  let hi := leAt img (a + 0x18) 1
  { hid := BitVec.ofNat 16 (leAt img a 2), company := BitVec.ofNat 10 (leAt img (a + 2) 2), fmt := BitVec.ofNat 4 (leAt img (a + 4) 1)
    root := (byteAt img (a + 5)).getLsbD 0, parent := BitVec.ofNat 6 (leAt img (a + 6) 1), pslot := BitVec.ofNat 7 (leAt img (a + 7) 1)
    len := leAt img (a + 8) 8, expected := BitVec.ofNat 65 (leAt img (a + 0x10) 8 + 2 ^ 64 * (hi % 2))
    segwin := leAt img (a + 0x1A) 2, scaleset := leAt img (a + 0x1C) 2
    leads := BitVec.ofNat 65 (leAt img (a + 0x20) 8 + 2 ^ 64 * (hi / 2 % 2)) }

def readRepl (img : List Byte) (a : Nat) : ScaleRepl := ⟨leAt img a 8, BitVec.ofNat 16 (leAt img (a + 8) 2), leAt img (a + 10) 2⟩

def readPre (img : List Byte) (a : Nat) : PreGrant :=
  ⟨leAt img a 4, leAt img (a + 4) 4, leAt img (a + 8) 2, BitVec.ofNat 4 (leAt img (a + 10) 1), leAt img (a + 12) 2⟩

def readPset (img : List Byte) (a : Nat) : PSet :=
  let w (k : Nat) : BitVec 32 := BitVec.ofNat 32 (leAt img (a + 4 * k) 4)
  ⟨w 0, w 1, w 2, w 3, w 4, w 5, w 6, w 7⟩

def readCue (img : List Byte) (a : Nat) : CueWord :=
  let w (k : Nat) : W64 := BitVec.ofNat 64 (leAt img (a + 8 * k) 8)
  ⟨w 0, w 1, w 2, w 3⟩

def readSection {α : Type} (img : List Byte) (i : Nat) (f : List Byte → Nat → α) : List α :=
  (List.range (secCount img i)).map (fun k => f img (entryAt img i k))

/-- The sheet an image holds. -/
def readSheet (img : List Byte) : Sheet :=
  { length := img.length, jobId := BitVec.ofNat 64 (leAt img 0x10 8), seed := BitVec.ofNat 64 (leAt img 0x18 8)
    firstStep := leAt img 0x20 8, stepCount := leAt img 0x28 8, baseTick := leAt img 0x30 8, period := leAt img 0x38 8
    module := BitVec.ofNat 48 (leAt img 0x40 6), liberty := byteAt img 0x48 == 1
    companies := readSection img 0 readCompany, heads := readSection img 1 readHead
    scaleSets := readSection img 2 (fun m a => (leAt m a 4, leAt m (a + 4) 4)), scaleAt := secOff img 3, scaleCount := secCount img 3
    repls := readSection img 4 readRepl, preGrants := readSection img 5 readPre, psets := readSection img 6 readPset
    cues := readSection img 7 readCue }

/-- Head of a HID: its index and entry. -/
def findHead (sh : Sheet) (hid : BitVec 16) : Option (Nat × SheetHead) :=
  match sh.heads.findIdx? (fun h => h.hid == hid) with
  | some i => (sh.heads[i]?).map (fun h => (i, h))
  | none => none

/-! ### Checks 0x01 to 0x05 on the image. Each answers the offsets (WHERE) at which its reason fails. -/

def chkMagic (img : List Byte) : List Nat :=
  (if leAt img 0 4 = 0x4555_435A then [] else [0]) ++ (if leAt img 6 2 = 0x0100 then [] else [6])

def chkVersion (img : List Byte) : List Nat :=
  if byteAt img 5 ≠ 1 then [5] else if byteAt img 4 ≠ 0 then [4] else []

def secEnd (img : List Byte) (i : Nat) : Nat := secOff img i + entrySize i * secCount img i

def chkLayout (img : List Byte) : List Nat :=
  (if leAt img 8 8 = img.length then [] else [8]) ++
  (List.range 8).flatMap (fun i =>
    if secCount img i = 0 then (if secOff img i = 0 then [] else [0x50 + 8 * i])
    else
      (if secOff img i % 64 ≠ 0 ∨ secOff img i < 0x100 ∨ secEnd img i > img.length then [0x50 + 8 * i] else []) ++
      (if secCount img i > maxCount i then [0x54 + 8 * i] else []) ++
      (if (List.range 8).any (fun j => decide (i < j) && decide (secCount img j ≠ 0) &&
            overlaps (secOff img i) (secEnd img i - secOff img i) (secOff img j) (secEnd img j - secOff img j)) then [0x50 + 8 * i]
       else []))

def chkModule (serial : BitVec 48) (img : List Byte) : List Nat :=
  if leAt img 0x40 6 = serial.toNat then [] else [0x40]

/-- `a` where the bytes at `a` are not all zero. -/
def nz (img : List Byte) (a n : Nat) : List Nat := if allZero ((img.drop a).take n) then [] else [a]

/-- Entries of a section. -/
def inEach (img : List Byte) (i : Nat) (f : Nat → List Nat) : List Nat :=
  (List.range (secCount img i)).flatMap (fun k => f (entryAt img i k))

def bad (b : Bool) (a : Nat) : List Nat := if b then [a] else []

/-- Value of a Z32 scalar; none is void. -/
def z32 (c : BitVec 32) : Val := decodeVal .z32 c.toNat

def chkPset (img : List Byte) (a : Nat) : List Nat :=
  let p := readPset img a
  let neg (v : Val) : Bool := match v with
    | some d => d.neg
    | none => false
  let one (v : Val) : Bool := match v with
    | some d => d.neg || !dyLt d ⟨false, 1, 0⟩
    | none => false
  let fl := p.flags.toNat
  let upd := fl % 4
  (List.range 7).flatMap (fun k => bad ((z32 (BitVec.ofNat 32 (leAt img (a + 4 * k) 4))).isNone) (a + 4 * k)) ++
  bad (neg (z32 p.lr)) a ++ bad (one (z32 p.beta1)) (a + 4) ++ bad (one (z32 p.beta2)) (a + 8) ++
  bad (decide (upd = 0) && (match z32 p.eps with | some d => d.neg || decide (d.m = 0) | none => false)) (a + 12) ++
  bad (neg (z32 p.wd)) (a + 16) ++ bad (neg (z32 p.gscale)) (a + 20) ++ bad (neg (z32 p.clip)) (a + 24) ++
  bad (decide (fl ≥ 256) || decide (upd ≥ 2) || decide (fl / 4 % 4 = 3) || decide (fl / 16 % 4 = 3)) (a + 28) ++ nz img (a + 0x20) 32

def chkCueReserved (img : List Byte) (a : Nat) : List Nat :=
  let c := readCue img a
  let k := cKind c
  bad (decide (fld c.w0 49 48 ≠ 0)) (a + 6) ++ bad (decide (fld c.w1 6 0 ≠ 0)) (a + 8) ++ bad (decide (fld c.w2 15 0 ≠ 0)) (a + 16) ++
  bad (!headed k && decide (k ≤ 8) && decide (cHid c ≠ 0)) (a + 4) ++
  bad (if k = cNop ∨ k = cReduce ∨ k = cBroadcast then decide (c.w3 ≠ 0)
       else if k = cReduceUpdate then decide (fld c.w3 63 32 ≠ 0) || decide (fld c.w3 15 8 ≠ 0)
       else if k = cProject then decide (fld c.w3 23 0 ≠ 0)
       else if k = cConvert then decide (fld c.w3 7 0 ≠ 0)
       else if k = cMove then
         (if cMoveOp c < 2 then decide (fld c.w3 8 0 ≠ 0) || decide (cPages c = 0) || decide (cPages c > 8192)
          else decide (cMoveOp c = 2) && decide (fld c.w3 43 0 ≠ 0))
       else if k = cCall then decide (fld c.w3 52 48 ≠ 0) || decide (fld c.w3 15 0 ≠ 0)
       else if k = cCurtain then decide (fld c.w3 63 56 ≠ 0) || decide (fld c.w3 54 48 ≠ 0) || decide (fld c.w3 31 0 ≠ 0)
       else false) (a + 24)

def chkReserved (img : List Byte) : List Nat :=
  let lib := byteAt img 0x48 == 1
  bad (lib && decide (leAt img 0x30 8 ≠ 0)) 0x30 ++ bad (lib && decide (leAt img 0x38 8 ≠ 0)) 0x38 ++
  nz img 0x46 2 ++ bad (decide ((byteAt img 0x48).toNat > 1)) 0x48 ++ nz img 0x49 7 ++ nz img 0xD0 48 ++
  inEach img 0 (fun a => bad (decide (leAt img a 2 ≥ 1024)) a ++
    bad (decide (leAt img (a + 2) 2 = 0) || decide (leAt img (a + 2) 2 > 8192)) (a + 2) ++ nz img (a + 4) 12) ++
  inEach img 1 (fun a => bad (decide (leAt img (a + 2) 2 ≥ 1024)) (a + 2) ++ bad (decide ((byteAt img (a + 4)).toNat ≥ 16)) (a + 4) ++
    bad (decide ((byteAt img (a + 5)).toNat ≥ 2)) (a + 5) ++ bad (decide ((byteAt img (a + 6)).toNat ≥ 64)) (a + 6) ++
    bad (decide ((byteAt img (a + 7)).toNat ≥ 128)) (a + 7) ++ bad (decide ((byteAt img (a + 0x18)).toNat ≥ 4)) (a + 0x18) ++
    nz img (a + 0x19) 1 ++ nz img (a + 0x1E) 2 ++ nz img (a + 0x28) 8) ++
  inEach img 4 (fun a => nz img (a + 12) 4) ++
  inEach img 5 (fun a => bad (decide ((byteAt img (a + 10)).toNat ≥ 16)) (a + 10) ++ nz img (a + 11) 1 ++ nz img (a + 14) 2) ++
  inEach img 6 (chkPset img) ++ inEach img 7 (chkCueReserved img)

/-! ### Checks 0x06 to 0x0E on the sheet -/

/-- Offsets of a sheet's entries. -/
structure Where where
  head : Nat → Nat
  set  : Nat → Nat
  repl : Nat → Nat
  pre  : Nat → Nat
  cue  : Nat → Nat

def whereOf (img : List Byte) : Where :=
  ⟨entryAt img 1, entryAt img 2, entryAt img 4, entryAt img 5, entryAt img 7⟩

/-- Cues with their index. -/
def cuesOf (sh : Sheet) : List (Nat × CueWord) := sh.cues.zipIdx.map (fun x => (x.2, x.1))
def headsOf (sh : Sheet) : List (Nat × SheetHead) := sh.heads.zipIdx.map (fun x => (x.2, x.1))

/-- OP CVT and SRC Z32: a conversion of W (R141). -/
def convFromW (cv : Conv) : Bool := decide (cv.op = 0) && decide (cv.src = 5)

/-- BAD_CONV (R55, R57, R111, R141, R163). The CONV of a cue whose KIND is reserved is not looked at (DESIGN CHOICE, log 87). -/
def chkConv (w : Where) (sh : Sheet) : List Nat :=
  (cuesOf sh).flatMap (fun x =>
    let c := x.2
    let k := cKind c
    let cv := cConv c
    let a := w.cue x.1
    if k > 8 then []
    else if !casting k then bad (decide (fld c.w2 63 48 ≠ 0)) (a + 22)
    else if !convValid cv then [a + 22]
    else if k = cConvert then []
    else if k = cBroadcast then bad (!convFromW cv) (a + 22)
    else match findHead sh (cHid c) with
      | none => []
      | some h =>
        if !h.2.root then []
        else if k = cReduceUpdate then bad (!convFromW cv) (a + 22)
        else if k = cReduce then match headFmt h.2 with
          | some f => bad (!(decide (cv.op = 1) && decide (cv.src = accOf f))) (a + 22)
          | none => []
        else bad (!(decide (cv.op = 1) && decide (cv.src = 6))) (a + 22) ++ bad (decide (cPrnd c = 3)) (a + 24))

/-- Round up to 4 KiB. -/
def up4k (n : Nat) : Nat := (n + 4095) / 4096 * 4096

/-- Is a head the head of a PROJECT cue at a root? -/
def projectRoot (sh : Sheet) (h : SheetHead) : Bool :=
  h.root && sh.cues.any (fun c => decide (cKind c = cProject) && cHid c == h.hid)

/-- Bytes of residuals (R172) and of scales (R85) that a head takes. -/
def residSize (sh : Sheet) (h : SheetHead) : Nat := if projectRoot sh h then up4k (2 * h.len) else 0
def scaleSize (h : SheetHead) : Nat := if headScaled h then up4k (blocksOf h.len) else 0

/-- HARNESS (R65, R163). -/
def chkHarness (w : Where) (sh : Sheet) : List Nat :=
  let hs := headsOf sh
  let clip (h : SheetHead) : Bool :=
    sh.cues.any (fun c => decide (cKind c = cReduceUpdate) && cHid c == h.hid && decide (cCallIdx c ≠ 0xFFFF))
  let sum (f : SheetHead → Nat) : Nat := sh.heads.foldl (fun a h => a + f h) 0
  hs.flatMap (fun x => bad (sh.heads.countP (fun h => h.hid == x.2.hid) > 1) (w.head x.1)) ++
  hs.flatMap (fun x => bad (!(decide (x.2.fmt.toNat < 4) || decide (x.2.fmt.toNat = 5))) (w.head x.1 + 4) ++
    bad (decide (x.2.len = 0) || decide (x.2.len > 2 ^ 32)) (w.head x.1 + 8) ++
    bad (decide (x.2.segwin = 0) || decide (x.2.segwin > 256)) (w.head x.1 + 0x1A)) ++
  bad (sum (·.segwin) > 32768) (w.head 0) ++
  (if sum (fun h => if clip h then h.segwin else 0) > 16383 then
     (hs.filter (fun x => clip x.2)).map (fun x => w.head x.1) ++
     ((cuesOf sh).filter (fun x => decide (cKind x.2 = cReduceUpdate) && decide (cCallIdx x.2 ≠ 0xFFFF))).map (fun x => w.cue x.1)
   else []) ++
  (if sum (residSize sh) + sum scaleSize > residBytes then
     (hs.filter (fun x => decide (residSize sh x.2 + scaleSize x.2 > 0))).map (fun x => w.head x.1)
   else [])

/-- BAD_KIND (R141, R178). -/
def chkKind (w : Where) (sh : Sheet) : List Nat :=
  (cuesOf sh).flatMap (fun x =>
    let c := x.2
    if cKind c > 8 then [w.cue x.1 + 7]
    else bad ((decide (cKind c = cCall) && (decide (cOp c > 3) || decide (cSrc c > 1))) ||
      (decide (cKind c = cMove) && decide (cMoveOp c > 2))) (w.cue x.1 + 24))

/-- Bytes of a range of `n` elements in working space under R60: the elements, and the scale bytes of a scaled one. -/
def rangeBytes (code n : Nat) : Nat :=
  let per := match code with
    | 8 => 4 | 9 => 8 | 10 => 8 | 11 => 12 | 6 => 8
    | _ => 0
  let body := match fmtOf code with
    | some .z48 => per * n
    | some f => codeBytes f n
    | none => per * n
  let scaled := decide (code < 3) || decide (code = 8) || decide (code = 9) || decide (code = 10)
  if scaled then (body + 63) / 64 * 64 + n / 64 else body

/-- Working space: 32 MiB (R19). -/
def wsBytes : Nat := 33554432

/-- Does the set a GIVEN cast needs exist with the right length (R56, R57, R60)? Offsets where it fails (DEDUCED, log 22). -/
def chkGiven (w : Where) (sh : Sheet) (x : Nat × CueWord) (blocks : Nat) (headAt : List Nat) : List Nat :=
  let c := x.2
  match sh.scaleSets[cCastset c]? with
  | none => [w.cue x.1 + 20]
  | some st => if st.2 = blocks then [] else [w.cue x.1, w.set (cCastset c)] ++ headAt

/-- BAD_REF of the heads, sets and replacements. -/
def chkRefHeads (w : Where) (sh : Sheet) : List Nat :=
  (headsOf sh).flatMap (fun x =>
    let h := x.2
    let a := w.head x.1
    let named := (cuesOf sh).filter (fun y => reducing (cKind y.2) && cHid y.2 == h.hid)
    (if named.length = 1 then [] else a :: named.map (fun y => w.cue y.1)) ++
    bad (!sh.companies.any (fun co => co.number == h.company)) (a + 2) ++
    (if headScaled h then match sh.scaleSets[h.scaleset]? with
       | none => [a + 0x1C]
       | some st => if st.2 = blocksOf h.len then [] else [a, w.set h.scaleset]
     else bad (decide (h.scaleset ≠ 0xFFFF)) (a + 0x1C))) ++
  (sh.scaleSets.zipIdx).flatMap (fun x => bad (decide (x.1.1 + x.1.2 > sh.scaleCount)) (w.set x.2)) ++
  (sh.repls.zipIdx).flatMap (fun x =>
    let r := x.1
    let a := w.repl x.2
    bad (decide (r.step ≤ sh.firstStep)) a ++
    (match findHead sh r.hid with
     | none => [a + 8]
     | some h => bad (!headScaled h.2) (a + 8) ++
       (match sh.scaleSets[r.set]? with
        | none => [a + 10]
        | some st => if st.2 = blocksOf h.2.len then [] else [a, w.set r.set, w.head h.1])))

/-- BAD_REF of a SUMSQ source (R178). -/
def chkSumsq (w : Where) (sh : Sheet) (x : Nat × CueWord) (tree : Nat × SheetHead) : List Nat :=
  let c := x.2
  let a := w.cue x.1
  match findHead sh (cShid c) with
  | none => [a + 24]
  | some src =>
    (if src.2.root then [] else [a, w.head src.1]) ++
    bad (!(decide (cOp c = 0) || decide (cOp c = 3)) || decide (cCount c ≠ 1)) (a + 24) ++
    (if src.2.company = tree.2.company then [] else [a, w.head src.1, w.head tree.1]) ++
    (cuesOf sh).flatMap (fun y =>
      if cKind y.2 = cReduceUpdate ∧ cHid y.2 = src.2.hid ∧ cCallIdx y.2 = x.1 ∧ segsOf src.2.len > src.2.segwin then
        [a, w.head src.1, w.cue y.1] else [])

/-- The uplink roles: UP and SPINE_UP (DEDUCED, log 89). -/
def uplinkRole (r : Nat) : Bool := decide (r = roleUp) || decide (r = roleSpineUp)

/-- BAD_REF of a PROJECT at a root (R163). An uplink port is one of an uplink role (DEDUCED, log 89). BANDROWS is the number of rows, the field of ARG plus 1 (DEDUCED, log 88). -/
def chkProject (w : Where) (s : State) (sh : Sheet) (x : Nat × CueWord) (h : Nat × SheetHead) : List Nat :=
  let c := x.2
  let a := w.cue x.1
  let r := cRank c
  (match findHead sh (cUhid c) with
   | none => [a + 24]
   | some u =>
     let uplink := uplinkRole (portRole s (Fin.ofNat 64 u.2.parent.toNat))
     let named := sh.cues.any (fun y => decide (cKind y = cReduce) && cHid y == u.2.hid)
     (if !u.2.root ∧ uplink ∧ (u.2.fmt = 0 ∨ u.2.fmt = 1) ∧ u.2.expected.getLsbD 64 ∧ named then [] else [a, w.head u.1]) ++
     (if u.2.len = (if r = 0 then h.2.len else h.2.len / cCols c * r) then [] else [a, w.head h.1, w.head u.1])) ++
  (if r = 0 then bad (decide (cColsField c ≠ 0) || decide (cBandrowsField c ≠ 0)) (a + 24)
   else (if h.2.len % cCols c = 0 then [] else [a, w.head h.1]) ++ bad (decide (cBandrows c * cCols c > 4194304)) (a + 24))

/-- BAD_REF of the cues (R57, R60, R138, R141, R163, R178). -/
def chkRefCues (w : Where) (s : State) (sh : Sheet) : List Nat :=
  let calls := (cuesOf sh).filter (fun x => decide (cKind x.2 = cCall) || decide (cKind x.2 = cCurtain))
  (if calls.length > 64 then calls.map (fun x => w.cue x.1) else []) ++
  (cuesOf sh).flatMap (fun x =>
    let c := x.2
    let a := w.cue x.1
    let k := cKind c
    let cv := cConv c
    let given := decide (cv.scl = 1)
    bad (decide (cLslot c ≠ 0xFFFF) && (decide (cLslot c ≥ sh.preGrants.length) || decide (cLclass c = 0))) (a + 18) ++
    (if headed k then match findHead sh (cHid c) with
       | none => [a + 4]
       | some h =>
         (if k = cReduceUpdate ∨ k = cBroadcast then
            match shardOf s (cHid c) with
            | some r => bad (decide (r.len ≠ h.2.len)) (a + 4)
            | none => [a + 4]
          else []) ++
         (if given ∧ (h.2.root ∨ k = cBroadcast) then
            if k = cReduce ∧ cv.dst = h.2.fmt.toNat ∧ cCastset c = 0xFFFF ∧ headScaled h.2 then []
            else chkGiven w sh x (blocksOf h.2.len) [w.head h.1]
          else []) ++
         (if k = cProject ∧ h.2.root then chkProject w s sh x h else [])
     else []) ++
    (if k = cReduceUpdate then
       bad (decide (cPset c ≥ sh.psets.length) ||
         (decide (cCallIdx c ≠ 0xFFFF) && (match sh.cues[cCallIdx c]? with
           | some y => decide (cKind y ≠ cCall)
           | none => true))) (a + 24)
     else if k = cMove then
       (if cMoveOp c < 2 then
          bad (decide (64 * cWsoff c + 4096 * cPages c > wsBytes) || decide (cPage c + cPages c > 262144)) (a + 24)
        else if cMoveOp c = 2 then bad (shardOf s (cZeroHid c)).isNone (a + 24)
        else [])
     else if k = cConvert then
       let n := 64 * cBlocks c
       let sb := rangeBytes cv.src n
       let db := rangeBytes cv.dst n
       bad (decide (cSrcOff c + sb > wsBytes) || decide (cDstOff c + db > wsBytes) || overlaps (cSrcOff c) sb (cDstOff c) db) (a + 24) ++
         (if given then chkGiven w sh x (cBlocks c) [] else [])
     else if k = cCall ∨ k = cCurtain then match findHead sh (cThid c) with
       | none => [a + 24]
       | some t => if k = cCall ∧ cSrc c = 1 then chkSumsq w sh x t else []
     else []))

/-- A member slot's port has a torus or uplink role (R120, R179) (DEDUCED, log 89). -/
def leadRole (s : State) (slot : Nat) : Bool :=
  decide (slot < 64) && (let r := portRole s (Fin.ofNat 64 slot); isTorus r || uplinkRole r)

/-- BAD_POLICY. -/
def chkPolicy (w : Where) (s : State) (sh : Sheet) : List Nat :=
  (headsOf sh).flatMap (fun x =>
    let h := x.2
    bad (h.leads.getLsbD 64 && !h.expected.getLsbD 64) (w.head x.1 + 0x18) ++
    bad ((List.range 64).any (fun i => (h.leads.getLsbD i && !h.expected.getLsbD i) ||
      (h.expected.getLsbD i && leadRole s i && !h.leads.getLsbD i))) (w.head x.1 + 0x20)) ++
  (cuesOf sh).flatMap (fun x =>
    let c := x.2
    let a := w.cue x.1
    if cKind c = cCall ∨ cKind c = cCurtain then
      bad (decide (cLate c ≠ 0)) (a + 7) ++ bad (decide (cMissN c ≠ 0) || decide (cLclass c ≠ 0)) (a + 6)
    else
      bad (decide (cLate c ≥ 2)) (a + 7) ++
        bad ((decide (cLate c = 1) && decide (cMissN c = 0)) || (decide (cLate c = 0) && decide (cMissN c ≠ 0))) (a + 6))

/-- TIMING. -/
def chkTiming (w : Where) (sh : Sheet) : List Nat :=
  if sh.liberty then []
  else
    bad (decide (sh.period = 0) || decide (sh.period ≥ 2 ^ 32)) 0x38 ++
    (cuesOf sh).flatMap (fun x => bad (decide (cOffset x.2 ≥ sh.period)) (w.cue x.1)) ++
    (sh.preGrants.zipIdx).flatMap (fun x => bad (decide (x.1.start + x.1.length > sh.period)) (w.pre x.2))

/-! ### Leave (R376 to R381) -/

/-- Class watts (Table Leave-1). -/
def classWatts : Nat → Nat
  | 1 => 24 | 2 => 40 | 3 => 72 | 4 => 55 | 5 => 110 | 6 => 220
  | _ => 0

/-- CAP in force, once a reading has arrived (R378). -/
def capNow (s : State) : Option Nat := s.rid.board.map (fun b =>
  let host := fld s.rid.ctrl 63 48
  max 600 (min 950 (if host = 0 then b.1 else min b.1 host)))

/-- POOL (R378). -/
def poolNow (s : State) : Nat := match capNow s with
  | some c => c - fld s.rid.ctrl 47 32
  | none => 0

/-- DIDT in force. -/
def didtNow (s : State) : Nat := match s.rid.board with
  | some b => b.2
  | none => 0

/-- Ticks that a pre-grant ramps. -/
def rampTicks (g : PreGrant) : Nat := if g.ramp = 0 then 0 else (g.watts + g.ramp - 1) / g.ramp * us

/-- LEAVE of the cues (R163, R377). -/
def chkLeaveCues (w : Where) (sh : Sheet) : List Nat :=
  (cuesOf sh).flatMap (fun x =>
    let c := x.2
    let k := cKind c
    let l := cLclass c
    bad (if k = cReduceUpdate then !(decide (1 ≤ l) && decide (l ≤ 3))
         else if k = cProject then (if cRank c = 0 then decide (l ≠ 0) else !(decide (4 ≤ l) && decide (l ≤ 6)))
         else decide (l ≠ 0)) (w.cue x.1 + 6) ++
    (if cLslot c = 0xFFFF then [] else match sh.preGrants[cLslot c]? with
     | some g => if g.lclass.toNat = l then [] else [w.cue x.1, w.pre (cLslot c)]
     | none => []))

/-- LEAVE of the pre-grant table against a pool and a di/dt limit. Sums are taken at the ticks of [0, PERIOD), of which a liberty sheet
has none (R381) (DEDUCED, log 97). -/
def chkLeaveTable (w : Where) (pool didt : Nat) (sh : Sheet) : List Nat :=
  let inStep (t : Nat) : Bool := decide (t < sh.period)
  let at' (t : Nat) : Nat := (sh.preGrants.filter (fun g => decide (g.start ≤ t) && decide (t < g.start + g.length))).foldl (fun a g => a + g.watts) 0
  let rampAt (t : Nat) : Nat :=
    (sh.preGrants.filter (fun g => decide (g.start ≤ t) && decide (t < g.start + rampTicks g))).foldl (fun a g => a + g.ramp) 0
  (sh.preGrants.zipIdx).flatMap (fun x =>
    let g := x.1
    bad (decide (g.lclass = 0) || decide (g.lclass.toNat > 6) || decide (g.watts < classWatts g.lclass.toNat) ||
      decide (g.ramp = 0) || decide (g.ramp > didt) || decide (g.length < rampTicks g) ||
      sh.preGrants.any (fun o =>
        (inStep o.start && decide (g.start ≤ o.start) && decide (o.start < g.start + g.length) && decide (at' o.start > pool)) ||
        (inStep o.start && decide (g.start ≤ o.start) && decide (o.start < g.start + rampTicks g) && decide (rampAt o.start > didt)) ||
        (inStep g.start && decide (o.start ≤ g.start) && decide (g.start < o.start + o.length) && decide (at' g.start > pool)) ||
        (inStep g.start && decide (o.start ≤ g.start) && decide (g.start < o.start + rampTicks o) && decide (rampAt g.start > didt))))
      (w.pre x.2))

/-! ### The result -/

/-- What a check of a sheet gives. -/
inductive SheetCheck where
  | accepted
  | refused (reason whereAt : Nat)
  | waiting
  deriving DecidableEq, Repr

/-- First failing reason of a list, with its lowest WHERE (DEDUCED, log 21). -/
def firstBad : List (Nat × List Nat) → Option (Nat × Nat)
  | [] => none
  | (_, []) :: r => firstBad r
  | (c, a :: l) :: _ => some (c, l.foldl min a)

/-- The checks of the image up to the pre-grant table (Table Cue-6, R109) (DEDUCED, log 21). -/
def checkImage (s : State) (img : List Byte) : Option (Nat × Nat) :=
  if img.length < 256 then some (0x03, 8)
  else match firstBad [(0x01, chkMagic img), (0x02, chkVersion img), (0x03, chkLayout img)] with
    | some b => some b
    | none => match firstBad [(0x04, chkModule s.fuses.serial img), (0x05, chkReserved img)] with
      | some b => some b
      | none =>
        let sh := readSheet img
        let w := whereOf img
        firstBad [(0x06, chkConv w sh), (0x07, chkHarness w sh), (0x08, chkKind w sh),
          (0x09, chkRefHeads w sh ++ chkRefCues w s sh), (0x0A, chkPolicy w s sh), (0x0B, chkTiming w sh)]

/-- The check of a sheet at load (R109, R381): `running` is whether a run is active. -/
def checkSheet (s : State) (img : List Byte) : SheetCheck :=
  match checkImage s img with
  | some b => .refused b.1 b.2
  | none =>
    let sh := readSheet img
    let w := whereOf img
    let cues := chkLeaveCues w sh
    let noReading := !sh.preGrants.isEmpty && s.rid.board.isNone
    if noReading ∧ !s.rid.lost then .waiting
    else
      let table := if sh.preGrants.isEmpty then [] else if noReading then [0] else chkLeaveTable w (poolNow s) (didtNow s) sh
      match firstBad [(0x0C, cues ++ table)] with
      | some b => .refused b.1 b.2
      | none =>
        if !sh.liberty ∧ s.stg.st ≠ .machine then .refused 0x0D 0
        else if s.cue.run.isSome then .refused 0x0E 0
        else .accepted

/-- The check at the start of a run: the same, then LATE_START (R109). -/
def checkStart (s : State) (img : List Byte) : SheetCheck :=
  match s.cue.sheet with
  | none => .refused 0x10 0
  | some sh => match checkSheet s img with
    | .accepted => if !sh.liberty ∧ s.stg.now.toNat + 2000000 > sh.baseTick then .refused 0x0F 0 else .accepted
    | r => r

end Sys2Proof.Machine
end

