-- ==== Sys2Proof/Machine/CueLook.lean ====
section
/-! DEFINITION. Looking up the cues, heads and open steps of the loaded sheet, and the status word of an instance
(04_cues_and_stage_clock.md R112 to R124, R129). -/

namespace Sys2Proof.Machine

/-! ### Looking things up -/

def cueWord (s : State) (c : Nat) : Option CueWord := s.cue.sheet.bind (fun sh => sh.cues[c]?)
def sheetHead (s : State) (h : Nat) : Option SheetHead := s.cue.sheet.bind (fun sh => sh.heads[h]?)

def openStep (s : State) (n : Nat) : Option OpenStep := s.cue.run.bind (fun r => r.steps.find? (fun o => decide (o.step = n)))
def instOf (s : State) (n c : Nat) : Option Inst := (openStep s n).bind (fun o => o.insts[c]?)

def modRun (f : Run → Run) (s : State) : State := { s with cue := { s.cue with run := s.cue.run.map f } }
def modOpen (n : Nat) (f : OpenStep → OpenStep) : State → State :=
  modRun (fun r => { r with steps := modFirst (fun o => decide (o.step = n)) f r.steps })
def modInst (n c : Nat) (f : Inst → Inst) : State → State := modOpen n (fun o => { o with insts := o.insts.modify c f })
def cueSticky (bit : Nat) (s : State) : State :=
  fresh .cueSticky 0 (bitOf bit) { s with cue := { s.cue with sticky := s.cue.sticky ||| BitVec.ofNat 7 (1 <<< bit) } }

/-- STG_STICKY bits (Table Cue-17). -/
def stgSticky (bit : Nat) (s : State) : State :=
  fresh .stgSticky 0 (bitOf bit) { s with stg := { s.stg with sticky := s.stg.sticky ||| BitVec.ofNat 6 (1 <<< bit) } }

/-- Projection sticky flags, and those of Table Formats-7. -/
def prjFlags (v : BitVec 8) (s : State) : State :=
  fresh .prjSticky 0 (v.setWidth 64) { s with prj := { s.prj with sticky := s.prj.sticky ||| v } }

/-! ### Instances -/

def stCode : InstSt → Nat
  | .idle => 0 | .running => 1 | .late => 2 | .waiting => 3 | .done => 4 | .failed => 5

/-- CUE_STATUS of an instance (Table Cue-24). -/
def cueStatus (n : Nat) (i : Inst) : W64 :=
  put (stCode i.st) 4 60 ||| put i.fmtFlags.toNat 5 55 ||| putB i.late 54 ||| putB i.waited 53 ||| putB i.leftOut 52 |||
    putB i.leaveOverrun 51 ||| put i.laggard 7 43 ||| put i.missing 7 36 ||| put n 32 0

/-- Send the CUE event of an instance (R129, Table Host-12). -/
def cueEvent (n c : Nat) (s : State) : State := match instOf s n c with
  | some i => hostEvent 0x01 (leBytes 2 c ++ zeros 6 ++ leBytes 8 (cueStatus n i).toNat) s
  | none => s

end Sys2Proof.Machine
end

