-- ==== Sys2Proof/Machine/ResetOps.lean ====
section
/-! DEFINITION. What each reach resets, and how a unit, the Prompter and a pass fail (17_reset_and_bringup.md R423 to
R431, 16_faults.md R410). -/

namespace Sys2Proof.Machine

/-! ### ALIVE (R413) -/

/-- Does a source hold ALIVE stopped (Table Faults-3)? -/
def aliveStopped (s : State) : Bool := s.flt.sources.toList.any (fun x => x.aliveHeld)

/-- A reset that reaches the Prompter is asserted, or the warm entry sequence runs (R413, R427). -/
def prompterReached (s : State) : Bool := s.rst.held || s.rst.warmAt.isSome

/-- The three conditions of R413. -/
def aliveOk (s : State) : Bool := decide (s.door.st = .running) && !aliveStopped s && !prompterReached s

/-- Drive ALIVE low at once where a condition no longer holds (R413). -/
def checkAlive (s : State) : State :=
  if aliveOk s then s
  else
    let s := if s.door.level then emit (.alive false) s else s
    { s with door := { s.door with aliveOn := false, level := false } }

/-! ### Units of Table Reset-12 -/

def unitTeam (e : Nat) : Nat := e
def unitArray (a : Nat) : Nat := 8 + a
def unitGroom : Nat := 12
def unitWardrobe : Nat := 13
def unitDigest : Nat := 14
def unitOutrider : Nat := 15
def unitCallboard : Nat := 16
def unitMac (p : Nat) : Nat := 17 + p

/-- Is a unit's wrapper closed: held in reset by any setter, or in the warm entry sequence (R427, R429, R430)? (DEDUCED, log 25). -/
def unitHeld (s : State) (u : Nat) : Bool := (s.rst.block ||| s.rst.reactBlock).getLsbD u || s.rst.warmAt.isSome

/-- Is a unit unable to take new work: held in reset, or fenced (R410, R430)? (DEDUCED, log 25). -/
def teamOut (s : State) (e : Nat) : Bool := unitHeld s (unitTeam e) || s.flt.team.getLsbD e
def arrayOut (s : State) (a : Nat) : Bool := unitHeld s (unitArray a) || s.flt.array.getLsbD a

/-- Discard the passes that run on an array; their tiles are issued again (R410, R411, R431). -/
def failPasses (a : Nat) (s : State) : State :=
  let gone := s.prj.running.filter (fun p => p.array.val = a)
  { s with
    prj := { s.prj with
      running := s.prj.running.filter (fun p => !decide (p.array.val = a))
      bands := s.prj.bands.map (fun b =>
        { b with issued := b.issued.filter (fun t => !gone.any (fun p =>
            decide (p.head = b.head) && decide (p.step = b.step) && decide (p.band = b.band) && decide (p.tile = t))) }) }
    rid := { s.rid with grants := s.rid.grants.map (fun g =>
      let n := gone.countP (fun p => decide (p.grant = g.id))
      { g with inFlight := g.inFlight - n, lastEnd := if n = 0 then g.lastEnd else s.time }) } }

/-- Change the selector copies of every requester (R448). -/
def modAllSel (f : Selectors → Selectors) (s : State) : State :=
  { s with
    host := { s.host with sessions := s.host.sessions.map (fun x => { x with sel := f x.sel }) }
    prm := { s.prm with sel := f s.prm.sel } }

/-- A unit's registers and state at their reset values (R430). The zero fills of the Groom engine's shards are the Carriage's and
go on (R137). -/
def resetUnit (u : Nat) (s : State) : State :=
  if 8 ≤ u ∧ u < 12 then failPasses (u - 8) s
  else if u = unitGroom then { s with grm := { fills := s.grm.fills } }
  else if u = unitWardrobe then { s with wdr := {} }
  else if u = unitDigest then { s with dig := {} }
  else if u = unitOutrider then
    modAllSel (fun x => { x with outr := 0 })
      { s with outr := {}, harn := { s.harn with heads := s.harn.heads.map (fun h => { h with baseline := {} }) } }
  else if u = unitCallboard then modAllSel (fun x => { x with call := 0 }) { s with callb := {} }
  else if u = unitMac 0 then modEth 0 (fun _ => {}) s
  else if u = unitMac 1 then modEth 1 (fun _ => {}) s
  else s

/-- Units whose bit stood in `was` and is 0 now come back at their reset values (R430, R445). -/
def releaseUnits (was : BitVec 19) (s : State) : State :=
  ((List.range 19).filter (fun u => was.getLsbD u && !(s.rst.block ||| s.rst.reactBlock).getLsbD u)).foldl (fun s u => resetUnit u s) s

/-! ### Pins (R368, R435, R457, Table Reset-4) -/

/-- Pins of Table Reset-4 with an internal pull, in ohms. -/
inductive PinPull where
  | up (ohms : Nat) | down (ohms : Nat) | none
  deriving DecidableEq, Repr

/-- The control and storage pins of Table Reset-4. -/
inductive CtlPin where
  | resetN | warmN | configStrap | alive | flashSck | flashIo | flashCsN | eqScl | eqSda
  deriving DecidableEq, Repr

def pinPull : CtlPin → PinPull
  | .resetN | .warmN => .up 20000
  | .configStrap => .up 200000
  | .alive => .down 100000
  | .flashCsN => .up 50000
  | .flashSck | .flashIo | .eqScl | .eqSda => .none

/-- The SPI flash lines, or those of the equalisation EEPROM, are driven or let go. -/
def setSpi (on : Bool) (s : State) : State :=
  if s.rst.spi = on then s else emit (.spi on) { s with rst := { s.rst with spi := on } }
def setEeprom (on : Bool) (s : State) : State :=
  if s.rst.eeprom = on then s else emit (.eeprom on) { s with rst := { s.rst with eeprom := on } }

/-! ### The Prompter -/

/-- Reset the Prompter: every session closes, its commands end with it, KEYMEM is zero; retained memory stays (R328, R354,
R417, Table Reset-2) (DEDUCED, log 68). -/
def resetPrompter (s : State) : State :=
  { s with
    prm := { retained := s.prm.retained, released := s.prm.released }
    host := { s.host with
      sessions := [], mboxes := Vector.replicate 64 ({} : Mailbox), cmds := [], installed := [], authFails := [], lockUntil := none, key := []
      sticky := 0, dropped := 0, authFail := 0, overrun := 0, evLost := 0 }
    flt := { s.flt with intr := 0, nmiAt := none } }

/-! ### Reaches (Table Reset-2) -/

/-- What WARM reach and every wider reach resets; with the run gone, a fence that only waited for a step boundary is lifted (R412)
(DEDUCED, log 38). -/
def resetWarm (s : State) : State :=
  let s := checkAlive { s with door := { s.door with st := .off, run := 0 } }
  let s := setEeprom false (setSpi false (resetPrompter s))
  { s with
    flt := { s.flt with
      team := s.flt.team &&& ~~~s.flt.liftTeam, array := s.flt.array &&& ~~~s.flt.liftArray, liftTeam := 0, liftArray := 0 }
    ws := [], stg := {}, cue := {}, callb := {}, harn := {}, wdr := {}, grm := {}, prj := {}, outr := {}, dig := {}
    lane := { s.lane with
      lanes := s.lane.lanes.map (fun l => ({ entry := l.entry } : Lane)), ports := Vector.replicate 64 ({} : LanePort) }
    link := Vector.replicate 64 ({} : LinkPort), swc := {}, sched := {}, topo := {}, host := {}, rid := {}
    prm := { retained := s.prm.retained }
    rst := { s.rst with
      held := true, exiting := false, ready := false, memReady := false, optDone := false, ondie := false, refLock := false
      block := 0, reactBlock := 0, reactEnds := [], warmAt := none, warmFor := 0, trained := false
      end5 := if s.rst.warmFor.getLsbD 5 then s.time + ms else s.rst.end5
      end6 := if s.rst.warmFor.getLsbD 6 then s.time + ms else s.rst.end6 } }

/-- What COLD reach adds: the data space is zero, the strap and the equalisation table are read again. -/
def resetCold (s : State) : State :=
  let s := resetWarm s
  { s with
    dram := []
    lane := {}
    rst := { s.rst with choice := 0, code := 0 } }

/-- What POWER reach adds: the always-on domain. -/
def resetPower (s : State) : State :=
  let s := resetCold s
  { s with
    prm := {}, door := {}, flt := {}
    rst := { s.rst with sticky := 0, exits := 0, backup := Vector.replicate 16 0, causeReach := 0, causeSeen := 0
                        optRestarts := 0, exit := 0 } }

/-- Rank of a reach, and the reach field code (Table Reset-8). -/
def reachRank : Reach → Nat
  | .block => 0 | .warm => 1 | .cold => 2 | .power => 3

/-- RST_STICKY bits (Table Reset-7). -/
def rstSticky (bits : BitVec 5) (s : State) : State :=
  fresh .rstSticky 0 (bits.setWidth 64) { s with rst := { s.rst with sticky := s.rst.sticky ||| bits } }

/-- The wider of two reaches. -/
def wider (a b : Reach) : Reach := if reachRank a < reachRank b then b else a

/-- The reach of a source of Table Reset-1. -/
def sourceReach (b : Fin 7) : Reach :=
  if b.val = 0 then .power else if b.val = 1 ∨ b.val = 2 ∨ b.val = 4 then .cold else .warm

/-- Reach of the exit in progress (RST_STATUS.EXIT). -/
def exitReach (s : State) : Reach := if s.rst.exit = 3 then .power else if s.rst.exit = 2 then .cold else .warm

/-- Option loading that a reset cut short starts again: it is counted, by a POWER reset too, whose reset values come first (R434). -/
def cutOption (cut : Bool) (s : State) : State :=
  if cut then
    rstSticky 4 { s with
      rst := { s.rst with optRestarts := satAdd 0xFF s.rst.optRestarts 1 }
      lane := { s.lane with loaded := false, useDefault := false, entryBad := false } }
  else s

/-- What a reach resets. -/
def resetReach (r : Reach) (s : State) : State := match r with
  | .power => resetPower s
  | .cold => resetCold s
  | .warm => resetWarm s
  | .block => s

/-- A reset of a reach takes effect. -/
def takeReach (r : Reach) (s : State) : State :=
  cutOption (!s.rst.held && !s.rst.optDone) (resetReach r { s with rst := { s.rst with widest := wider s.rst.widest r } })

/-- Mark a source asserted and seen. -/
def markSource (b : Fin 7) (s : State) : State :=
  { s with rst := { s.rst with asserted := s.rst.asserted ||| BitVec.ofNat 7 (1 <<< b.val)
                               seen := s.rst.seen ||| BitVec.ofNat 8 (1 <<< b.val) } }

/-- Start of the 1 ms of SW_COLD, SW_WARM or FAULT_WARM. -/
def startTimer (b : Fin 7) (s : State) : State :=
  if b.val = 4 then { s with rst := { s.rst with end4 := s.time + ms } }
  else if b.val = 5 then { s with rst := { s.rst with end5 := s.time + ms } }
  else if b.val = 6 then { s with rst := { s.rst with end6 := s.time + ms } }
  else s

/-- A COLD or POWER source is asserted: its reach takes effect at once, and stops a warm entry sequence and an exit
(R425, R427). A reach counts as at least that of an exit it stops. -/
def assertWide (b : Fin 7) (s : State) : State :=
  let r := if s.rst.exiting then wider (sourceReach b) (exitReach s) else sourceReach b
  startTimer b (takeReach r (markSource b s))

/-- A WARM source is asserted (R427): during a COLD or POWER exit it counts with that exit's reach; in a module that is
already held it takes effect at once; otherwise the warm entry sequence runs first, every wrapper closes, and RST_BLOCK clears (R439). -/
def assertWarm (b : Fin 7) (s : State) : State :=
  let s := markSource b s
  if s.rst.exiting && decide (reachRank (exitReach s) ≥ 2) then
    let s := takeReach (exitReach s) s
    startTimer b (rstSticky 2 s)
  else if s.rst.held && !s.rst.exiting then startTimer b (takeReach .warm s)
  else
    let s := { s with rst := { s.rst with
                block := 0, reactBlock := 0, reactEnds := []
                exiting := false, warmAt := some (s.rst.warmAt.getD s.time), warmFor := s.rst.warmFor ||| BitVec.ofNat 7 (1 <<< b.val) } }
    checkAlive s

end Sys2Proof.Machine
end

