-- ==== Sys2Proof/Machine/Faults.lean ====
section
/-! DEFINITION. Raising a fault source and its reactions, fences, and the stage door's restart (16_faults.md R403 to R417). -/

namespace Sys2Proof.Machine

def srcStagePll : SrcId := 0x00
def srcStageHold : SrcId := 0x01
def srcLane : SrcId := 0x03
def srcLink : SrcId := 0x04
def srcArenaCorr : SrcId := 0x07
def srcArenaUncorr : SrcId := 0x08
def srcDramCorr : SrcId := 0x09
def srcDramUncorr : SrcId := 0x0A
def srcTeam : SrcId := 0x0B
def srcArray : SrcId := 0x0C
def srcOutrider : SrcId := 0x0D
def srcMirror : SrcId := 0x0E
def srcBox : SrcId := 0x0F
def srcThermWarn : SrcId := 0x10
def srcThermTrip : SrcId := 0x11
def srcSupply : SrcId := 0x12
def srcPrompterEcc : SrcId := 0x13
def srcFwFatal : SrcId := 0x14
def srcHeartbeat : SrcId := 0x15

/-- Level sources (Table Faults-1). -/
def isLevel (i : SrcId) : Bool := [0x00, 0x01, 0x0F, 0x10, 0x11, 0x12].contains i.val

/-- Allowed reactions (Table Faults-1); none for HEARTBEAT, whose reaction is fixed. -/
def allowedReacts (i : SrcId) : List Nat :=
  match i.val with
  | 0x00 | 0x06 | 0x08 | 0x0A => [0, 1, 2, 5, 6]
  | 0x0B | 0x0C => [1, 2, 3, 4, 6]
  | 0x0D => [0, 1, 2, 6]
  | 0x11 => [2, 5, 6]
  | 0x12 | 0x16 => [1, 2, 5, 6]
  | 0x13 => [2, 4, 6]
  | 0x14 => [4, 5, 6]
  | 0x15 => []
  | _ => [0, 1]

/-- How many INDEX values a source uses (Table Faults-1). -/
def indexCount (i : SrcId) : Nat :=
  match i.val with
  | 0x02 | 0x03 | 0x04 | 0x0B | 0x12 => 8
  | 0x09 | 0x0A => 16
  | 0x0C | 0x15 => 4
  | 0x16 => 6
  | _ => 1

/-! ### Recovery stop (R315) -/

/-- A cue instance ends FAILED at a recovery stop. -/
def failInst (i : Inst) : Inst :=
  if i.st = .done ∨ i.st = .failed then i else { i with st := .failed }

/-- Instances of the open steps end FAILED; under NOTIFY the host is told of the end (R124, R129). -/
def failInsts (p : Inst → Bool) (s : State) : State :=
  let gone := ((s.cue.run.map (·.steps)).getD []).flatMap (fun o =>
    (o.insts.filter (fun i => p i && decide (i.st ≠ .done) && decide (i.st ≠ .failed))).map (fun i => (o.step, i.cue)))
  let fail (o : OpenStep) : OpenStep := { o with insts := o.insts.map (fun i => if p i then failInst i else i) }
  gone.foldl (fun s x => if (cueWord s x.2).any cNotify then cueEvent x.1 x.2 s else s)
    (modRun (fun r => { r with steps := r.steps.map fail }) s)

/-- Start the recovery drain of an active run: nothing launches or opens, open cues end FAILED, waiting calls, curtains and
contributions are abandoned (R315, R342). -/
def beginRecovery (s : State) : State :=
  match s.cue.run with
  | none => s
  | some r =>
    if r.ending = .recovery then s
    else
      failInsts (fun _ => true) { s with
        cue := { s.cue with run := some { r with ending := .recovery, drainAt := s.time } }
        -- a result that is held stays the token of the updates that go on (R142)
        callb := { s.callb with ctxs := s.callb.ctxs.filter (·.result.isSome), sums := [], held := [] }
        harn := { s.harn with intake := [] } }

/-! ### Fences (R410, R412) -/

/-- Would fencing leave no Team engine, or no array, unfenced? -/
def lastTeam (s : State) (e : Nat) : Bool := (List.range 8).all (fun k => decide (k = e) || s.flt.team.getLsbD k)
def lastArray (s : State) (a : Nat) : Bool := (List.range 4).all (fun k => decide (k = a) || s.flt.array.getLsbD k)

/-- Fence the unit that a TEAM or ARRAY raise names. -/
def fenceUnit (src : SrcId) (idx : Nat) (s : State) : State :=
  if src = srcTeam then
    let bit : BitVec 8 := BitVec.ofNat 8 (1 <<< idx)
    modSource src (fun x => { x with teamHeld := x.teamHeld ||| bit })
      { s with flt := { s.flt with team := s.flt.team ||| bit, liftTeam := s.flt.liftTeam &&& ~~~bit } }
  else if src = srcArray then
    let bit : BitVec 4 := BitVec.ofNat 4 (1 <<< idx)
    modSource src (fun x => { x with arrayHeld := x.arrayHeld ||| bit })
      (failPasses idx { s with flt := { s.flt with array := s.flt.array ||| bit, liftArray := s.flt.liftArray &&& ~~~bit } })
  else s

/-- Would this fence be refused (R410)? -/
def fenceRefused (src : SrcId) (idx : Nat) (s : State) : Bool :=
  if src = srcTeam then lastTeam s idx else if src = srcArray then lastArray s idx else false

/-! ### Raising a source -/

/-- FLT_FIRST latches the first raise, and of those of one AO cycle the one with the lowest source code (R408). -/
def latchFirst (src : SrcId) (w : W64) (s : State) : State :=
  let now := s.time / aoCycle
  let lower := decide (s.flt.firstAt = some now) && decide (src.val < fld s.flt.first 62 58)
  if s.flt.first.getLsbD 63 && !lower then s else { s with flt := { s.flt with first := w, firstAt := some now } }

/-- Count, log and latch one raise; the state, and whether its reaction runs (R404, R405, R408, R418). `react` is the
reaction applied, for the log (R419, R421, R422). -/
def countRaise (type : Nat) (r : Raise) (react : Nat) (s : State) : State × Bool :=
  let x := s.flt.sources[r.src.val]
  if x.st = .active ∧ isLevel r.src then (s, false)
  else
    let fresh := decide (x.st ≠ .active)
    let first : W64 := ones 63 63 ||| put r.src.val 5 58 ||| put r.index.toNat 4 54 ||| put react 3 51 ||| put s.stg.now.toNat 48 0
    let s := queueLog type r.src react r.index.toNat r.sticky r.addr s
    let s := modSource r.src (fun y => { y with
      st := .active, index := r.index, events := satAdd 0xFFFF y.events 1, since := s.time
      applied := if fresh then react else y.applied
      told := y.told || decide (react ≥ 1) }) s
    (latchFirst r.src first s, fresh)

/-- A maskable interrupt to the Prompter. -/
def interrupt (i : SrcId) (s : State) : State :=
  emit (.interrupt i) { s with flt := { s.flt with intr := s.flt.intr ||| BitVec.ofNat 32 (1 <<< i.val) } }

/-- ALIVE stops for as long as the source is not OK. -/
def holdAlive (i : SrcId) (s : State) : State := checkAlive (modSource i (fun x => { x with aliveHeld := true }) s)

/-- The stage door's restart sequence, or GIVEN_UP (R415, R416, Table Faults-6). -/
def doorRestart (cause : Nat) (s : State) : State :=
  let limit := max 1 (fld s.flt.ctrl 27 24)
  if s.door.st = .givenUp ∨ s.door.st = .off then s
  else if s.door.run.toNat ≥ limit then
    resetPrompter (checkAlive { s with door := { s.door with st := .givenUp } })
  else
    let s := checkAlive { s with door := { s.door with
      st := .restarting, cause := BitVec.ofNat 2 cause, run := s.door.run + 1, restarts := satAdd 0xFFFF s.door.restarts 1
      restartAt := s.time } }
    let s := modSource srcHeartbeat (fun x => { x with aliveHeld := true })
      (countRaise 0x01 { src := srcHeartbeat, index := BitVec.ofNat 4 cause } 0 s).1
    let s := queueLog 0x03 srcHeartbeat 0 cause 0 0 s
    resetPrompter s

/-- Raise STOP_ALIVE's effect (Table Faults-3). -/
def stopAlive (i : SrcId) (s : State) : State := interrupt i (beginRecovery (holdAlive i s))

/-- The FAULT event of a raise with reaction 1 or above, except WARM (Table Faults-9). -/
def faultEvent (r : Raise) (react : Nat) (seq : W64) (s : State) : State :=
  if react = 0 ∨ react = 5 then s
  else hostEvent 0x10 (leBytes 1 r.src.val ++ leBytes 1 r.index.toNat ++ leBytes 1 react ++ [1] ++ zeros 4 ++
    leBytes 8 seq.toNat) s

/-- A BLOCK_RESET sets a unit's bit for 1 µs; under a wider reset the bit is cleared with it (R426, R429). -/
def holdUnit (u : Nat) (s : State) : State :=
  if s.rst.held || s.rst.warmAt.isSome then s
  else resetUnit u { s with rst := { s.rst with
    reactBlock := s.rst.reactBlock ||| BitVec.ofNat 19 (1 <<< u)
    reactEnds := s.rst.reactEnds.filter (fun x => !decide (x.1 = u)) ++ [(u, s.time + us)] } }

/-- Was a source raised, from a state other than ACTIVE, in this AO cycle with a reaction? -/
def tookNow (s : State) (code : Nat) (x : Source) : Bool :=
  decide (x.st = .active) && decide (x.applied = code) && decide (x.since / aoCycle = s.time / aoCycle)

/-- A WARM reaction fell due in this AO cycle (R408). -/
def warmNow (s : State) : Bool := s.flt.sources.toList.any (tookNow s 5)

/-- STOP_ALIVE reactions of this AO cycle, beside which a WARM one falls due, hold ALIVE no longer; the recovery drain that one of them
has begun ends with the warm reset (R408) (DESIGN CHOICE, log 110). -/
def dropStops (s : State) : State :=
  { s with flt := { s.flt with sources := s.flt.sources.map (fun x => if tookNow s 6 x then { x with aliveHeld := false } else x) } }

/-- The reaction that a raise takes: STOP_ALIVE where a fence is refused (R410). -/
def codeFor (r : Raise) (code : Nat) (s : State) : Nat :=
  if (code = 3 ∨ code = 4) ∧ fenceRefused r.src r.index.toNat s then 6 else code

/-- The effect of a reaction (Table Faults-3). `warm`: a WARM reaction falls due in the same cycle, so STOP_ALIVE is not
applied (R408). -/
def react (warm : Bool) (r : Raise) (code : Nat) (s : State) : State :=
  let stop (s : State) := if warm then s else stopAlive r.src s
  match code with
  | 1 => interrupt r.src s
  | 2 => emit (.nmi r.src) { s with flt := { s.flt with nmiAt := some (s.flt.nmiAt.getD s.time) } }
  | 3 => interrupt r.src (fenceUnit r.src r.index.toNat s)
  | 4 =>
    if r.src = srcPrompterEcc ∨ r.src = srcFwFatal then doorRestart 3 (interrupt r.src s)
    else if r.src ≠ srcTeam ∧ r.src ≠ srcArray then s
    else
      let s := interrupt r.src (fenceUnit r.src r.index.toNat s)
      holdUnit (if r.src = srcTeam then unitTeam r.index.toNat else unitArray r.index.toNat) s
  | 5 => assertWarm 6 (holdAlive r.src (dropStops s))
  | 6 => stop s
  | _ => s

/-- The reaction in force for a source: none of its own for HEARTBEAT. -/
def reactOf (s : State) (i : SrcId) : Nat := (s.flt.sources[i.val]).react.toNat

/-- SEQ of the log record that a raise queues; open where no record is queued (DESIGN CHOICE, log 47). -/
def logSeqNow (s : State) (r : Raise) : W64 :=
  if s.flt.queue.length < 256 ∧ !(decide ((s.flt.sources[r.src.val]).st = .active) && isLevel r.src) then s.flt.logSeq
  else (freeNow s).setWidth 64

/-- Raise one source; `type` is its log TYPE (R406). HEARTBEAT is raised only by the stage door (DEDUCED, log 37). -/
def raiseAs (type : Nat) (warm : Bool) (r : Raise) (s : State) : State :=
  if r.src = srcHeartbeat then s
  else
    let code := codeFor r (reactOf s r.src) s
    let warm := warm || warmNow s
    let seq := logSeqNow s r
    let c := countRaise type r code s
    let s := if (s.flt.sources[r.src.val]).st = .active ∧ isLevel r.src then drawn c.1 else faultEvent r code seq (drawn c.1)
    if c.2 then react warm r code s else s

/-- A unit raises a source. -/
def raise (r : Raise) (s : State) : State := raiseAs 0x01 false r s

/-- Several sources raised together: each takes its own reaction, the lowest first (R408). -/
def raiseAll (rs : List Raise) (s : State) : State :=
  let sorted := sortBy (fun a b => decide (a.src.val ≤ b.src.val)) rs
  let warm := sorted.any (fun r => decide (reactOf s r.src = 5) && decide ((s.flt.sources[r.src.val]).st ≠ .active))
  sorted.foldl (fun s r => raiseAs 0x01 warm r s) s

/-- A level source's condition is gone, or a reaction has completed (Table Faults-2). -/
def toQuiet (i : SrcId) (s : State) : State :=
  modSource i (fun x => if x.st = .active then { x with st := .quiet, since := s.time } else x) s

end Sys2Proof.Machine
end

