-- ==== Sys2Proof/Machine/SwitchOps.lean ====
section
/-! DEFINITION. The switch core's shared operations: buffer shares, credit release, routing, mirroring and how a frame
enters the core (11_switch_core_and_traffic.md R264 to R287, R290, R291). -/

namespace Sys2Proof.Machine

/-- Set bits of SWC_STICKY. -/
def swcSticky (bit : Nat) (s : State) : State :=
  fresh .swcSticky 0 (bitOf bit) { s with swc := { s.swc with sticky := s.swc.sticky ||| BitVec.ofNat 12 (1 <<< bit) } }

def bPushout : Nat := 0
def bTaildrop : Nat := 1
def bAged : Nat := 2
def bPoliced : Nat := 3
def bOverrun : Nat := 4
def bBadClass : Nat := 5
def bNoroute : Nat := 6
def bReroute : Nat := 7
def bMcastLost : Nat := 8
def bBypass : Nat := 9
def bMirrorDrop : Nat := 10
def bCreditBad : Nat := 11

/-! ### Buffer shares (R270 to R272) -/

/-- Cells that count against an admission share. -/
def shareUsed (s : State) (sh : Share) : Nat :=
  (s.swc.bufs.filter (fun b => decide (b.share = sh) && decide (b.waiting > 0))).foldl (fun a b => a + b.cells) 0

/-- Cells in the retry share. -/
def retryUsed (s : State) : Nat :=
  (s.swc.bufs.filter (fun b => decide (b.waiting = 0) && decide (b.unacked > 0))).foldl (fun a b => a + b.cells) 0

/-- Offer of class k in a pair of credit registers (Table Switch-11). -/
def offerOf (lo hi : W64) (k : Nat) : Nat := if k < 4 then fld lo (16 * k + 15) (16 * k) else fld hi (16 * (k - 4) + 15) (16 * (k - 4))

/-- Sum of the TC2 to TC7 offers. -/
def losslessOffers (lo hi : W64) : Nat := [2, 3, 4, 5, 6, 7].foldl (fun a k => a + offerOf lo hi k) 0

/-- Cells of the lossy pool that a setting leaves (Table Switch-4); negative where it leaves none. -/
def lossyPool (lo hi : W64) (localRes : Nat) : Int := 1572864 - 524288 - 64 * (losslessOffers lo hi : Int) - localRes

/-- Free cells of the lossy pool. -/
def lossyFree (s : State) : Int := lossyPool s.swc.creditLo s.swc.creditHi s.swc.localRes - shareUsed s .lossy

/-- Cells that port p holds on a lane (R274). -/
def heldCells (s : State) (p : Port) (v : Class) : Nat :=
  (s.swc.bufs.filter (fun b => decide (b.holds = some (p, v)))).foldl (fun a b => a + b.cells) 0

/-- Count cells into FREED of a port's lane; a LINK cell becomes owed (R246, R250). -/
def freeCells (p : Port) (v : Class) (n : Nat) (s : State) : State :=
  modLink p (fun l => { l with freedOwn := vmod l.freedOwn v (fun x => x + BitVec.ofNat 16 n), owed := true, linkLast := false }) s

/-- Store a frame; the number of its buffer is `s.swc.nextBuf`. -/
def newBuf (cells : Nat) (share : Share) (copies : Nat) (holds : Option (Port × Class)) (s : State) : State :=
  { s with swc := { s.swc with
      bufs := s.swc.bufs ++ [⟨s.swc.nextBuf, cells, share, copies, 0, holds⟩], nextBuf := s.swc.nextBuf + 1 } }

/-- LOCAL_RES takes effect when the local share in use is at or below it (R270). -/
def settleLocalRes (s : State) : State :=
  let want := fld s.swc.ctrl 29 8
  if shareUsed s .localShare ≤ want then { s with swc := { s.swc with localRes := want } } else s

/-- Count port p's credit for a buffer free (R271). -/
def releaseHold (b : Buf) (s : State) : State := match b.holds with
  | some (p, v) => freeCells p v b.cells s
  | none => s

/-- Change a buffer's counts; its credit is freed when no copy waits any more, and it is gone when nothing holds it. -/
def modBuf (id : Nat) (f : Buf → Buf) (s : State) : State :=
  match s.swc.bufs.find? (fun b => decide (b.id = id)) with
  | none => s
  | some b =>
    let c := f b
    let s := if c.waiting = 0 then releaseHold c s else s
    let c := if c.waiting = 0 then { c with holds := none } else c
    let bufs := if c.waiting = 0 ∧ c.unacked = 0 then s.swc.bufs.filter (fun x => !decide (x.id = id))
      else s.swc.bufs.map (fun x => if x.id = id then c else x)
    settleLocalRes { s with swc := { s.swc with bufs := bufs } }

/-- A copy starts transmission; it stays stored until it is acknowledged. -/
def copyStarts (id : Nat) : State → State := modBuf id (fun b => { b with waiting := b.waiting - 1, unacked := b.unacked + 1 })
/-- A copy is taken by a local unit, or dropped. -/
def copyLeaves (id : Nat) : State → State := modBuf id (fun b => { b with waiting := b.waiting - 1 })
/-- A copy in the retry share is acknowledged, or discarded. -/
def copyAcked (id : Nat) : State → State := modBuf id (fun b => { b with unacked := b.unacked - 1 })
/-- A copy that had started is routed again after its link went DOWN (R249). -/
def copyReturns (id : Nat) : State → State := modBuf id (fun b => { b with waiting := b.waiting + 1, unacked := b.unacked - 1 })

/-! ### Token buckets (R290 to R292) -/

/-- Tokens of a bucket now, in units of 0.001 byte. -/
def tokensNow (t : Nat) (b : Bucket) : Int :=
  min ((b.burst.toNat : Int) * 64000) (b.tokens + (b.rate.toNat : Int) * ((deckCycles t - deckCycles b.stamp : Nat) : Int))

/-- Take cells from a bucket. -/
def takeTokens (t cells : Nat) (b : Bucket) : Bucket := { b with tokens := tokensNow t b - 64000 * (cells : Int), stamp := t }

/-! ### Routing (R275 to R281) -/

/-- Is the loaded sheet a liberty-mode sheet? Otherwise the core routes as in cued mode (R277) (DEDUCED, log 58). -/
def libertyMode (s : State) : Bool := match s.cue.sheet with
  | some sh => sh.liberty
  | none => false

/-- Cells queued for egress on a port, over all classes (R278). -/
def queuedCells (s : State) (o : SwPort) : Nat :=
  (s.swc.queued.filter (fun q => decide (q.output = o))).foldl (fun a q => a + pkCells q.packet) 0

def fabric (p : Port) : SwPort := ⟨p.val, by omega⟩
def localPort (p : Port) : SwPort := ⟨64 + p.val, by omega⟩

/-- May a port be a hop of a routed frame: its link OPEN to the planned neighbour (R281, R307)? -/
def hopOpen (s : State) (p : Port) : Bool := isOpen s p && !(s.link[p.val]).hostOnly

/-- May a port carry a sprayed frame: a hop whose transmit direction is not down? -/
def sprayable (s : State) (p : Port) : Bool := hopOpen s p && (s.lane.ports[p.val]).txActive != 0

/-- cost(p) of R278. -/
def sprayCost (s : State) (p : Port) : Nat :=
  ((s.swc.history[p.val]).toNat + queuedCells s (fabric p)) * 8 / popcount (s.lane.ports[p.val]).txActive +
    (s.swc.penalty[p.val]).toNat

/-- The sprayed port of an entry: lowest cost, ties to the first in cyclic order after the port last chosen (R278), after port 0
where none was chosen yet (DESIGN CHOICE, log 107). -/
def sprayPort (s : State) (e : RouteEntry) : Option Port :=
  let cands := (List.range 64).filterMap (fun i =>
    let p : Port := Fin.ofNat 64 (e.last.toNat + 1 + i)
    if e.spray.getLsbD p.val && sprayable s p then some p else none)
  cands.foldl (fun best p => match best with
    | none => some p
    | some b => if sprayCost s p < sprayCost s b then some p else some b) none

/-- Where a routed frame goes. -/
inductive RouteTo where
  | out (o : SwPort)
  | hold
  | drop
  deriving DecidableEq, Repr

/-- Record the port sprayed to for a destination module. -/
def noteSpray (m : Fin 512) (p : Port) (s : State) : State :=
  { s with swc := { s.swc with routes := vmod s.swc.routes m (fun e => { e with last := BitVec.ofNat 6 p.val }) } }

/-- Spray a frame over the entry of module m; where no port of the mask is OPEN a lossless frame is held and a lossy one
dropped (R281). -/
def sprayTo (m : Fin 512) (vl : Class) (s : State) : RouteTo × State :=
  match sprayPort s s.swc.routes[m.val] with
  | some p => (.out (fabric p), noteSpray m p s)
  | none => if lossy vl then (.drop, s) else (.hold, swcSticky bNoroute s)

/-- A frame of this kind is sprayed at every hop (R277). -/
def sprays (s : State) (kind : Byte) : Bool := libertyMode s && s.swc.ctrl.getLsbD 0 && sprayedKind kind

/-- Route a frame for module m by its entry (R276, R277, R281). `first` is the port a unit names, the first hop in cued mode. -/
def routeEntryTo (m : Fin 512) (pk : Packet) (first : Option Port) (s : State) : RouteTo × State :=
  let e := s.swc.routes[m.val]
  if sprays s pk.kind then sprayTo m pk.vl s
  else
    let named := if libertyMode s then none else first
    let static : Port := named.getD (Fin.ofNat 64 e.static.toNat)
    if (e.valid || named.isSome) && hopOpen s static then (.out (fabric static), s)
    else sprayTo m pk.vl (swcSticky bReroute s)

/-- Resolve DEST (R275). A frame for an endpoint of this module that does not exist is dropped, and a lossless frame whose port and other
attachment are both not OPEN is held with NOROUTE (DESIGN CHOICE, log 105). -/
def resolve (arrival : Option Port) (first : Option Port) (pk : Packet) (s : State) : RouteTo × State :=
  match ownNumber s with
  | none => (.drop, swcSticky bNoroute s)
  | some own =>
    let m := pk.dest.toNat / 128
    let e := pk.dest.toNat % 128
    if m = own then
      if e = 64 then match arrival with
        | some p => (.out (localPort p), s)
        | none => (.drop, s)
      else if h : e < 64 then
        let p : Port := ⟨e, h⟩
        if isOpen s p then (.out (fabric p), s)
        else if lossy pk.vl then (.drop, s)
        else match otherPort s p with
          | some q => if isOpen s q then (.out (fabric q), s) else (.hold, swcSticky bNoroute s)
          | none => (.hold, swcSticky bNoroute s)
      else (.drop, s)
    else routeEntryTo (Fin.ofNat 512 m) pk first s

/-- A stored frame goes where its route says. -/
def placeFrame (buf : Nat) (input : SwPort) (arrival first : Option Port) (pk : Packet) (s : State) : State :=
  let r := resolve arrival first pk s
  match r.1 with
  | .out o => { r.2 with swc := { r.2.swc with transit := r.2.swc.transit ++ [⟨pk, buf, input, o, arrival⟩] } }
  | .hold => { r.2 with swc := { r.2.swc with held := r.2.swc.held ++ [⟨pk, buf, input, arrival⟩] } }
  | .drop => copyLeaves buf r.2

/-- Route the held frames again: a route entry changed, or a port became OPEN (R281). -/
def routeHeld (s : State) : State :=
  s.swc.held.foldl (fun s h => placeFrame h.buf h.input h.arrival none h.packet s) { s with swc := { s.swc with held := [] } }

/-! ### Frames that units originate (R264, R271, R282) -/

/-- Room in the local share. -/
def localRoom (s : State) (cells : Nat) : Bool := decide (shareUsed s .localShare + cells ≤ s.swc.localRes)

/-- Address of the planned torus neighbour of a port. -/
def torusDest (s : State) (p : Port) : Option (BitVec 16) :=
  if isTorus (portRole s p) then
    match s.topo.plan, ownNumber s with
    | some pl, some n => some (BitVec.ofNat 16 (128 * neighbour pl n (portRole s p) + 64))
    | _, _ => none
  else none

/-- DEST of a copy on a port of a multicast group: of a spine peer, which has no number, 0xFFFF (R282, R304). -/
def copyDest (s : State) (p : Port) : BitVec 16 :=
  if peerAccel s p then match ownNumber s with
    | some n => BitVec.ofNat 16 (128 * n + p.val)
    | none => 0xFFFF
  else match torusDest s p, (s.link[p.val]).peerRoll with
    | some d, _ => d
    | none, some r => if r.modnum.getLsbD 15 then BitVec.ofNat 16 (128 * (r.modnum.toNat % 512) + 64) else 0xFFFF
    | none, none => 0xFFFF

/-- One copy of a multicast for the member on port p (R282, R304). -/
def launchMember (buf : Nat) (input : SwPort) (pk : Packet) (s : State) (p : Port) : State :=
  let twin : Port := Fin.ofNat 64 (if p.val % 2 = 0 then p.val + 1 else p.val - 1)
  let send (q : Port) (pk : Packet) : State :=
    { s with swc := { s.swc with transit := s.swc.transit ++ [⟨pk, buf, input, fabric q, none⟩] } }
  if peerAccel s p || decide (portRole s p = roleDown) then
    let d := match ownNumber s with
      | some n => BitVec.ofNat 16 (128 * n + p.val)
      | none => 0xFFFF
    if isOpen s p then send p { pk with dest := d }
    else if isOpen s twin && decide (portRole s p = roleDown) then send twin { pk with dest := d }
    else swcSticky bMcastLost (copyLeaves buf s)
  else
    let d := copyDest s p
    if isTorus (portRole s p) ∧ d ≠ 0xFFFF then placeFrame buf input none (some p) { pk with dest := d } s
    else if isOpen s p then send p { pk with dest := d }
    else if isOpen s twin && decide (portRole s p ≠ roleNone) && !isTorus (portRole s p) then send twin { pk with dest := 0xFFFF, resend := true }
    else copyLeaves buf s

/-- One copy of an originated frame leaves for its port: a link-local frame by the port named, discarded where that is not
OPEN (R249); a routed one under R277. -/
def launchCopy (buf : Nat) (input : SwPort) (pk : Packet) (s : State) (p : Port) : State :=
  if pk.kind = kMcast ∧ pk.dest = 0xFFFF then launchMember buf input pk s p
  else if pk.dest = 0xFFFF then
    if isOpen s p then { s with swc := { s.swc with transit := s.swc.transit ++ [⟨pk, buf, input, fabric p, none⟩] } }
    else copyLeaves buf s
  else placeFrame buf input none (some p) pk s

/-- Copies of a frame that a unit originates. -/
def copiesOf (w : LocalWait) : Nat := w.ports.length + (if w.toward.isSome then 1 else 0)

/-- Store an originated frame, once, and start its copies (R270, R282). -/
def enterLocal (w : LocalWait) (s : State) : State :=
  let buf := s.swc.nextBuf
  let s := w.ports.foldl (launchCopy buf w.input w.packet) (newBuf (pkCells w.packet) .localShare (copiesOf w) none s)
  match w.toward with
  | some (d, q) => placeFrame buf w.input none (some q) { w.packet with dest := d } s
  | none => s

/-- Can a frame of so many cells enter from a unit now (R271)? -/
def localReady (s : State) (cells : Nat) : Bool := s.swc.localWait.isEmpty && localRoom s cells

/-- A unit originates a frame with all its copies; it waits while the local share has no room (R271). -/
def originateAll (w : LocalWait) (s : State) : State :=
  if copiesOf w = 0 then s
  else if localReady s (pkCells w.packet) then enterLocal w s
  else { s with swc := { s.swc with localWait := s.swc.localWait ++ [w] } }

/-- A unit originates a frame for ports. -/
def originate (input : SwPort) (pk : Packet) (ports : List Port) : State → State :=
  originateAll { packet := pk, input := input, ports := ports }

/-- Enter waiting frames, oldest first, while there is room. -/
def serveLocal : Nat → State → State
  | 0, s => s
  | n + 1, s => match s.swc.localWait with
    | [] => s
    | w :: r =>
      if localRoom s (pkCells w.packet) then serveLocal n (enterLocal w { s with swc := { s.swc with localWait := r } }) else s

/-- Local ports of the units (Table Switch-1). -/
def harnPort (hid : BitVec 16) : SwPort := ⟨64 + hid.toNat % 32, by omega⟩
def callPort (cue : Nat) : SwPort := ⟨96 + cue % 8, by omega⟩
def groomPort (hid : BitVec 16) : SwPort := ⟨104 + hid.toNat % 4, by omega⟩
def clockPort : SwPort := 108
def mirrorPort : SwPort := 109

/-! ### Mirroring (R285 to R287) -/

/-- Does a frame at a port pass the port and flow tests (R285)? -/
def mirrors (s : State) (p : Port) (tx : Bool) (pk : Packet) : Bool :=
  let m := s.swc.mirror
  let f := s.swc.mirrorFlow
  m.getLsbD 63 && (if tx then m.getLsbD 60 else m.getLsbD 61) && (m.getLsbD 62 || decide (fld m 53 48 = p.val)) &&
  (!f.getLsbD 63 || decide (fld f 55 48 = pk.kind.toNat)) &&
  (if hasHid pk.kind then ((pHid pk ^^^ BitVec.ofNat 16 (fld f 47 32)) &&& BitVec.ofNat 16 (fld f 31 16)) == 0
   else decide (fld f 31 16 = 0))

/-- Peer's free credit on a lane is at least `need` (R250). -/
def creditFor (s : State) (p : Port) (v : Class) (need : Nat) : Bool :=
  let l := s.link[p.val]
  match l.peerHello with
  | none => false
  | some h => decide ((l.used[v.val] + BitVec.ofNat 16 need - l.freedPeer[v.val]).toNat ≤ h.credit[v.val])

/-- Copy a frame to the analysis port (R286, R287) (DEDUCED, log 58). -/
def mirror (p : Port) (tx : Bool) (pk : Packet) (frame : List Byte) (s : State) : State :=
  if !mirrors s p tx pk then s
  else
    let d : Port := Fin.ofNat 64 (fld s.swc.mirror 59 54)
    if !isOpen s d then s
    else
      let snap := if fld s.swc.mirror 11 0 = 0 then 4060 else fld s.swc.mirror 11 0
      let n := min snap (frame.length - 4)
      let n := min n 4060
      let copy : Packet :=
        { kind := kUser, vl := 0, dest := 0xFFFF, src := srcAddr s
          bytes := [BitVec.ofNat 8 p.val, BitVec.ofNat 8 ((if tx then 1 else 0) + (if n < frame.length - 4 then 2 else 0))] ++
            leBytes 2 frame.length ++ zeros 4 ++ leBytes 8 s.stg.now.toNat ++ frame.take n }
      if (pkCells copy : Int) ≤ lossyFree s ∧ creditFor s d 0 (pkCells copy) then
        let buf := s.swc.nextBuf
        let s := newBuf (pkCells copy) .lossy 1 none s
        { s with swc := { s.swc with transit := s.swc.transit ++ [⟨copy, buf, mirrorPort, fabric d, none⟩] } }
      else swcSticky bMirrorDrop s

/-! ### Admission of accepted frames (R266, R270 to R275, R291) -/

/-- Queued lossy frames of a class, which an arrival may push out. -/
def victims (s : State) (c : Class) : List Queued := s.swc.queued.filter (fun q => decide (q.packet.vl = c))

/-- Cells in one output's queue of a class. -/
def queueCells (s : State) (c : Class) (o : SwPort) : Nat :=
  (s.swc.queued.filter (fun q => decide (q.packet.vl = c) && decide (q.output = o))).foldl (fun a q => a + pkCells q.packet) 0

/-- Output with the longest queue of a class, in cells (DESIGN CHOICE, log 104); the lowest port wins a tie. -/
def longestQueue (s : State) (c : Class) : Option SwPort :=
  (victims s c).foldl (fun best q => match best with
    | none => some q.output
    | some b =>
      if queueCells s c b < queueCells s c q.output ∨ (queueCells s c b = queueCells s c q.output ∧ q.output < b) then some q.output
      else some b) none

/-- Remove the last queued frame of a class at an output. -/
def dropTail (c : Class) (o : SwPort) (l : List Queued) : List Queued :=
  (dropFirst (fun q => decide (q.packet.vl = c) && decide (q.output = o)) l.reverse).reverse

/-- Push out one victim: the tail of the longest queue, TC0 before TC1 (R272). -/
def pushOne (classes : List Class) (s : State) : State :=
  match classes.find? (fun c => !(victims s c).isEmpty) with
  | none => s
  | some c => match longestQueue s c with
    | none => s
    | some o =>
      match (s.swc.queued.reverse).find? (fun q => decide (q.packet.vl = c) && decide (q.output = o)) with
      | none => s
      | some q =>
        let s := swcSticky bPushout (copyLeaves q.buf { s with swc := { s.swc with queued := dropTail c o s.swc.queued } })
        { s with swc := { s.swc with pushout := satAdd 0xFFFF s.swc.pushout 1 } }

/-- Push out victims until `cells` fit. -/
def pushOut (classes : List Class) (cells : Nat) : Nat → State → State
  | 0, s => s
  | n + 1, s => if (cells : Int) ≤ lossyFree s then s else pushOut classes cells n (pushOne classes s)

/-- Make room in the lossy pool for an arrival (R272); none where it is dropped. -/
def admitLossy (vl : Class) (cells : Nat) (s : State) : Option State :=
  if (cells : Int) ≤ lossyFree s then some s
  else
    let classes : List Class := if vl = 0 then [0] else [0, 1]
    let avail := classes.foldl (fun a c => a + (victims s c).foldl (fun b q => b + pkCells q.packet) 0) 0
    if (cells : Int) > lossyFree s + avail then none
    else some (pushOut classes cells s.swc.queued.length s)

/-- Count a dropped packet at its link (LINK_ERR_COUNT.DROPPED). -/
def countDropped (p : Port) (s : State) : State := modLink p (fun l => { l with dropped := satAdd 0xFFFF l.dropped 1 }) s

/-- Set bits of LINK_STICKY. -/
def linkSticky (p : Port) (bits : BitVec 8) (s : State) : State :=
  fresh .linkSticky p.val (bits.setWidth 64) (modLink p (fun l => { l with sticky := l.sticky ||| bits }) s)

/-- Where a frame of port p goes: to its local port where it is link-local, else by its DEST (R255, R275). -/
def resolveArrival (p : Port) (pk : Packet) (s : State) : RouteTo × State :=
  if pk.dest = 0xFFFF then (.out (localPort p), s) else resolve (some p) none pk s

/-- A lossy frame of port p whose output is chosen is admitted to the lossy pool, or dropped at the tail (R272). -/
def admitTo (p : Port) (o : SwPort) (pk : Packet) (s : State) : State :=
  let buf := s.swc.nextBuf
  match admitLossy pk.vl (pkCells pk) s with
  | none =>
    let s := swcSticky bTaildrop s
    { s with swc := { s.swc with taildrop := satAdd 0xFFFF s.swc.taildrop 1 } }
  | some s =>
    let s := newBuf (pkCells pk) .lossy 1 none s
    { s with swc := { s.swc with transit := s.swc.transit ++ [⟨pk, buf, fabric p, o, some p⟩] } }

/-- A frame of port p that passed the checks is resolved and routed, then admitted, and goes to its output (R269 to R275). -/
def letIn (p : Port) (pk : Packet) (s : State) : State :=
  let cells := pkCells pk
  if lossy pk.vl then
    let r := resolveArrival p pk (freeCells p pk.vl cells s)
    match r.1 with
    | .out o => admitTo p o pk r.2
    | .hold | .drop => r.2
  else
    let buf := s.swc.nextBuf
    let s := newBuf cells .lossless 1 (some (p, pk.vl)) s
    if pk.dest = 0xFFFF then { s with swc := { s.swc with transit := s.swc.transit ++ [⟨pk, buf, fabric p, localPort p, some p⟩] } }
    else placeFrame buf (fabric p) (some p) none pk s

/-- A frame accepted on an OPEN port is checked, resolved, policed, admitted and routed (R257, R264, R266, R274, R275, R291). -/
def routeAccepted (p : Port) (pk : Packet) (frame : List Byte) (s : State) : State :=
  let cells := pkCells pk
  let s := mirror p false pk frame s
  let reject (s : State) : State := freeCells p pk.vl cells s
  let l := s.link[p.val]
  if !(kindKnown pk.kind && lengthOk pk) then reject (countDropped p (linkSticky p 0x40 s))
  else if !classOk pk then reject (countDropped p (swcSticky bBadClass s))
  else if pk.kind = kUser ∧ (pk.dest = 0xFFFF ∨ pk.dest = ownAddr s) then reject (countDropped p s)
  else if !lossy pk.vl && decide (heldCells s p pk.vl ≥ l.offer[pk.vl.val]) then reject (swcSticky bOverrun s)
  else if h : pk.vl.val < 2 then
    let b := (s.sched.policer[p.val])[pk.vl.val]
    if b.rate = 0 then letIn p pk s
    else if tokensNow s.time b ≥ 64000 * (cells : Int) then
      letIn p pk { s with sched := { s.sched with
        policer := vmod s.sched.policer p (fun v => vmod v ⟨pk.vl.val, h⟩ (takeTokens s.time cells)) } }
    else
      let s := swcSticky bPoliced (reject s)
      { s with swc := { s.swc with policed := satAdd 0xFFFF s.swc.policed 1 } }
  else letIn p pk s

/-- A unit takes the frame that a local port has handed it, if it was one: its credit is freed (R271). -/
def takeHanded (p : Port) (pk : Packet) (s : State) : State :=
  match s.swc.handed.find? (fun h => decide (h.port = p) && decide (h.packet = pk)) with
  | none => s
  | some h =>
    copyLeaves h.buf { s with swc := { s.swc with
      handed := dropFirst (fun x => decide (x.port = p) && decide (x.packet = pk)) s.swc.handed } }

end Sys2Proof.Machine
end

