-- ==== Sys2Proof/Machine/CueOps.lean ====
section
/-! DEFINITION. The open steps and cue instances, and sending on a member's port (04_cues_and_stage_clock.md R113 to R124,
R129, R464; 10_izano_link.md R249, R304). -/

namespace Sys2Proof.Machine

/-! ### Looking things up -/

/-- Index of the head with a HID (R64). -/
def headIdx (s : State) (hid : BitVec 16) : Option Nat := s.cue.sheet.bind (fun sh => sh.heads.findIdx? (fun x => x.hid == hid))

/-- The cue that reduces head h: REDUCE, REDUCE_UPDATE or PROJECT (R109, R163). -/
def reducer (s : State) (h : Nat) : Option Nat :=
  match s.cue.sheet, sheetHead s h with
  | some sh, some hd => sh.cues.findIdx? (fun c => reducing (cKind c) && cHid c == hd.hid)
  | _, _ => none

def modHStep (n h : Nat) (f : HeadStep → HeadStep) : State → State := modOpen n (fun o => { o with heads := o.heads.modify h f })
def modHead (h : Nat) (f : Head → Head) (s : State) : State :=
  { s with harn := { s.harn with heads := s.harn.heads.modify h f } }

/-- Is the run in the drain of a recovery stop (R315)? -/
def recovering (s : State) : Bool := match s.cue.run with
  | some r => decide (r.ending = .recovery)
  | none => false

/-- Has the instance been launched, so that it holds permission (R25, R116)? -/
def permitted (s : State) (n c : Nat) : Bool := match instOf s n c with
  | some i => i.launched
  | none => false

/-- Has the cue that reduces head h launched in the head's open step (R117)? -/
def headPermitted (s : State) (h : Nat) : Bool :=
  match s.harn.heads[h]?, reducer s h with
  | some hd, some c => permitted s hd.step c
  | _, _ => false

/-- The cue word of the instance that reduces head h. -/
def reducerWord (s : State) (h : Nat) : Option (Nat × CueWord) :=
  (reducer s h).bind (fun c => (cueWord s c).map (fun w => (c, w)))

/-- Member slots lost by a company on this module, for head h. -/
def lostSlots (s : State) (h : Nat) : BitVec 65 := match s.harn.heads[h]? with
  | some hd => hd.lost
  | none => 0

/-! ### Instances -/

/-- Ticks since an instance launched, stopping at 0xFFFF_FFFF. -/
def sinceLaunch (s : State) (i : Inst) : Nat := min 0xFFFF_FFFF (s.stg.now.toNat - i.launchAt)

/-- The first stage of an instance starts (R464); before the launch it counts as 0. -/
def noteFirst (n c : Nat) (s : State) : State :=
  modInst n c (fun i => if i.firstAt.isSome then i
    else { i with firstAt := some (if i.launched then sinceLaunch s i else 0) }) s

/-- Flags of Table Formats-7 in the status of the cue that raised them (R48). -/
def noteFlags (n c : Nat) (fl : Flags) : State → State := modInst n c (fun i => { i with fmtFlags := i.fmtFlags ||| fl })

/-! ### Member counters (R122) -/

def memberCount (s : State) (co : BitVec 10) (m : Nat) : MemberCount :=
  (s.cue.members.find? (fun x => decide (x.company = co) && decide (x.slot = m))).getD { company := co, slot := m }

def modMember (co : BitVec 10) (m : Nat) (f : MemberCount → MemberCount) (s : State) : State :=
  let x := f (memberCount s co m)
  let rest := s.cue.members.filter (fun y => !(decide (y.company = co) && decide (y.slot = m)))
  { s with cue := { s.cue with members := rest ++ [x] } }

/-! ### Sending on a member's port (R74, R249, R304) -/

/-- The other path of a collective packet for port p: a routed DEST and the port to try first. A spine peer is reached by the
twin port (R304), an accelerator by its other attachment, a torus neighbour by its address. -/
def otherPath (s : State) (p : Port) : Option (BitVec 16 × Port) :=
  let role := portRole s p
  let twin : Port := Fin.ofNat 64 (if p.val % 2 = 0 then p.val + 1 else p.val - 1)
  if role = roleDown then (ownNumber s).map (fun n => (BitVec.ofNat 16 (128 * n + p.val), twin))
  else if isTorus role then (torusDest s p).map (fun d => (d, p))
  else if role = roleUp ∨ role = roleSpineDown ∨ role = roleSpineUp then some (0xFFFF, twin)
  else none

/-- Send again on the other path, with RESEND = 1. -/
def sendAgain (input : SwPort) (p : Port) (pk : Packet) (s : State) : State := match otherPath s p with
  | some (d, q) => originate input { pk with dest := d, resend := true } [q] s
  | none => s

/-- Send a collective packet to the peer of port p: link-local while the link is OPEN, on the other path otherwise. In liberty mode it goes
routed to a torus neighbour, by the entry of that module: sprayed at the first hop too, or on its STATIC port (R277). -/
def sendOn (input : SwPort) (p : Port) (pk : Packet) (s : State) : State :=
  if let some d := (torusDest s p).filter (fun _ => libertyMode s) then originate input { pk with dest := d } [p] s
  else if isOpen s p then originate input { pk with dest := 0xFFFF } [p] s else sendAgain input p pk s

/-- Address of the module with a serial, once the plan numbers it. -/
def addrOf (s : State) (serial : BitVec 48) : Option (BitVec 16) :=
  (s.topo.plan.bind (fun p => torusIndex p serial)).map (fun n => BitVec.ofNat 16 (128 * n + 64))

/-- Send to the partner of a shard by its UPORT (R151): routed to the partner's own address. -/
def sendPartner (input : SwPort) (r : Shard) (again : Bool) (pk : Packet) (s : State) : State := match addrOf s r.partner with
  | some d => originate input { pk with dest := d, resend := again } [Fin.ofNat 64 r.uport] s
  | none => s

/-- Send to member slot m of a head. The owner of a mirrored shard is reached by its address, any other member by the port of
its slot (R72). -/
def sendMember (input : SwPort) (hid : BitVec 16) (m : Nat) (pk : Packet) (s : State) : State :=
  match shardOf s hid with
  | some r => if (r.role = roleUnderstudy ∨ r.role = roleSeeding) ∧ r.uslot = m then sendPartner input r false pk s
              else sendOn input (Fin.ofNat 64 m) pk s
  | none => sendOn input (Fin.ofNat 64 m) pk s

end Sys2Proof.Machine
end

