-- ==== Sys2Proof/Machine/CallOps.lean ====
section
/-! DEFINITION. The Callboard's shared operations: expected sets, contexts, combining, sending up and down, the arrival tests,
and the end of cue instances (07_callboard.md R177 to R189; 04_cues_and_stage_clock.md R124). -/

namespace Sys2Proof.Machine

/-! ### Contexts -/

/-- Flags of Table Callboard-6 [3:0]. -/
def callFlags (f : Flags) (s : State) : State :=
  fresh .callSticky 0 ((f &&& 0xF).setWidth 64) { s with callb := { s.callb with sticky := s.callb.sticky ||| (f &&& 0xF).setWidth 8 } }
def callSticky (bit : Nat) (s : State) : State :=
  fresh .callSticky 0 (bitOf bit) { s with callb := { s.callb with sticky := s.callb.sticky ||| BitVec.ofNat 8 (1 <<< bit) } }

def isCtx (n c : Nat) (x : CallCtx) : Bool := decide (x.step = n) && decide (x.cue = c)
def callCtx (s : State) (n c : Nat) : Option CallCtx := s.callb.ctxs.find? (isCtx n c)
def modCtx (n c : Nat) (f : CallCtx → CallCtx) (s : State) : State :=
  { s with callb := { s.callb with ctxs := modFirst (isCtx n c) f s.callb.ctxs } }

/-- Arm a context if it is not armed (R182). -/
def armCtx (n c : Nat) (s : State) : State :=
  if (callCtx s n c).isSome then s
  else { s with callb := { s.callb with ctxs := s.callb.ctxs ++ [{ step := n, cue := c }] } }

/-- The tree head of a CALL or CURTAIN. -/
def treeHead (s : State) (w : CueWord) : Option SheetHead := (headIdx s (cThid w)).bind (sheetHead s)

/-- The expected set (R179). -/
def callExpected (s : State) (w : CueWord) : BitVec 65 :=
  match headIdx s (cThid w) with
  | none => 0
  | some h => match sheetHead s h with
    | none => 0
    | some sh =>
      let slots := (List.range 64).filter (fun i => sh.expected.getLsbD i && (!cMemb w || leadRole s i))
      let set := slots.foldl (fun m i => m ||| slotBit i) 0
      let own := decide (cKind w = cCurtain) || (decide (cKind w = cCall) && decide (cSrc w = 1))
      (if own then set ||| slotBit 64 else set) &&& ~~~lostSlots s h

/-- Store an operand: kept in MSLOT order (R182, R185). -/
def storeOperand (n c m : Nat) (elems : List (BitVec 48)) (s : State) : State :=
  noteFirst n c (modCtx n c (fun x => { x with
    operands := insertBy (fun a b => decide (a.1 ≤ b.1)) (m, elems) x.operands, received := x.received ||| slotBit m }) s)

/-! ### Arithmetic (R185) -/

/-- A source operand: reading void sets VOID_IN. -/
def zSrc (z : BitVec 48) : ZF := ⟨z, if z = zVoid then fVoidIn else 0⟩

/-- Identity of an operation with no operand. -/
def callIdentity (op : Nat) : BitVec 48 := if op = 1 then 0xFFFF_FFFF_FFFF else if op = 2 then 0x7FFF_FFFF_FFFF else 0

/-- Combine two operands of one element. -/
def callOp (op : Nat) (a b : ZF) : ZF :=
  if op = 1 then zOp2 (fun x y f => if dyLt x y then ⟨b.v, f⟩ else ⟨a.v, f⟩) a b
  else if op = 2 then zOp2 (fun x y f => if dyLt y x then ⟨b.v, f⟩ else ⟨a.v, f⟩) a b
  else zAdd a b

/-- Combine the operands of an element in the order given. -/
def callFold (op : Nat) : List (BitVec 48) → ZF
  | [] => ⟨callIdentity op, 0⟩
  | x :: r => r.foldl (fun a y => callOp op a (zSrc y)) (zSrc x)

/-- The elements of a module's partial or result; NORM takes the root at the tree's root. -/
def callCombine (w : CueWord) (root : Bool) (x : CallCtx) : List ZF :=
  if cKind w = cCurtain then []
  else (List.range (cCount w)).map (fun e =>
    let t := callFold (cOp w) (x.operands.map (fun o => o.2.getD e 0))
    if root && decide (cOp w = 3) then zSqrt t else t)

/-! ### Sending (R180) -/

/-- Send the result or release to every expected member on ports 0 to 63, and keep it for CALL_RESULT. -/
def sendDown (n c : Nat) (w : CueWord) (elems : List (BitVec 48)) (s : State) : State :=
  let curtain := decide (cKind w = cCurtain)
  let set := callExpected s w
  let s := modCtx n c (fun x => { x with result := some elems, sentDown := true }) s
  let s := (slotsOf set).foldl (fun s m =>
    if m < 64 then
      sendOn (callPort c) (Fin.ofNat 64 m) (callPacket c m 2 curtain (!curtain) (BitVec.ofNat 32 n) (cCount w) elems 0xFFFF (srcAddr s)) s
    else s) s
  if curtain then s
  else { s with callb := { s.callb with results := s.callb.results.filter (fun r => !decide (r.1 = c)) ++ [(c, elems)] } }

/-- Once every expected member has arrived and the cue has launched, send the partial up, or form the result. -/
def tryComplete (n c : Nat) (s : State) : State :=
  match cueWord s c, callCtx s n c with
  | some w, some x =>
    let set := callExpected s w
    if x.sentUp || !permitted s n c || recovering s || (x.received &&& set) != set then s
    else match treeHead s w with
      | none => s
      | some h =>
        let zs := callCombine w h.root x
        let elems := zs.map (·.v)
        let fl := zs.foldl (fun a z => a ||| z.f) 0
        let s := noteFlags n c fl (callFlags fl (modCtx n c (fun y => { y with sentUp := true }) s))
        if h.root then sendDown n c w elems s
        else
          let curtain := decide (cKind w = cCurtain)
          sendOn (callPort c) (Fin.ofNat 64 h.parent.toNat)
            (callPacket c h.pslot.toNat 1 curtain (!curtain) (BitVec.ofNat 32 n) (cCount w) elems 0xFFFF (srcAddr s)) s
  | _, _ => s

/-- Test every context again: an exclusion changed an expected set (R184). -/
def retryCalls (s : State) : State := s.callb.ctxs.foldl (fun s x => tryComplete x.step x.cue s) s

/-! ### Arrivals (Table Callboard-2, R465) -/

/-- A 32-bit step nearest to a full one (DEDUCED, log 63). -/
def nearStep (ref : Nat) (low : BitVec 32) : Int := (ref : Int) + signed 32 (low - BitVec.ofNat 32 ref).toNat

/-- The first step of the loaded sheet that has not closed on this module, and the newest open step; with no step open the newest
is the one below (DEDUCED, log 63). -/
def runBounds (s : State) : Int × Int :=
  match s.cue.sheet with
  | none => (0, -1)
  | some sh => match s.cue.run with
    | some r => ((sh.firstStep : Int) + r.closed, (r.nextStep : Int) - 1)
    | none => match s.cue.closedTo with
      | some n => ((n : Int) + 1, n)
      | none => (sh.firstStep, (sh.firstStep : Int) - 1)

def callCue (pk : List Byte) : Nat := leAt pk 0 2
def callSlot (pk : List Byte) : Nat := (byteAt pk 2).toNat % 128
def callRole (pk : List Byte) : Nat := (byteAt pk 3).toNat / 64
def callCurtain (pk : List Byte) : Bool := (byteAt pk 3).getLsbD 5
def callWide (pk : List Byte) : Bool := (byteAt pk 3).getLsbD 4
def callCount (pk : List Byte) : Nat := (byteAt pk 3).toNat % 8 + 1

/-- Elements of a CALL body as Z48 codes; Z32 is widened exactly (R185). -/
def callElems (pk : List Byte) : List (BitVec 48) :=
  (List.range (callCount pk)).map (fun i =>
    if callWide pk then BitVec.ofNat 48 (leAt pk (16 + 8 * i) 6)
    else (zOf (decodeVal .z32 (leAt pk (16 + 4 * i) 4))).v)

/-- R465. -/
def callMatches (s : State) (p : Port) (pk : List Byte) : Bool :=
  match cueWord s (callCue pk) with
  | none => false
  | some w =>
    let curtain := decide (cKind w = cCurtain)
    let m := callSlot pk
    let inSet := (callExpected s w).getLsbD m
    (decide (cKind w = cCall) || curtain) && (callCurtain pk == curtain) &&
    (if curtain then !callWide pk && decide (pk.length = 16) else decide (callCount pk = cCount w)) &&
    (match callRole pk with
     | 0 => decide (m < 64) && inSet && peerAccel s (Fin.ofNat 64 m) && (curtain || callWide pk == cInZ48 w)
     | 1 => decide (m < 64) && inSet && peerModule s (Fin.ofNat 64 m) && (curtain || callWide pk)
     | 2 => (match treeHead s w with
       | some h => !h.root && decide (p.val = h.parent.toNat) && decide (m = h.pslot.toNat) && (curtain || callWide pk)
       | none => false)
     | _ => false)

/-- Does an arrival wait in the intake queue: under test 3, or while the clock is STOPPED (R182, R189)? -/
def callWaits (s : State) (p : Port) (pk : List Byte) : Bool :=
  !recovering s && (decide (s.stg.st = .stopped) ||
    (callMatches s p pk && decide (nearStep (runBounds s).2.toNat (BitVec.ofNat 32 (leAt pk 4 4)) > (runBounds s).2 + 1)))

/-- Tests 1 to 5 of one arrival (DEDUCED, log 63). In the drain of a recovery stop every call and curtain is abandoned (R315)
(DEDUCED, log 19). -/
def callArrive (p : Port) (pk : List Byte) (s : State) : State :=
  if recovering s then s
  else if s.stg.st = .stopped then { s with callb := { s.callb with held := s.callb.held ++ [⟨p, pk, true⟩] } }
  else if !callMatches s p pk then callSticky 6 s
  else
    let b := runBounds s
    let n := nearStep b.2.toNat (BitVec.ofNat 32 (leAt pk 4 4))
    let c := callCue pk
    let m := callSlot pk
    if n < b.1 then callSticky 5 s
    else if n > b.2 + 1 then callSticky 7 { s with callb := { s.callb with held := s.callb.held ++ [⟨p, pk, false⟩] } }
    else
      let n := n.toNat
      match callCtx s n c, cueWord s c with
      | x, some w =>
        if callRole pk = 2 then
          if (x.bind (·.result)).isSome then callSticky 4 s
          else sendDown n c w (if callCurtain pk then [] else callElems pk) (armCtx n c s)
        else if (x.map (fun y => y.received.getLsbD m)).getD false then callSticky 4 s
        else tryComplete n c (storeOperand n c m (if callCurtain pk then [] else callElems pk) (armCtx n c s))
      | _, none => s

/-- Test the held arrivals again, in order. -/
def retryHeld (s : State) : State :=
  s.callb.held.foldl (fun s h => callArrive h.port h.bytes s) { s with callb := { s.callb with held := [] } }

/-! ### SUMSQ (R186) -/

def isSum (n c : Nat) (x : SumSq) : Bool := decide (x.step = n) && decide (x.cue = c)
def modSum (n c : Nat) (f : SumSq → SumSq) (s : State) : State :=
  { s with callb := { s.callb with sums := modFirst (isSum n c) f s.callb.sums } }

/-- Flags of the Callboard's arithmetic, in CALL_STICKY and in the status of the call (R48). -/
def sumFlags (n c : Nat) (f : Flags) (s : State) : State := noteFlags n c f (callFlags f s)

/-- Fold the segments that have become next, in ascending order; the operand arrives with the last, which arms the context if nothing
has (R182, R186). While the clock is STOPPED the arrival waits (R189) (DEDUCED, log 45). -/
def foldSumsq (n c : Nat) : Nat → State → State
  | 0, s => s
  | k + 1, s => match s.callb.sums.find? (isSum n c) with
    | none => s
    | some x =>
      if x.folded = x.segs then
        (if s.stg.st = .stopped then s
         else tryComplete n c (storeOperand n c 64 [x.total] (armCtx n c { s with callb := { s.callb with
           sums := s.callb.sums.filter (fun y => !isSum n c y) } })))
      else match x.partials.find? (fun p => decide (p.1 = x.folded)) with
      | none => s
      | some p =>
        let t := zAdd (zSrc x.total) (zSrc p.2)
        foldSumsq n c k (sumFlags n c t.f (modSum n c (fun y => { y with
          total := t.v, folded := y.folded + 1, partials := dropFirst (fun q => decide (q.1 = p.1)) y.partials }) s))

/-- A segment of a source head has fired: its p goes to every SUMSQ call over the head. -/
def feedSumsq (n seg segs : Nat) (hid : BitVec 16) (g : List ZF) (s : State) : State :=
  match s.cue.sheet with
  | none => s
  | some sh =>
    sh.cues.zipIdx.foldl (fun s x =>
      if cKind x.1 = cCall ∧ cSrc x.1 = 1 ∧ cShid x.1 = hid then
        let c := x.2
        let p := g.foldl (fun t z => zAdd t (zMul z z)) ⟨0, 0⟩
        let s := if s.callb.sums.any (isSum n c) then s
          else { s with callb := { s.callb with sums := s.callb.sums ++ [{ step := n, cue := c, segs := segs }] } }
        let s := modSum n c (fun y => { y with partials := y.partials ++ [(seg, p.v)] }) (sumFlags n c p.f s)
        foldSumsq n c 258 s
      else s) s

/-- The clock runs again: operands that waited arrive (R189). -/
def retrySums (s : State) : State := s.callb.sums.foldl (fun s x => foldSumsq x.step x.cue 1 s) s

/-! ### The end of instances (R124, R181, R188) -/

/-- Multicast and digest have both finished with a segment: every copy of its MCAST has left the core (R26, R419). -/
def jobOver (s : State) (j : Job) : Bool :=
  j.sent && j.digest && !s.swc.bufs.any (fun b => j.bufs.contains b.id && decide (b.waiting > 0))

/-- Is every slot of a head for step n released: has the head's STEP advanced past it (R82, R124)? -/
def headReleased (s : State) (hid : BitVec 16) (n : Nat) : Bool :=
  ((headIdx s hid).bind (fun h => s.harn.heads[h]?)).all (fun hd => decide (hd.step > n))

/-- Is head h released past step n, with nothing of the step left in the later stages (R124)? -/
def headDone (s : State) (hid : BitVec 16) (n : Nat) : Bool := match headIdx s hid with
  | none => true
  | some h => match s.harn.heads[h]? with
    | none => true
    | some hd => decide (hd.step > n) &&
        !s.harn.jobs.any (fun j => decide (j.head = h) && decide (j.step = n) && !j.bcast && !(j.band && jobOver s j)) &&
        !s.prj.bands.any (fun b => decide (b.head = h) && decide (b.step = n) && decide (b.st ≠ .done))

/-- Have all stages of a launched instance finished? -/
def stagesDone (s : State) (n c : Nat) (w : CueWord) (i : Inst) : Bool :=
  let k := cKind w
  if k = cNop then true
  else if k = cBroadcast then
    i.finished && !s.harn.jobs.any (fun j => decide (j.cue = c) && decide (j.step = n) && j.bcast && !jobOver s j) && headReleased s (cHid w) n
  else if k = cConvert ∨ k = cMove then i.finished
  else if k = cCall then ((callCtx s n c).map (·.sentDown)).getD false
  else if k = cCurtain then ((callCtx s n c).map (fun x => x.sentDown && x.received.getLsbD 64)).getD false
  else headDone s (cHid w) n

/-- Cue c comes earlier than cue d in the order of R181. -/
def earlier (s : State) (c d : Nat) : Bool :=
  match cueWord s c, cueWord s d with
  | some x, some y =>
    let lib := (s.cue.sheet.map (·.liberty)).getD false
    if lib || decide (cOffset x = cOffset y) then decide (c < d) else decide (cOffset x < cOffset y)
  | _, _ => false

/-- A curtain's own slot arrives once every earlier cue of the step is DONE; while the clock is STOPPED it waits (R181, R189). -/
def arriveOwn (n c : Nat) (s : State) : State :=
  match openStep s n, callCtx s n c with
  | some o, some x =>
    if x.received.getLsbD 64 || recovering s || decide (s.stg.st = .stopped) then s
    else if (List.range o.insts.length).all (fun d => !earlier s d c || (o.insts[d]?.map (fun i => decide (i.st = .done))).getD true) then
      tryComplete n c (storeOperand n c 64 [] s)
    else s
  | _, _ => s

/-- Members that an instance has no contribution missing from lose their consecutive misses (R122). -/
def clearMisses (h : Nat) (s : State) : State := match sheetHead s h, s.harn.heads[h]? with
  | some sh, some hd =>
    (slotsOf (sh.expected &&& ~~~hd.leftOut &&& ~~~hd.lost)).foldl (fun s m =>
      if (memberCount s sh.company m).consec = 0 then s else modMember sh.company m (fun x => { x with consec := 0 }) s) s
  | _, _ => s

/-- An instance becomes DONE if it can (R124). -/
def finishInst (n c : Nat) (s : State) : State :=
  match instOf s n c, cueWord s c with
  | some i, some w =>
    if !i.launched || decide (i.st = .done) || decide (i.st = .failed) then s
    else
      let s := if cKind w = cCurtain then arriveOwn n c s else s
      if stagesDone s n c w i then
        let s := modInst n c (fun i => { i with st := .done, doneAt := sinceLaunch s i }) s
        let s := if headed (cKind w) ∧ cDeadline w = 0 then match headIdx s (cHid w) with
            | some h => clearMisses h s
            | none => s
          else s
        if cNotify w then cueEvent n c s else s
      else s
  | _, _ => s

/-- Clock state code (Table Cue-1). -/
def clockCode : ClockSt → Nat
  | .free => 0 | .rack => 1 | .machine => 2 | .holdover => 3 | .stopped => 4

/-- SEQ of the last box office reading held (R396, Table Leave-4). -/
def boxSeq (s : State) : W64 := BitVec.ofNat 64 (leAt (s.boxRx.readings.headD []) 8 8)

/-- A step whose cues are all DONE or FAILED records the tick, the clock state and BOXSEQ (R210). -/
def endStep (n : Nat) (s : State) : State := match openStep s n with
  | some o =>
    if o.ended.isNone && o.insts.all (fun i => decide (i.st = .done) || decide (i.st = .failed)) then
      modOpen n (fun o => { o with ended := some (s.stg.now, BitVec.ofNat 4 (clockCode s.stg.st), boxSeq s) }) s
    else s
  | none => s

/-- Cue indexes of a step in the order of R181. -/
def cueOrder (s : State) (n : Nat) : List Nat := match openStep s n with
  | some o => sortBy (fun a b => !earlier s b a) (List.range o.insts.length)
  | none => []

/-- Let every instance that can end do so. -/
def settle (s : State) : State :=
  ((s.cue.run.map (fun r => r.steps.map (·.step))).getD []).foldl
    (fun s n => endStep n ((cueOrder s n).foldl (fun s c => finishInst n c s) s)) s

end Sys2Proof.Machine
end

