-- ==== Sys2Proof/Machine/OutrOps.lean ====
section
/-! DEFINITION. How the Outrider takes, abandons and follows samples (08_numerics_watch_and_audit.md R195 to R202), and the
gradient of a slot (05_groom_and_master_state.md R142). -/

namespace Sys2Proof.Machine

/-! ### G of R142 -/

/-- Accumulator code of a slot. -/
def slotAcc (x : Slot) : Nat := match fmtOf x.fmt.toNat with
  | some f => accOf f
  | none => 6

/-- E in force for a block; 0 for an unscaled format. -/
def slotExp (x : Slot) (b : Nat) : Int := if x.fmt.toNat < 3 then signed 6 (x.scale.toNat >>> (6 * b)) else 0

/-- Exact value of an element's accumulator; none where the element is void. -/
def slotVal (x : Slot) (j : Nat) : Val :=
  if x.void.getLsbD j then none else accVal (slotAcc x) (x.acc.getD j 0).toNat (slotExp x (j / 64))

/-- G of an element (R142). -/
def slotGrad (x : Slot) (j : Nat) : ZF := match slotVal x j with
  | none => ⟨zVoid, fVoidIn⟩
  | some d => if slotAcc x = 6 then ⟨((x.acc.getD j 0).setWidth 48), 0⟩ else zRound d 0

def slotGrads (x : Slot) : List ZF := (List.range x.seglen).map (slotGrad x)

/-! ### Samples (R196 to R198) -/

/-- The choice of R196. -/
def outrSel (seed step : W64) (hid : BitVec 16) (seg b : Nat) : W64 :=
  srMix (srMix (seed ^^^ srMix step) ^^^ srMix ((hid.setWidth 64 <<< 40) ||| BitVec.ofNat 64 (seg * 4) ||| BitVec.ofNat 64 b) ^^^
    0x3D59_E1A7_06C4_B28F)

/-- Is a block taken under a setting of OUTR_CTRL? -/
def sampled (ctrl seed step : W64) (hid : BitVec 16) (seg b : Nat) : Bool :=
  ctrl.getLsbD 0 && decide ((outrSel seed step hid seg b >>> 48).toNat < 65536 >>> min 16 (fld ctrl 8 4))

/-- Checks that apply to a sample of head h (Table Audit-2). -/
def checksFor (sh : SheetHead) (kind : Nat) : List Nat :=
  [if headFloat sh then 2 else 1] ++
  (if sh.root then
     (if kind = cReduce ∨ kind = cReduceUpdate then [3] else []) ++ (if kind = cReduceUpdate then [4] else []) ++ [5] ++
       (if kind = cReduceUpdate then [6] else [])
   else [])

/-- OUTR_STICKY bits (R215). -/
def outrSticky (bits : BitVec 5) (s : State) : State :=
  fresh .outrSticky 0 (bits.setWidth 64) { s with outr := { s.outr with sticky := s.outr.sticky ||| bits } }

/-- Count an abandoned sample of a step (R198). -/
def abandon (n : Nat) (s : State) : State :=
  let s := outrSticky 0x10 { s with outr := { s.outr with abandoned := satAdd 0xFFFF s.outr.abandoned 1 } }
  modOpen n (fun o => { o with abandon := o.abandon + 1 }) s

/-- Take the samples of a segment when the first copy of an operand reaches the Outrider. A unit held in reset takes none. -/
def takeSamples (h seg n : Nat) (s : State) : State :=
  match sheetHead s h, openStep s n, s.cue.sheet, reducerWord s h with
  | some sh, some o, some img, some (_, w) =>
    if unitHeld s unitOutrider then s
    else
      (List.range ((min 256 (sh.len - 256 * seg) + 63) / 64)).foldl (fun s b =>
        if !sampled o.outrCtrl img.seed (BitVec.ofNat 64 n) sh.hid seg b then s
        else
          let s := { s with outr := { s.outr with samples := s.outr.samples + 1 } }
          let s := modOpen n (fun o => { o with samples := o.samples + 1 }) s
          if s.outr.ctxs.length ≥ 64 then abandon n s
          else { s with outr := { s.outr with
            ctxs := s.outr.ctxs ++ [{ head := h, seg := seg, block := b, step := n, checks := checksFor sh (cKind w)
                                      ctrl := o.outrCtrl, sum := List.replicate 64 0 }] } }) s
  | _, _, _, _ => s

/-- Change the samples of a segment. -/
def modSamples (h seg n : Nat) (f : Sample → Sample) (s : State) : State :=
  { s with outr := { s.outr with ctxs := s.outr.ctxs.map (fun x =>
      if decide (x.head = h) && decide (x.seg = seg) && decide (x.step = n) then f x else x) } }

/-- A segment is FENCED: its samples are abandoned (R198). -/
def dropSamples (h seg n : Nat) (s : State) : State :=
  let gone := s.outr.ctxs.filter (fun x => decide (x.head = h) && decide (x.seg = seg) && decide (x.step = n))
  let s := { s with outr := { s.outr with
    ctxs := s.outr.ctxs.filter (fun x => !(decide (x.head = h) && decide (x.seg = seg) && decide (x.step = n))) } }
  gone.foldl (fun s _ => abandon n s) s

/-! ### The snoop queue (R198) -/

/-- Entries in the snoop queue now, times 300: one leaves in each arena cycle, 300/141 ticks. -/
def snoopNow (s : State) : Nat := s.outr.snoop - 141 * (s.time - s.outr.snoopAt)

/-- k entries of one sample pass into the snoop queue of 512; a sample that finds it full is abandoned. -/
def snoopOne (k : Nat) (s : State) (y : Sample) : State :=
  let l := snoopNow s
  if l + 300 * k ≤ 512 * 300 then { s with outr := { s.outr with snoop := l + 300 * k, snoopAt := s.time } }
  else
    let same (z : Sample) : Bool := decide (z.head = y.head) && decide (z.seg = y.seg) && decide (z.step = y.step) && decide (z.block = y.block)
    abandon y.step { s with outr := { s.outr with ctxs := s.outr.ctxs.filter (fun z => !same z) } }

/-- k operands and results of a segment pass the Outrider, as many entries for each of its samples (DESIGN CHOICE, log 76). -/
def snoop (h seg n k : Nat) (s : State) : State :=
  (s.outr.ctxs.filter (fun x => decide (x.head = h) && decide (x.seg = seg) && decide (x.step = n))).foldl (snoopOne k) s

/-! ### The Outrider's own sums (R197) -/

/-- The slot as the Outrider sums it: its own accumulators and void elements in the sample's block. -/
def shadowSlot (x : Slot) (y : Sample) : Slot :=
  let pad := 64 * y.block
  { x with acc := List.replicate pad 0 ++ y.sum, void := (y.void.setWidth 256) <<< pad }

/-- Take the sums back from such a slot. -/
def keepShadow (x : Slot) (y : Sample) : Sample :=
  let pad := 64 * y.block
  { y with sum := (x.acc.drop pad).take 64, void := (x.void >>> pad).setWidth 64 }

/-- An add to a slot, made again on the Outrider's own sums. -/
def shadowAdd (x : Slot) (f : Slot → Slot) (s : State) : State :=
  modSamples x.head x.seg x.step (fun y => keepShadow (f (shadowSlot x y)) y) s

/-- The first element of a sample's block in which the fired slot differs from the Outrider's own sum. -/
def sumMiss (x : Slot) (y : Sample) : Option (BitVec 6) :=
  ((List.range (min 64 (x.seglen - 64 * y.block))).find? (fun i =>
    let j := 64 * y.block + i
    x.void.getLsbD j != y.void.getLsbD i || (!x.void.getLsbD j && x.acc.getD j 0 != y.sum.getD i 0))).map (BitVec.ofNat 6)

/-! ### Tolerance measures (R199, R200) -/

/-- GMAX of one block, over G as R142 defines it (R199). -/
def gmaxOf (x : Slot) (b : Nat) : Int :=
  let vs := (List.range (min 64 (x.seglen - 64 * b))).filterMap (fun i => (zVal (slotGrad x (64 * b + i)).v).filter (fun d => d.m ≠ 0))
  match vs with
  | [] => (match fmtOf x.fmt.toNat with
      | some .z32 => fmtUnit .z48
      | some f => fmtUnit f + slotExp x b
      | none => 0) - 1
  | v :: r => r.foldl (fun a d => max a ((Nat.log2 d.m : Int) + d.q)) ((Nat.log2 v.m : Int) + v.q)

/-- A slot fires: SUM or FSUM compares, and at a root GROWTH has what it needs. -/
def samplesFire (x : Slot) (s : State) : State :=
  modSamples x.head x.seg x.step (fun y => { y with
    ready := y.ready ++ [1, 2, 5], gmax := some (gmaxOf x y.block)
    miss := match sumMiss x y with
      | some e => [(1, e), (2, e)]
      | none => [] }) (snoop x.head x.seg x.step 1 s)

/-- The host events of R202 and R203. -/
def outrEvent (hid : BitVec 16) (bits n : Nat) (s : State) : State :=
  hostEvent 0x04 (leBytes 2 hid.toNat ++ leBytes 1 bits ++ zeros 5 ++ leBytes 8 n) s

/-- What the Outrider has reported for a head's step. -/
def outrNote (s : State) (n h : Nat) : OutrNote :=
  (s.outr.notes.find? (fun x => decide (x.step = n) && decide (x.head = h))).getD { step := n, head := h }
def modNote (n h : Nat) (f : OutrNote → OutrNote) (s : State) : State :=
  let x := f (outrNote s n h)
  { s with outr := { s.outr with notes := s.outr.notes.filter (fun y => !(decide (y.step = n) && decide (y.head = h))) ++ [x] } }

/-- Count failed exact checks and tolerance events in the playbill of the step; when that is closed, in the next playbill written: the
oldest open step's, or that of the next step to open (R202). -/
def noteOutr (n exact toler : Nat) (s : State) : State :=
  let oldest := (s.cue.run.bind (fun r => r.steps.head?)).map (·.step)
  match (if (openStep s n).isSome then some n else oldest) with
  | some k => modOpen k (fun o => { o with exact := o.exact + exact, toler := o.toler + toler }) s
  | none =>
    let c := s.outr.carry
    { s with outr := { s.outr with carry := (c.1 + exact, c.2.1 + toler, c.2.2.1, c.2.2.2) } }

/-- A sample's tolerance measures are tested against the head's baseline and update it (R200). A sample without DRIFT, its update being
one that R318 leaves out, adds 0 to the sum while the head learns and leaves BASE_D as it is after (DESIGN CHOICE, log 100). -/
def learn (b : Baseline) (gmax : Int) (drift : Option Nat) (tolG tolD : Nat) : Baseline × Bool × Bool :=
  let d : Int := (drift.getD 0 : Nat)
  if b.count < 4096 then
    let g := b.sumG + gmax
    let e := b.sumD + d
    if b.count + 1 = 4096 then ({ count := 4096, sumG := g, sumD := e, baseG := g / 16, baseD := e / 16 }, false, false)
    else ({ b with count := b.count + 1, sumG := g, sumD := e }, false, false)
  else
    let evG := decide (tolG ≠ 0) && decide (256 * gmax > b.baseG + 256 * tolG)
    let evD := drift.isSome && decide (tolD ≠ 0) && decide (256 * d > b.baseD + 256 * tolD)
    ({ b with baseG := b.baseG + (256 * gmax - b.baseG) / 256
              baseD := if drift.isSome then b.baseD + (256 * d - b.baseD) / 256 else b.baseD }, evG, evD)

/-- The tolerance checks of a sample have ended. Only samples whose checks end count, so none of a forwarding head does
(DESIGN CHOICE, log 77). -/
def endTolerance (x : Sample) (s : State) : State :=
  match s.harn.heads[x.head]?, sheetHead s x.head, x.gmax with
  | some hd, some sh, some g =>
    let r := learn hd.baseline g x.drift (fld x.ctrl 15 12) (fld x.ctrl 19 16)
    let s := modHead x.head (fun h => { h with baseline := r.1 }) s
    if !r.2.1 && !r.2.2 then s
    else
      let s := outrSticky ((if r.2.1 then 4 else 0) ||| (if r.2.2 then 8 else 0)) { s with outr := { s.outr with
        growth := if r.2.1 then satAdd 0xFFFF s.outr.growth 1 else s.outr.growth
        drift := if r.2.2 then satAdd 0xFFFF s.outr.drift 1 else s.outr.drift } }
      let s := noteOutr x.step 0 ((if r.2.1 then 1 else 0) + (if r.2.2 then 1 else 0)) s
      let note := outrNote s x.step x.head
      if note.told then s
      else
        outrEvent sh.hid ((if r.2.1 then 1 else 0) + (if r.2.2 then 2 else 0) + (if note.exact then 4 else 0)) x.step
          (modNote x.step x.head (fun y => { y with told := true }) s)
  | _, _, _ => s

/-- A slot is released: checks whose operands never came do not apply. A sample whose GROWTH has ended and whose DRIFT never comes has
ended its tolerance checks, and a sample with no check left is over. -/
def trimSamples (h seg n : Nat) (s : State) : State :=
  let ended := s.outr.ctxs.filter (fun y => decide (y.head = h) && decide (y.seg = seg) && decide (y.step = n) &&
    y.checks.contains 6 && !y.ready.contains 6 && !y.checks.contains 5)
  let s := modSamples h seg n (fun y => { y with checks := y.checks.filter (fun c => y.ready.contains c) }) s
  let s := { s with outr := { s.outr with ctxs := s.outr.ctxs.filter (fun y => !y.checks.isEmpty) } }
  ended.foldl (fun s y => endTolerance y s) s

/-! ### Overflow and void (R203) -/

/-- Add to OVFBLK and VOIDEL of a head's step; the overflow event is sent once. -/
def countHead (n h ovfblk voidel : Nat) (limit : Bool) (s : State) : State :=
  match hstepOf s n h, sheetHead s h, openStep s n with
  | some x, some sh, some o =>
    let ovf := x.ovfblk + ovfblk
    let evt := fld o.outrCtrl 47 32
    let reach := decide (evt ≠ 0) && decide (x.ovfblk < evt) && decide (ovf ≥ evt)
    let due := (reach || limit) && !x.ovfSent
    let s := modHStep n h (fun y => { y with ovfblk := ovf, voidel := y.voidel + voidel, ovfSent := y.ovfSent || due }) s
    let s := if reach && !unitHeld s unitOutrider then outrSticky 2 s else s
    if due then
      hostEvent 0x05 (leBytes 2 sh.hid.toNat ++ leBytes 1 (if limit then 1 else 0) ++ [0] ++ leBytes 4 ovf ++ leBytes 8 n) s
    else s
  | _, _, _ => s
where
  hstepOf (s : State) (n h : Nat) : Option HeadStep := (openStep s n).bind (fun o => o.heads[h]?)

end Sys2Proof.Machine
end

