-- ==== Sys2Proof/Machine/HarnOps.lean ====
section
/-! DEFINITION. The harness's shared operations: the scale window, arming, accumulating, firing, forwarding, spill and release
(03_harnesses.md R64 to R92; 05 R151). -/

namespace Sys2Proof.Machine

def harnSticky (bit : Nat) (s : State) : State :=
  fresh .harnSticky 0 (bitOf bit) { s with harn := { s.harn with sticky := s.harn.sticky ||| BitVec.ofNat 10 (1 <<< bit) } }

def bDup : Nat := 0
def bStale : Nat := 1
def bEarly : Nat := 2
def bMalformed : Nat := 3
def bExclDrop : Nat := 4
def bEccCorr : Nat := 5
def bEccUncorr : Nat := 6
def bFenced : Nat := 7
def bParkFull : Nat := 8
def bScaleMismatch : Nat := 9

/-- Change the counters of a member slot; slots above 64 have none. -/
def countMember (m : Nat) (f : MbrCount → MbrCount) (s : State) : State :=
  if h : m < 65 then { s with harn := { s.harn with members := vmod s.harn.members ⟨m, h⟩ f } } else s

/-! ### Segments and scales (R64, R84, R85) -/

def segLen (sh : SheetHead) (seg : Nat) : Nat := min 256 (sh.len - 256 * seg)

/-- Address of the SCALES byte of a block (R85). -/
def scaleAddr (hd : Head) (seg b : Nat) : Nat := hd.scaleAt + 4 * seg + b

/-- The four EXP fields of a segment's SCALES entry in LPDDR6. -/
def readScales (s : State) (sh : SheetHead) (hd : Head) (seg : Nat) : BitVec 24 :=
  (List.range ((segLen sh seg + 63) / 64)).foldl (fun v b =>
    v ||| BitVec.ofNat 24 (((memByte s.dram (scaleAddr hd seg b)).toNat % 64) <<< (6 * b))) 0

/-- EXP of block b in an entry, as an integer. -/
def entryExp (v : BitVec 24) (b : Nat) : Int := signed 6 (v.toNat >>> (6 * b))

/-- EXP fields of the blocks of a segment as an entry of the scale window. -/
def packExps (exps : List Int) : BitVec 24 :=
  exps.zipIdx.foldl (fun v x => v ||| BitVec.ofNat 24 (twos 6 x.1 <<< (6 * x.2))) 0

/-- Write a segment's SCALES entry to the scale window, where it is held, and to LPDDR6 (R84, R85). -/
def writeScales (h seg blocks : Nat) (exps : List Int) (s : State) : State := match s.harn.heads[h]? with
  | none => s
  | some hd =>
    let es := exps.take blocks
    modHead h (fun x => { x with window := x.window.map (fun e => if e.1 = seg then (seg, packExps es) else e) })
      { s with dram := memWrite s.dram (scaleAddr hd seg 0) (es.map (fun e => BitVec.ofNat 8 (twos 6 e))) }

/-- The scale in force of a segment in the window. -/
def windowEntry (hd : Head) (seg : Nat) : Option (BitVec 24) := (hd.window.find? (fun x => decide (x.1 = seg))).map (·.2)

/-- Is a band of head h of an earlier step still to be cast (R85, R165)? -/
def castsOpen (s : State) (h n : Nat) : Bool :=
  s.prj.bands.any (fun b => decide (b.head = h) && decide (b.step < n) && decide (b.st ≠ .done))

/-- May the entry of a segment of the open step be filled (R85)? -/
def mayFill (s : State) (h seg : Nat) : Bool := match sheetHead s h, s.harn.heads[h]?, s.cue.sheet with
  | some sh, some hd, some img =>
    headScaled sh && decide (seg < segsOf sh.len) && decide (hd.base ≤ seg) && decide (seg < hd.base + sh.segwin) &&
      (windowEntry hd seg).isNone && !castsOpen s h hd.step && (sh.root || decide (hd.step = img.firstStep) || hd.passed.contains seg)
  | _, _, _ => false

/-! ### Advertising (R82, R93) -/

/-- Send WINDOW to every expected member on ports 0 to 63. -/
def advertise (h : Nat) (s : State) : State := match sheetHead s h, s.harn.heads[h]? with
  | some sh, some hd =>
    (slotsOf hd.expected).foldl (fun s m =>
      if m < 64 then sendMember (harnPort sh.hid) sh.hid m (windowPacket sh.hid (BitVec.ofNat 32 hd.step) hd.base (srcAddr s)) s
      else s) s
  | _, _ => s

/-- Fill one entry; a step that waited for its first entries is advertised with the last of them. -/
def fillEntry (h seg : Nat) (s : State) : State := match sheetHead s h, s.harn.heads[h]? with
  | some sh, some hd =>
    let v := readScales s sh hd seg
    let s := modHead h (fun x => { x with window := x.window ++ [(seg, v)] }) s
    let full := (List.range (min sh.segwin (segsOf sh.len))).all (fun i => decide (i = seg) || (windowEntry hd i).isSome)
    if hd.adverting && full then advertise h (modHead h (fun x => { x with adverting := false }) s) else s
  | _, _ => s

/-! ### Slots -/

def residents : Nat := 16384

def isSlot (h seg : Nat) (x : Slot) : Bool := decide (x.head = h) && decide (x.seg = seg)
def slotOf (s : State) (h seg : Nat) : Option Slot := s.harn.slots.find? (isSlot h seg)
def modSlot (h seg : Nat) (f : Slot → Slot) (s : State) : State :=
  { s with harn := { s.harn with slots := modFirst (isSlot h seg) f s.harn.slots } }
def dropSlot (h seg : Nat) (s : State) : State :=
  { s with harn := { s.harn with slots := s.harn.slots.filter (fun x => !isSlot h seg x) } }

/-- Is spill image i in use? -/
def imageUsed (s : State) (i : Nat) : Bool :=
  s.harn.slots.any (fun x => decide (x.index = residents + i) ||
    ((decide (x.st = .spilling) || decide (x.st = .reloading)) && decide (x.image = i)))

/-- Lowest-numbered free resident slot and spill image (R66). -/
def freeResident (s : State) : Option Nat := findFrom (fun i => s.harn.slots.all (fun x => !decide (x.index = i))) residents 0
def freeImage (s : State) : Option Nat := findFrom (fun i => !imageUsed s i) residents 0

/-- Arm a key (Table Harness-5, R87). -/
def armSlot (h seg : Nat) (s : State) : State :=
  match sheetHead s h, s.harn.heads[h]? with
  | some sh, some hd =>
    let mk (index : Nat) (st : DescSt) : Slot :=
      { index := index, head := h, seg := seg, st := st, fmt := sh.fmt, seglen := segLen sh seg, step := hd.step
        scale := (windowEntry hd seg).getD 0, expected := hd.expected, acc := List.replicate (segLen sh seg) 0 }
    match freeResident s with
    | some i => { s with harn := { s.harn with slots := s.harn.slots ++ [mk i .armed] } }
    | none => match freeImage s with
      | some i => { s with harn := { s.harn with
          slots := s.harn.slots ++ [mk (residents + i) .spilled], spills := satAdd 0xFFFF_FFFF s.harn.spills 1 } }
      | none => s
  | _, _ => s

/-! ### Accumulation (R75 to R79) -/

/-- Elements of a contribution as exact units, or as Z48 for float mode; none is void (R75, R78). `scale` is the entry in
force; the result is each element as bits of its accumulator. -/
def contrUnits (x : Slot) (pk : Packet) : List (Option Int) :=
  let partialIn := pk.kind == kPartial
  let code := slotAcc x
  (List.range x.seglen).map (fun j =>
    let b := j / 64
    if partialIn then
      if (byteAt pk.bytes (16 + j / 8)).getLsbD (j % 8) then none
      else some (signed (8 * wireBytes code) (leAt pk.bytes (48 + wireBytes code * j) (wireBytes code)))
    else match fmtOf x.fmt.toNat with
      | none => none
      | some f =>
        let sb := byteAt pk.bytes (12 + b)
        if blockScaled f && (sb.getLsbD 7 || decide (scaleExp sb ≠ entryExp x.scale b)) then none
        else
          let c := (unpackCodes f x.seglen (pk.bytes.drop 16)).getD j 0
          (decodeVal f c).map (fun d =>
            let n : Int := d.m * 2 ^ (d.q - fmtUnit f).toNat
            if d.neg then -n else n))

/-- Z48 operands of a float contribution. -/
def contrFloats (x : Slot) (pk : Packet) : List (BitVec 48) :=
  (List.range x.seglen).map (fun j =>
    if pk.kind = kPartial then
      if (byteAt pk.bytes (16 + j / 8)).getLsbD (j % 8) then zVoid else BitVec.ofNat 48 (leAt pk.bytes (48 + 6 * j) 6)
    else (zOf (decodeVal .z32 (leAt pk.bytes (16 + 4 * j) 4))).v)

/-- Out-of-range bits that a contribution brings: its scale bytes' OVF, or a partial's BLKOVF (R44, R67). -/
def contrOvf (x : Slot) (pk : Packet) : BitVec 4 :=
  if x.fmt.toNat ≥ 3 then 0
  else if pk.kind = kPartial then BitVec.ofNat 4 (byteAt pk.bytes 12).toNat
  else BitVec.ofNat 4 ((List.range 4).foldl (fun a b => a + (if (byteAt pk.bytes (12 + b)).getLsbD 6 then 2 ^ b else 0)) 0)

/-- Void bits of a list of flags. -/
def voidBits (l : List Bool) : BitVec 256 :=
  BitVec.ofNat 256 ((l.zipIdx).foldl (fun a x => if x.1 then a + 2 ^ x.2 else a) 0)

/-- Add an exact contribution (R75, R76) (DEDUCED, log 64). -/
def addExact (x : Slot) (us : List (Option Int)) : Slot :=
  let w := accWidth (slotAcc x)
  let v := x.void ||| voidBits (us.map (·.isNone))
  { x with void := v, zero := false
           acc := (List.range x.seglen).map (fun j =>
             if v.getLsbD j then 0
             else BitVec.ofNat 96 (twos w (signed w (x.acc.getD j 0).toNat + ((us.getD j none).getD 0)))) }

/-- Add a float operand to every element; the flags of the adds are kept with the slot (R48, R50, R78). -/
def addFloat (x : Slot) (zs : List (BitVec 48)) : Slot :=
  let rs := (List.range x.seglen).map (fun j =>
    if x.void.getLsbD j || zs.getD j 0 == zVoid then ⟨zVoid, fVoidIn⟩ else zAdd ⟨(x.acc.getD j 0).setWidth 48, 0⟩ ⟨zs.getD j 0, 0⟩)
  { x with void := voidBits (rs.map (fun z => z.v == zVoid)), zero := false
           flags := rs.foldl (fun a z => a ||| z.f) x.flags
           acc := rs.map (fun z => if z.v = zVoid then 0 else z.v.setWidth 96) }

/-- The lowest expected slot whose contribution has not been added (R79). -/
def nextMember (x : Slot) : Option Nat := (slotsOf x.expected).find? (fun m => !x.added.getLsbD m)

/-- Add the parked contributions that have become next (R79). -/
def unpark : Nat → Slot → Slot
  | 0, x => x
  | n + 1, x => match nextMember x with
    | none => x
    | some m => match x.parked.find? (fun p => decide (p.mslot = m)) with
      | none => x
      | some p =>
        unpark n { addFloat x p.vals with parked := dropFirst (fun q => decide (q.mslot = m)) x.parked, added := x.added ||| slotBit m }

/-- Contributions that the park pool of 2 MiB holds (R79; DEDUCED, log 42). -/
def parkPool : Nat := 1310

/-- Parked contributions now. -/
def parkedNow (s : State) : Nat := s.harn.slots.foldl (fun a x => a + x.parked.length) 0

/-! ### Spill images (R68, R88, R90) -/

/-- First byte of a spill image of 3 KiB. -/
def spillAddr (image : Nat) : Nat := spillBase + 3072 * image

/-- Bytes of a container (Table Harness-3). -/
def containerSize (code : Nat) : Nat := match code with
  | 8 => 4 | 11 => 12 | _ => 8

/-- Accumulator container bytes (Table Harness-3). -/
def containerBytes (code : Nat) (a : BitVec 96) : List Byte :=
  match code with
  | 8 => leBytes 4 (a.toNat % 2 ^ 32)
  | 11 => leBytes 12 a.toNat
  | 6 => leBytes 8 (a.toNat % 2 ^ 48)
  | c => leBytes 8 (twos 64 (signed (accWidth c) a.toNat))

/-- The image of a slot: its containers from offset 0 (R90). -/
def imageBytes (x : Slot) : List Byte := x.acc.flatMap (containerBytes (slotAcc x))

/-- The accumulators that an image holds. -/
def imageAcc (m : Mem) (x : Slot) (image : Nat) : List (BitVec 96) :=
  let k := containerSize (slotAcc x)
  (List.range x.seglen).map (fun j => BitVec.ofNat 96 (memLe m (spillAddr image + k * j) k % 2 ^ accWidth (slotAcc x)))

/-- The image in which the sum of a slot stands: that of a SPILLED one, or of one whose image is being read back (R66, R88). -/
def sumImage (x : Slot) : Option Nat :=
  if x.zero then none
  else if x.st = .spilled then some (x.index - residents)
  else if x.st = .reloading then some x.image
  else none

/-- A slot with its sum at hand (R88). -/
def withSum (s : State) (x : Slot) : Slot := match sumImage x with
  | some i => { x with acc := imageAcc s.dram x i }
  | none => x

/-- Put a slot back after an add: a sum that stands in an image is written back to it; with ZERO = 1 there is none (R79, R87, R88). -/
def keepSlot (y : Slot) (s : State) : State := match sumImage y with
  | some i => modSlot y.head y.seg (fun _ => { y with acc := [] }) { s with dram := memWrite s.dram (spillAddr i) (imageBytes y) }
  | none => modSlot y.head y.seg (fun _ => y) s

/-! ### Fire (R80, R81, R151) -/

/-- The fire rule (R80). -/
def fireRule (x : Slot) : Bool := (x.received &&& x.expected) == x.expected && x.parked.isEmpty

/-- A forwarded sum in the partial form of R81. -/
def slotPartial (sh : SheetHead) (x : Slot) (m : Nat) (src : BitVec 16) : Packet :=
  partialPacket sh.hid (slotAcc x) m (BitVec.ofNat 32 x.step) x.seg x.seglen x.blkovf x.void x.acc 0xFFFF src

/-- Send the partial of a fired slot to the parent. -/
def sendPartial (h seg : Nat) (s : State) : State := match sheetHead s h, slotOf s h seg with
  | some sh, some x =>
    sendOn (harnPort sh.hid) (Fin.ofNat 64 sh.parent.toNat) (slotPartial sh x sh.pslot.toNat (srcAddr s))
      (modSlot h seg (fun y => { y with sentUp := true, st := if y.st = .fired then .draining else y.st }) s)
  | _, _ => s

/-- Is a segment's seed copy sent and not acknowledged (Table Groom-9)? -/
def copyOut (s : State) (hid : BitVec 16) (seg : Nat) : Bool :=
  s.grm.seedQueue.any (fun q => q.hid == hid && q.unacked.contains seg)

/-- Queue the forward of a fired slot to the partner (R151); it is held while the segment's copy is unacknowledged (DEDUCED, log 61). -/
def sendForward (h seg : Nat) (again : Bool) (s : State) : State :=
  match sheetHead s h, slotOf s h seg with
  | some sh, some x => match shardOf s sh.hid with
    | some r =>
      if r.role = roleOwner ∧ r.partner ≠ 0 ∧ !copyOut s sh.hid seg then
        sendPartner (harnPort sh.hid) r again (slotPartial sh x r.uslot (srcAddr s)) (modSlot h seg (fun y => { y with forwarded := true }) s)
      else s
    | none => s
  | _, _ => s

/-- A slot fires: a forwarding module sends its partial, a root's token goes to the update stage, and an owner forwards the sum to its
understudy (R81, R151). -/
def fireSlot (h seg : Nat) (s : State) : State :=
  match sheetHead s h, slotOf s h seg with
  | some sh, some x =>
    let s := modSlot h seg (fun y => { y with hasFired := true, st := if y.st = .fenced then .fenced else .fired }) s
    let s := modHStep x.step h (fun y => { y with reduced := true }) (samplesFire x s)
    let s := feedSumsq x.step seg (segsOf sh.len) sh.hid (slotGrads x) s
    let s := if sh.root then s
      else sendPartial h seg (countHead x.step h 0 ((List.range x.seglen).countP (fun j => x.void.getLsbD j)) false s)
    sendForward h seg false s
  | _, _ => s

/-- Test the fire rule of a slot (R80). A spilled slot that meets it waits for its reload. -/
def testFire (h seg : Nat) (s : State) : State := match slotOf s h seg with
  | some x => if !x.hasFired && fireRule x && (decide (x.st = .armed) || decide (x.st = .filling)) then fireSlot h seg s else s
  | none => s

/-! ### The Carriage's order (R134) (DESIGN CHOICE, log 72) -/

/-- Requests waiting in the Carriage: priority and issue number. State writes of the Groom engine are priority 1, moves of slots 2,
MOVE cues, zero fills and a state audit 3. -/
def carriageWaits (s : State) : List (Nat × Nat) :=
  (s.harn.jobs.filter (fun j => j.wReady && !j.writesDone)).map (fun j => (1, j.issue)) ++
  (s.harn.slots.filter (fun x => decide (x.st = .spilling) || decide (x.st = .reloading))).map (fun x => (2, x.issue)) ++
  ((s.cue.run.map (·.steps)).getD []).flatMap (fun o => (o.insts.filter (fun i =>
    i.started && !i.finished && decide (i.st ≠ .failed) && (cueWord s i.cue).any (fun w => decide (cKind w = cMove)))).map (fun i => (3, i.issue))) ++
  s.grm.fills.map (fun f => (3, f.2)) ++ s.dig.auditJob.toList.map (fun j => (3, j.issue))

/-- Is it the turn of a waiting request: none of a higher priority waits, and none of its own was issued before it? -/
def carriageTurn (s : State) (prio issue : Nat) : Bool :=
  (carriageWaits s).all (fun w => decide (prio < w.1) || (decide (prio = w.1) && decide (issue ≤ w.2)))

/-- Are accesses of a priority that are issued now served at once: does no request of that priority or a higher one wait? -/
def carriageClear (s : State) (prio : Nat) : Bool := (carriageWaits s).all (fun w => decide (prio < w.1))

/-! ### Spill and reload (R89) -/

/-- The spilled descriptor to reload: one that meets the fire rule, the most received bits, the lowest index. -/
def reloadChoice (s : State) : Option Slot :=
  (s.harn.slots.filter (fun x => decide (x.st = .spilled))).foldl (fun best x => match best with
    | none => some x
    | some b =>
      let better := if fireRule x != fireRule b then fireRule x
        else if popcount x.received ≠ popcount b.received then decide (popcount b.received < popcount x.received)
        else decide (x.index < b.index)
      if better then some x else some b) none

/-- The resident slot to evict: the fewest received bits, the highest index. -/
def victim (s : State) : Option Slot :=
  (s.harn.slots.filter (fun x => decide (x.st = .armed) || decide (x.st = .filling))).foldl (fun best x => match best with
    | none => some x
    | some b =>
      let better := if popcount x.received ≠ popcount b.received then decide (popcount x.received < popcount b.received)
        else decide (b.index < x.index)
      if better then some x else some b) none

/-- One move that is due: a free resident slot is assigned to a reload, or a slot is evicted for a spilled one that meets the
fire rule. The evicted slot takes the lowest free image, and with none free it is not evicted (DESIGN CHOICE, log 69). -/
def moveOne (s : State) : Option State :=
  match reloadChoice s with
  | none => none
  | some x => match freeResident s with
    | some i =>
      some (modSlot x.head x.seg (fun y => { y with st := .reloading, image := y.index - residents, index := i, issue := s.issued })
        { s with issued := s.issued + 1, harn := { s.harn with reloads := satAdd 0xFFFF_FFFF s.harn.reloads 1 } })
    | none =>
      let leaving := s.harn.slots.countP (fun y => decide (y.st = .spilling))
      let met := s.harn.slots.countP (fun y => decide (y.st = .spilled) && fireRule y)
      if leaving < met then match victim s, freeImage s with
        | some v, some i => some (modSlot v.head v.seg (fun y => { y with st := .spilling, image := i, issue := s.issued })
            { s with issued := s.issued + 1 })
        | _, _ => none
      else none

/-- Start moves while one is due. -/
def moveUpTo : Nat → State → State
  | 0, s => s
  | n + 1, s => match moveOne s with
    | some t => moveUpTo n t
    | none => s

/-- Every move that is due now starts (R89). -/
def moveSlots (s : State) : State := moveUpTo s.harn.slots.length s

/-! ### Taking a contribution -/

/-- Lateness, at this stamp, for the launched instances of step n whose cues name a head and have a deadline (R118, R119). -/
def latenessNow (s : State) (hid : BitVec 16) (n : Nat) : Nat := match openStep s n, s.cue.sheet with
  | some o, some img => (o.insts.zip img.cues).foldl (fun a x =>
      if x.1.launched && headed (cKind x.2) && cHid x.2 == hid && decide (cDeadline x.2 ≠ 0) then
        max a (s.stg.now.toNat - (x.1.launchAt + cDeadline x.2))
      else a) 0
  | _, _ => 0

/-- The stamp of a contribution as it is accumulated (R119, R122). -/
def noteLate (h m : Nat) (s : State) : State := match s.harn.heads[h]?, sheetHead s h with
  | some hd, some sh =>
    let late := latenessNow s sh.hid hd.step
    if late > 0 then modMember sh.company m (fun x => { x with worst := min 0xFFFF_FFFF (max x.worst late) }) s else s
  | _, _ => s

/-- What accumulating does beside the sum, where a slot has gone from x to y: the stamps of the members added, the first
accumulate of the instance and the flags raised (R48, R119, R464). -/
def noteAdds (h : Nat) (x y : Slot) (s : State) : State :=
  let new := slotsOf (y.added &&& ~~~x.added)
  if new.isEmpty then s
  else
    let s := new.foldl (fun s m => noteLate h m s) s
    match reducer s h with
    | some c => noteFirst y.step c (noteFlags y.step c y.flags s)
    | none => s

/-- Block mismatches under R42. -/
def mismatches (x : Slot) (pk : Packet) : Nat :=
  if x.fmt.toNat < 3 ∧ pk.kind = kContrib then
    (List.range ((x.seglen + 63) / 64)).countP (fun b => decide (scaleExp (byteAt pk.bytes (12 + b)) ≠ entryExp x.scale b))
  else 0

/-- A slot that has taken its first add is FILLING (Table Harness-5). -/
def fillingNow (y : Slot) : Slot := if y.st = .armed ∧ y.added ≠ 0 then { y with st := .filling } else y

/-- The next stage starts on a fired slot (Table Harness-5). -/
def drainingNow (y : Slot) : Slot := if y.st = .fenced then y else { y with st := .draining }

/-- Is a float contribution parked (R79)? (DEDUCED, log 42). -/
def parks (s : State) (x : Slot) (m : Nat) : Bool :=
  decide (slotAcc x = 6) && !libertyMode s && decide (nextMember x ≠ some m)

/-- Add or park a contribution that has passed the tests (test 9). -/
def takeContr (h seg m : Nat) (pk : Packet) (s : State) : State :=
  match slotOf s h seg with
  | none => s
  | some x =>
    let n := mismatches x pk
    let s := if n = 0 then s
      else harnSticky bScaleMismatch (countMember m (fun c => { c with mismatch := satAdd 0xFFFF c.mismatch n }) s)
    let bit := slotBit m
    let add (y : Slot) : Slot :=
      if parks s x m then
        { y with parked := y.parked ++ [⟨m, contrFloats x pk, 0, 0⟩] }
      else if slotAcc x = 6 then
        let z := { addFloat y (contrFloats x pk) with added := y.added ||| bit }
        if libertyMode s then z else unpark (z.parked.length + 1) z
      else { addExact y (contrUnits x pk) with added := y.added ||| bit }
    let y := fillingNow (add { withSum s x with received := x.received ||| bit, blkovf := x.blkovf ||| contrOvf x pk })
    let s := shadowAdd x add (snoop h seg x.step 1 s)
    moveSlots (testFire h seg (noteAdds h x y (keepSlot y s)))

/-! ### Intake tests (Table Harness-6) -/

/-- What intake does with a contribution. -/
inductive Verdict where
  | drop (bit : Nat)
  /-- It does not enter the tests yet. -/
  | wait
  /-- It would be parked and finds the park pool full (R79). -/
  | park
  | take (h : Nat)
  deriving DecidableEq, Repr

/-- Format code that a packet of a kind must have for a head. -/
def wantedFmt (sh : SheetHead) (partialIn : Bool) : Nat := match fmtOf sh.fmt.toNat with
  | some f => if partialIn then accOf f else sh.fmt.toNat
  | none => 16

/-- The tests, after the waits of R117, R85 and R88; an in-place add waits its turn at the Carriage (R88, R134) (DEDUCED, log 61). -/
def intakeTest (pk : Packet) (s : State) : Verdict :=
  match headIdx s (pHid pk) with
  | none => .drop bMalformed
  | some h => match sheetHead s h, s.harn.heads[h]? with
    | some sh, some hd =>
      let seg := pSeg pk
      let m := pMslot pk
      let d := signed 32 (pStep pk - BitVec.ofNat 32 hd.step).toNat
      let slot : Option Slot := slotOf s h seg
      let moving : Bool := match slot with
        | some (x : Slot) => x.st == DescSt.spilling || x.st == DescSt.reloading || (x.st == DescSt.spilled && !x.zero && !carriageClear s 2)
        | none => false
      if !headPermitted s h || recovering s then .wait
      else if decide (d = 0) && headScaled sh && decide (seg < segsOf sh.len) && decide (hd.base ≤ seg) &&
          decide (seg < hd.base + sh.segwin) && (windowEntry hd seg).isNone then .wait
      else if moving then .wait
      else if pFmt pk ≠ wantedFmt sh (pk.kind == kPartial) ∨ seg ≥ segsOf sh.len ∨ pCount pk ≠ segLen sh seg ∨ m > 64 then .drop bMalformed
      else if d < 0 ∨ (d = 0 ∧ (seg < hd.base ∨ hd.released.getLsbD (seg - hd.base) = true)) then .drop bStale
      else if d > 0 ∨ seg ≥ hd.base + sh.segwin then .drop bEarly
      else if (slot.map (fun (x : Slot) => x.st == DescSt.fenced)).getD false then .drop bFenced
      else
        let exp := (slot.map (fun (x : Slot) => x.expected)).getD hd.expected
        if !exp.getLsbD m then .drop (if (hd.leftOut ||| hd.lost).getLsbD m then bExclDrop else bMalformed)
        else if (slot.map (fun (x : Slot) => x.received.getLsbD m)).getD false then .drop bDup
        else if (match slot with
            | some (x : Slot) => parks s x m
            | none => headFloat sh && !libertyMode s && decide ((slotsOf hd.expected).head? ≠ some m)) && decide (parkedNow s ≥ parkPool) then .park
        else .take h
    | _, _ => .drop bMalformed

/-- Count a drop: its bit, and the member's counter for tests 3, 4 and 8. -/
def countDrop (bit m : Nat) (s : State) : State :=
  let s := harnSticky bit s
  if bit = bDup then countMember m (fun c => { c with dup := satAdd 0xFFFF c.dup 1 }) s
  else if bit = bStale then countMember m (fun c => { c with stale := satAdd 0xFFFF c.stale 1 }) s
  else if bit = bEarly then countMember m (fun c => { c with early := satAdd 0xFFFF c.early 1 }) s
  else s

/-! ### Errors in slot memory (R92) and in the add (R411) -/

/-- Elements of a slot with a bit in one of its uncorrectable 64-bit words. -/
def badElems (x : Slot) (ws : List Nat) : List Bool :=
  let bits := match slotAcc x with
    | 8 => 32
    | 11 => 96
    | _ => 64
  (List.range x.seglen).map (fun j => ws.any (fun w => decide (bits * j < 64 * w + 64) && decide (64 * w < bits * j + bits)))

/-- Make elements void. -/
def voidElems (x : Slot) (l : List Bool) : Slot :=
  let v := x.void ||| voidBits l
  { x with void := v, acc := (List.range x.seglen).map (fun j => if v.getLsbD j then 0 else x.acc.getD j 0) }

/-- A descriptor is found uncorrectable: FENCED, void in every element, and the segment goes on (R92). -/
def fenceSlot (h seg : Nat) (s : State) : State := match slotOf s h seg with
  | none => s
  | some x =>
    let all := List.replicate x.seglen true
    let s := modSlot h seg (fun y => { voidElems y all with st := .fenced, parked := [] }) (harnSticky bFenced s)
    let s := raise { src := srcArenaUncorr, sticky := s.harn.sticky.setWidth 64 } (dropSamples h seg x.step s)
    if x.hasFired then s else fireSlot h seg s

/-! ### LPDDR6 accesses: tags and errors (R90, R132, R133) -/

def grmSticky (bit : Nat) (s : State) : State :=
  fresh .grmSticky 0 (bitOf bit) { s with grm := { s.grm with sticky := s.grm.sticky ||| BitVec.ofNat 11 (1 <<< bit) } }

/-- The state word of a parameter after an uncorrectable error. -/
def voidWord : W64 := 0xFFFF_8000_8000_0000

/-- Package of a sub-channel: the INDEX of the LPDDR6 sources (DEDUCED, log 43). -/
def dramIndex (access : Nat) : BitVec 4 := BitVec.ofNat 4 (access % 128 / 8)

/-- The shard whose state an address holds. -/
def shardAt (s : State) (a : Nat) : Option Shard :=
  ((shardIndexes s).map (readShard s)).find? (fun r => decide (r.base ≤ a) && decide (a < r.base + stateSize r.len))

/-- The 16 tag bits that an access carries (R90, R132); 0 in a part of the state region that no shard holds (DEDUCED, log 91). -/
def tagOf (s : State) (access : Nat) : BitVec 16 :=
  let a := 32 * access
  if a < shardTable then ((shardAt s a).map (fun r => BitVec.ofNat 16 (r.hid.toNat % 4096))).getD 0
  else if a < spillBase then BitVec.ofNat 16 (0x1000 + (a - shardTable) / 64 % 4096)
  else if a < ringBase then BitVec.ofNat 16 (0x8000 + residents + (a - spillBase) / 3072)
  else if a < scratchBase then 0x2000
  else if a < residBase then 0x3000
  else 0x4000

/-- The spilled slot whose image an access lies in. -/
def slotAtImage (s : State) (access : Nat) : Option Slot :=
  s.harn.slots.find? (fun x => decide (spillBase ≤ 32 * access) && decide (32 * access < ringBase) &&
    (decide (x.st = .spilled) && decide (x.index = residents + (32 * access - spillBase) / 3072) ||
      decide (x.st = .reloading) && decide (x.image = (32 * access - spillBase) / 3072)))

/-- The data of an access are uncorrectable: in the state region its four words become void and are written back; in a spill
image its elements become void; elsewhere what it reads as from then on is free (R133) (DESIGN CHOICE, log 70). -/
def loseAccess (access : Nat) (s : State) : State :=
  if 32 * access < stateBytes then
    { s with dram := memWrite s.dram (32 * access) ((List.replicate 4 (leBytes 8 voidWord.toNat)).flatten) }
  else match slotAtImage s access with
    | some x =>
      let k := (32 * access - spillBase) % 3072 / 8
      modSlot x.head x.seg (fun y => voidElems y (badElems y [k, k + 1, k + 2, k + 3])) s
    | none =>
      if access < dataSpaceAccesses then
        drawn { s with dram := memWrite s.dram (32 * access) (leBytes 32 ((freeNow s).toNat % 2 ^ 256)) }
      else s

/-- An uncorrectable error or a tag mismatch of an access (R132, R133) (DEDUCED, log 13). -/
def badAccess (access : Nat) (mismatch : Bool) (s : State) : State :=
  let s := loseAccess access (grmSticky 6 (if mismatch then grmSticky 7 s else s))
  raise { src := srcDramUncorr, index := dramIndex access, sticky := s.grm.sticky.setWidth 64, addr := BitVec.ofNat 64 (32 * access) } s

/-- What one access reports. The tag bits read are compared with those the access was written with. -/
def accessError (access : Nat) (k : AccErrKind) (s : State) : State := match k with
  | .corrected =>
    let s := grmSticky 5 s
    raise { src := srcDramCorr, index := dramIndex access, sticky := s.grm.sticky.setWidth 64, addr := BitVec.ofNat 64 (32 * access) } s
  | .uncorrectable => badAccess access false s
  | .tag t => if t = tagOf s access then s else badAccess access true s

/-- What the accesses of a read of n bytes from address a report; an error of an access that the read does not make says nothing. -/
def readErrors (a n : Nat) (errs : List AccErr) (s : State) : State :=
  errs.foldl (fun s x => if a / 32 ≤ x.access ∧ 32 * x.access < a + n then accessError x.access x.kind s else s) s

/-- What the check of slot memory reports; `dram` are accesses of a spill image that an in-place add reads. -/
def slotError (h seg : Nat) (e : HarnErr) (s : State) : State := match e with
  | .clean => s
  | .residue => s
  | .dram errs => match slotOf s h seg with
    | some x => if x.st = .spilled ∧ !x.zero then readErrors (spillAddr (x.index - residents)) 3072 errs s else s
    | none => s
  | .corrected =>
    let s := harnSticky bEccCorr s
    raise { src := srcArenaCorr, sticky := s.harn.sticky.setWidth 64 } s
  | .words ws => match slotOf s h seg with
    | none => s
    | some x =>
      let s := harnSticky bEccUncorr (modSlot h seg (fun y => voidElems y (badElems x ws)) s)
      raise { src := srcArenaUncorr, sticky := s.harn.sticky.setWidth 64 } s
  | .descriptor => fenceSlot h seg s

/-- The first unit of n, from unit e on and around, that is not out; e itself where all are (R429, Table Faults-4). -/
def takeOver (n e : Nat) (out : Nat → Bool) : Nat :=
  (((List.range n).map (fun i => (e + i) % n)).find? (fun k => !out k)).getD e

/-- Team engine that serves a slot: engine index mod 8, or the next one in service (R77, R429, Table Faults-4) (DEDUCED, log 61). -/
def slotTeam (s : State) (x : Slot) : Nat := takeOver 8 (x.index % 8) (teamOut s)

/-! ### Intake (R71, R77, R86) -/

/-- Intake acts on one contribution: true in the second part where it stays queued. The check of a live slot's memory counts
before the tests, whatever they find (R91, R92). -/
def intake (pk : Packet) (err : HarnErr) (s : State) : State × Bool :=
  if intakeTest pk s = .wait then (s, true)
  else
    let s := match headIdx s (pHid pk) with
      | some h => if (slotOf s h (pSeg pk)).isSome then slotError h (pSeg pk) err s else s
      | none => s
    match intakeTest pk s with
    | .drop bit => (countDrop bit (pMslot pk) s, false)
    | .wait => (s, true)
    | .park => (harnSticky bParkFull s, true)
    | .take h =>
      let seg := pSeg pk
      let s := if (slotOf s h seg).isSome then s else
        match s.harn.heads[h]? with
        | some hd => takeSamples h seg hd.step (armSlot h seg s)
        | none => s
      match slotOf s h seg with
      | none => (s, true)
      | some x =>
        if teamOut s (slotTeam s x) then (s, true)
        else if err = .residue then
          (raise { src := srcTeam, index := BitVec.ofNat 4 (slotTeam s x) } s, true)
        else (takeContr h seg (pMslot pk) pk s, false)

/-- Does an older contribution for the same key wait for something other than park room? The key's contributions pass in
intake order (R77, R79, R88). -/
def behind (s : State) (pk : Packet) (older : List Waiting) : Bool :=
  older.any (fun w => pHid w.packet == pHid pk && decide (pSeg w.packet = pSeg pk) && decide (intakeTest w.packet s ≠ .park))

/-- Chunks of 256 bytes that a packet takes in the intake queue of 4 MiB, where held calls wait too (R86, R182). -/
def chunks (pk : Packet) : Nat := (pk.bytes.length + 255) / 256
def chunksUsed (s : State) : Nat :=
  s.harn.intake.foldl (fun a w => a + chunks w.packet) 0 + s.callb.held.foldl (fun a w => a + (w.bytes.length + 255) / 256) 0

/-- A contribution enters intake: taken, dropped, or queued behind older ones of its key. -/
def enter (pk : Packet) (err : HarnErr) (s : State) : State :=
  if behind s pk s.harn.intake then { s with harn := { s.harn with intake := s.harn.intake ++ [⟨pk⟩] } }
  else
    let r := intake pk err s
    if r.2 then { r.1 with harn := { r.1.harn with
        intake := if err = .residue then ⟨pk⟩ :: r.1.harn.intake else r.1.harn.intake ++ [⟨pk⟩] } }
    else r.1

/-- Is there room in the intake queue for so many chunks (R86)? -/
def chunkRoom (s : State) (n : Nat) : Bool := decide (chunksUsed s + n ≤ 16384)

/-- A contribution reaches intake. While the queue has no room it stays in the packet buffer. -/
def arrive (p : Port) (pk : Packet) (err : HarnErr) (s : State) : State :=
  if chunkRoom s (chunks pk) then enter pk err (takeHanded p pk s) else s

/-! ### Release (R82, R121, R123) -/

/-- Drop released segments from the bottom of the window. -/
def slideBase : Nat → Head → Head
  | 0, h => h
  | n + 1, h => if h.released.getLsbD 0 then slideBase n { h with base := h.base + 1, released := h.released >>> 1 } else h

/-- A readmission takes effect for head h (R123). -/
def applyReadmit (h : Nat) (s : State) : State :=
  let mine := (s.cue.readmit.filter (fun x => decide (x.1 = h))).map (·.2)
  match s.harn.heads[h]?, sheetHead s h with
  | some hd, some sh =>
    let bits := mine.foldl (fun m i => m ||| slotBit i) 0
    let s := modHStep hd.step h (fun x => { x with expected := x.expected ||| (bits &&& sh.expected) }) s
    let back := (hd.leftOut ||| (hd.lost &&& bits)) &&& sh.expected &&& ~~~(hd.lost &&& ~~~bits)
    let s := { s with cue := { s.cue with readmit := s.cue.readmit.filter (fun x => !decide (x.1 = h)) } }
    modHead h (fun x => { x with
      expected := x.expected ||| back, leftOut := 0, lost := x.lost &&& ~~~bits
      readmits := if mine.isEmpty then x.readmits else x.readmits ++ [x.step] }) s
  | _, _ => s

/-- Are all seed bits of the shard in seeding set? -/
def seedFull (s : State) : Bool := match s.grm.seedIn with
  | some x => match shardOf s x.hid with
    | some r => decide (x.map.length = (r.len + 255) / 256)
    | none => false
  | none => false

/-- A fully seeded shard becomes an understudy (Table Groom-9). -/
def seedEnd (s : State) : State := match s.grm.seedIn with
  | some x => if seedFull s then modShard x.hid (fun r => { r with role := roleUnderstudy }) { s with grm := { s.grm with seedIn := none } } else s
  | none => s

/-- At a step boundary of the head that is being seeded, LASTSTEP follows the step whose forwards it took, and the shard becomes an
understudy if it is full (R145, Table Groom-9). -/
def seedBoundary (hid : BitVec 16) (n : Nat) (s : State) : State :=
  if (s.grm.seedIn.map (fun x => decide (x.hid = hid))).getD false then
    let s := if s.grm.advanced.any (fun a => a.1 == hid && decide (a.2 = n)) then modShard hid (fun r => { r with last := BitVec.ofNat 64 n }) s else s
    seedEnd s
  else s

/-- The head's STEP advances (R82). -/
def advanceStep (h : Nat) (s : State) : State := match sheetHead s h with
  | none => s
  | some sh =>
    let s := match s.harn.heads[h]? with
      | some hd => seedBoundary sh.hid hd.step s
      | none => s
    let waits := sh.root && headScaled sh
    let s := modHead h (fun x => { x with
      step := x.step + 1, base := 0, released := 0, window := [], passed := x.passedNow, passedNow := [], adverting := waits }) s
    let s := applyReadmit h s
    if waits then s else advertise h s

/-- A slot is released (R82): the slot is freed, its bit set, BASE advances and is advertised. -/
def releaseSlot (h seg : Nat) (s : State) : State :=
  match sheetHead s h, s.harn.heads[h]? with
  | some sh, some hd =>
    let s := dropSlot h seg (trimSamples h seg hd.step s)
    let s := modHead h (fun x =>
      let y := slideBase 257 { x with released := x.released ||| BitVec.ofNat 256 (1 <<< (seg - x.base)) }
      { y with window := y.window.filter (fun e => decide (y.base ≤ e.1)) }) s
    let base := ((s.harn.heads[h]?).map (·.base)).getD 0
    let s := if base = segsOf sh.len then advanceStep h s else if base ≠ hd.base then advertise h s else s
    settle (moveSlots s)
  | _, _ => s

/-! ### Exclusion (R83, R121, R123) -/

/-- One live slot loses members that it has not received; parked contributions that become next are added (R79, R83). -/
def excludeSlot (h : Nat) (ms : BitVec 65) (s : State) (seg : Nat) : State := match slotOf s h seg with
  | none => s
  | some x =>
    let y := { x with expected := x.expected &&& ~~~(ms &&& ~~~x.received) }
    if slotAcc y = 6 ∧ !libertyMode s ∧ !y.parked.isEmpty then
      let add (y : Slot) : Slot := unpark (y.parked.length + 1) y
      let z := fillingNow (add (withSum s y))
      noteAdds h x z (keepSlot z (shadowAdd y add s))
    else modSlot h seg (fun _ => y) s

/-- Clear members from EXPECTED of a head and of its live descriptors that have not received them; slots that then meet the
rule fire. -/
def excludeFrom (h : Nat) (ms : BitVec 65) (s : State) : State :=
  let s := modHead h (fun x => { x with expected := x.expected &&& ~~~ms }) s
  let segs := (s.harn.slots.filter (fun x => decide (x.head = h))).map (·.seg)
  let s := segs.foldl (excludeSlot h ms) s
  moveSlots (segs.foldl (fun s g => testFire h g s) s)

end Sys2Proof.Machine
end

