-- ==== Sys2Proof/Machine/LeaveOps.lean ====
section
/-! DEFINITION. Holding leave: grants of an instance, rate limits and ramps (15_leave_and_box_office.md R376 to R383). -/

namespace Sys2Proof.Machine

def rideSticky (bit : Nat) (s : State) : State :=
  fresh .leaveSticky 0 (bitOf bit) { s with rid := { s.rid with sticky := s.rid.sticky ||| BitVec.ofNat 6 (1 <<< bit) } }

/-- Watts booked now: running and deferred ramps count whole, tails until their issues finish; a suspended or deferred window
books none. -/
def bookedBy (g : Grant) : Nat :=
  if g.st = .running ∨ g.st = .tail then g.watts
  else if g.st = .suspended ∧ g.inFlight > 0 then g.watts else 0
def held (s : State) : Nat := s.rid.grants.foldl (fun a g => a + bookedBy g) 0

/-- µs that a grant takes to ramp in. -/
def rampTime (g : Grant) : Nat := if g.ramp = 0 then 0 else (g.watts + g.ramp - 1) / g.ramp

/-- Is a running grant still ramping? -/
def ramping (g : Grant) : Bool := decide (g.st = .running) && decide (g.rampUs < rampTime g)

/-- Ramp rates of the grants still ramping (R379). -/
def rampSum (s : State) : Nat := s.rid.grants.foldl (fun a g => a + (if ramping g then g.ramp else 0)) 0

/-- Does a grant serve the instance (step, cue)? A window serves the cues whose LSLOT names it (R126). -/
def serves (s : State) (n c : Nat) (w : CueWord) (g : Grant) : Bool :=
  decide (g.step = n) && (match g.window with
    | none => decide (g.cue = c)
    | some k => decide (cLslot w = k) && !libertyMode s)

/-- The running grant under which an instance may start an issue: a window only before its end tick. -/
def grantFor (s : State) (n c : Nat) (w : CueWord) : Option Grant :=
  s.rid.grants.find? (fun g => serves s n c w g && decide (g.st = .running) &&
    (g.window.isNone || decide (s.stg.now.toNat < g.endTick)))

def modGrant (id : Nat) (f : Grant → Grant) (s : State) : State :=
  { s with rid := { s.rid with grants := s.rid.grants.map (fun g => if g.id = id then f g else g) } }

/-- Shortest time between two Groom issues of a class, in eighths of a nanosecond: 7.5 ns, 3.75 ns, and the 1.875 ns of R149, of
which 7.5 ns is a quarter (Table Leave-1). -/
def groomGap (lclass : Nat) : Nat := if lclass = 1 then 60 else if lclass = 2 then 30 else 15

/-- May a Groom issue start under a grant now (R376, R379)? -/
def mayIssueGroom (s : State) (g : Grant) : Bool := match g.lastIssue with
  | none => true
  | some t =>
    let T := rampTime g
    let k := if g.rampUs < T then g.rampUs + 1 else 1
    decide ((s.time - t) * 4 * k ≥ groomGap g.lclass.toNat * (if g.rampUs < T then T else 1))

/-- Arrays that a class allows. -/
def classArrays (lclass : Nat) : Nat := if lclass = 4 then 1 else if lclass = 5 then 2 else 4

/-- Arrays other than `a` that run passes under a grant. -/
def busyUnder (s : State) (g : Grant) (a : Fin 4) : Nat :=
  (List.range 4).countP (fun k => decide (k ≠ a.val) && s.prj.running.any (fun x => decide (x.grant = g.id) && decide (x.array.val = k)))

/-- May array `a` start a pass under a grant: the class's count of arrays, and its 55 W ramped in (R175, R376, R379)? -/
def mayIssuePass (s : State) (g : Grant) (a : Fin 4) : Bool :=
  let n := busyUnder s g a + 1
  decide (n ≤ classArrays g.lclass.toNat) && (decide (rampTime g ≤ g.rampUs) || decide (55 * n ≤ g.ramp * g.rampUs))

/-- An issue starts, and ends, under the grant that it was issued with. The watts of a tail leave HELD at ISSUE_TAIL_END. -/
def startIssue (id : Nat) (s : State) : State :=
  modGrant id (fun g => { g with inFlight := g.inFlight + 1, lastIssue := some s.time }) s
def endIssue (id : Nat) (s : State) : State :=
  modGrant id (fun g => { g with inFlight := g.inFlight - 1, lastEnd := s.time }) s

/-! ### A change of the pool (R378, R383) -/

/-- Watts booked for the grants that run. -/
def runningWatts (s : State) : Nat := s.rid.grants.foldl (fun a g => a + (if g.st = .running then g.watts else 0)) 0

/-- The running grants in the order in which a cut suspends them: ordinary ones, newest first, then windows, latest START first. -/
def cutOrder (s : State) : List Grant :=
  let run := s.rid.grants.filter (fun g => decide (g.st = .running))
  (run.filter (fun g => g.window.isNone)).reverse ++
    (sortBy (fun a b => decide (a.startTick ≤ b.startTick)) (run.filter (fun g => g.window.isSome))).reverse

/-- Suspend one grant: an ordinary one is released, and a tail stays while it has issues in flight. -/
def suspendGrant (g : Grant) (s : State) : State :=
  if g.window.isSome then modGrant g.id (fun x => { x with st := .suspended, rampUs := 0 }) s
  else if g.inFlight = 0 then { s with rid := { s.rid with grants := s.rid.grants.filter (fun x => !decide (x.id = g.id)) } }
  else modGrant g.id (fun x => { x with st := .tail }) s

/-- Suspend grants of a list until the running ones fit the pool. -/
def suspendAll : List Grant → State → State
  | [], s => s
  | g :: r, s => if runningWatts s ≤ poolNow s then s else suspendAll r (rideSticky 1 (rideSticky 2 (suspendGrant g s)))

/-- CAP or BASE_RES has changed. -/
def capChanged (s : State) : State := if held s ≤ poolNow s then s else suspendAll (cutOrder s) s

end Sys2Proof.Machine
end

