-- ==== Sys2Proof/Machine/GroomOps.lean ====
section
/-! DEFINITION. The update of the Groom engine and its order against moves and resumed steps (05_groom_and_master_state.md
R142 to R150; 12 R318; 08 R199). -/

namespace Sys2Proof.Machine

def grmFlags (f : Flags) (s : State) : State :=
  fresh .grmSticky 0 ((f &&& 0xF).setWidth 64) { s with grm := { s.grm with sticky := s.grm.sticky ||| (f &&& 0xF).setWidth 11 } }

def zOne : BitVec 48 := 0x3FE0_0000_0000

/-- A Z32 scalar of a parameter set. -/
def zScalar (x : BitVec 32) : ZF := zOf (decodeVal .z32 x.toNat)

/-- A value read as a source in Z48; reading void sets VOID_IN (Table Formats-7). -/
def zIn (v : Val) : ZF := match v with
  | none => ⟨zVoid, fVoidIn⟩
  | some d => zRound d 0

/-- A Z48 code read as a source. -/
def zRead (z : BitVec 48) : ZF := ⟨z, if z = zVoid then fVoidIn else 0⟩

/-- A state field widened. -/
def zField (f : SFmt) (code : Nat) : ZF := zIn (decodeVal f code)

/-- round48 of R144: a code and flags. -/
def round48 (f : SFmt) (z : ZF) (rnd : Nat) (ovfVoid : Bool) (draw : BitVec 32) : Nat × Flags :=
  match zVal z.v with
  | none => (fmtVoid f, z.f ||| fVoidIn)
  | some d =>
    let r := roundTo f d (if rnd = 0 then .rne else if rnd = 1 then .rtz else .sr) ovfVoid draw
    (r.1, z.f ||| r.2)

/-- Parameter-set flags (Table Groom-5). -/
def psSgd (p : PSet) : Bool := p.flags.toNat % 4 = 1
def psMrnd (p : PSet) : Nat := p.flags.toNat / 4 % 4
def psWrnd (p : PSet) : Nat := p.flags.toNat / 16 % 4
def psMovf (p : PSet) : Bool := p.flags.getLsbD 6
def psWovf (p : PSet) : Bool := p.flags.getLsbD 7

/-- Result of one element: the new state word, the wide weight and the flags. -/
structure GroomOut where
  word  : W64
  wide  : BitVec 48
  flags : Flags
  deriving DecidableEq, Repr

/-- u of R144 and the new weight before rounding. -/
def groomStep (p : PSet) (w mh vh : ZF) : ZF :=
  let u := zAdd (zDiv mh (zAdd (zSqrt vh) (zScalar p.eps))) (zMul (zScalar p.wd) w)
  zSub w (zMul (zScalar p.lr) u)

/-- R144 for one element: `dr` gives the draw of a site (DEDUCED, log 45). -/
def groomElem (p : PSet) (p1 p2 : BitVec 48) (x : W64) (g0 c : ZF) (dr : Byte → BitVec 32) : GroomOut :=
  let w := zField .z32 (wordW x).toNat
  let g := zMul (zMul g0 (zScalar p.gscale)) c
  if psSgd p then
    let w2 := zSub w (zMul (zScalar p.lr) (zAdd g (zMul (zScalar p.wd) w)))
    let r := round48 .z32 w2 (psWrnd p) (psWovf p) (dr 0x12)
    ⟨mkWord (BitVec.ofNat 32 r.1) (wordM x) (wordV x), w2.v, r.2⟩
  else
    let one : ZF := ⟨zOne, 0⟩
    let b1 := zScalar p.beta1
    let b2 := zScalar p.beta2
    let m2 := zAdd (zMul b1 (zField .z16 (wordM x).toNat)) (zMul (zSub one b1) g)
    let v2 := zAdd (zMul b2 (zField .z16u (wordV x).toNat)) (zMul (zSub one b2) (zMul g g))
    let rm := round48 .z16 m2 (psMrnd p) (psMovf p) (dr 0x10)
    let rv := round48 .z16u v2 (psMrnd p) (psMovf p) (dr 0x11)
    let c1 := zSub one ⟨p1, 0⟩
    let c2 := zSub one ⟨p2, 0⟩
    let w2 := groomStep p w (zDiv (zField .z16 rm.1) c1) (zDiv (zField .z16u rv.1) c2)
    let r := round48 .z32 w2 (psWrnd p) (psWovf p) (dr 0x12)
    let wide := groomStep p w (zDiv m2 c1) (zDiv v2 c2)
    ⟨mkWord (BitVec.ofNat 32 r.1) (BitVec.ofNat 16 rm.1) (BitVec.ofNat 16 rv.1), wide.v, rm.2 ||| rv.2 ||| r.2⟩

/-- ⌊D⌋ of one element, capped (R199): |W − wide| in steps of Z32 at W; the cap where the wide weight is void and W is not
(DEDUCED, log 45) (DESIGN CHOICE, log 78). -/
def driftElem (w : BitVec 32) (wide : BitVec 48) : Option Nat :=
  match decodeVal .z32 w.toNat with
  | none => none
  | some d => match zVal (zSub (zRound d 0) ⟨wide, 0⟩).v with
    | none => some 65535
    | some x =>
      let e : Int := if d.m = 0 then fmtUnit .z32 else max (fmtUnit .z32) ((Nat.log2 d.m : Int) + d.q - 24)
      let q := x.q - e
      some (min 65535 (if q ≥ 0 then x.m * 2 ^ q.toNat else x.m / 2 ^ (-q).toNat))

/-- DRIFT of a block (R199). -/
def driftOf (os : List GroomOut) : Nat :=
  Nat.log2 (1 + (os.filterMap (fun o => driftElem (wordW o.word) o.wide)).foldl max 0)

/-! ### The clipping factor (R142) -/

/-- c, or none while the named call's result is awaited. -/
def clipFactor (s : State) (n : Nat) (w : CueWord) (p : PSet) : Option ZF :=
  if cCallIdx w = 0xFFFF ∨ p.clip = 0 then some ⟨zOne, 0⟩
  else match (callCtx s n (cCallIdx w)).bind (·.result) with
    | none => none
    | some r =>
      let N := zSrc (r.getD 0 0)
      let clip := zScalar p.clip
      match zVal N.v, zVal clip.v with
      | some x, some y => if dyLt y x then some (zDiv clip N) else some ⟨zOne, N.f⟩
      | _, _ => some ⟨zVoid, N.f⟩

/-! ### Resuming after a recovery stop (R318) -/

/-- Is a segment done already, by the progress entry of its shard? -/
def resumeDone (s : State) (hid : BitVec 16) (n seg : Nat) : Bool :=
  s.cue.resuming && (match findShard s hid with
    | none => false
    | some i =>
      let p := readProgress s i
      p.valid && (decide (n < p.step) || (decide (n = p.step) && (decide (seg < p.base) || (decide (seg - p.base < 256) && p.released.getLsbD (seg - p.base))))))

/-! ### Order of updates and moves (R145, R150) -/

/-- Has a segment of step n been released? -/
def segReleased (hd : Head) (n seg : Nat) : Bool :=
  decide (hd.step > n) || (decide (hd.step = n) && (decide (seg < hd.base) || (decide (seg - hd.base < 256) && hd.released.getLsbD (seg - hd.base))))

/-- Has every segment of step n of head h made its Groom issue, and are its writes done? -/
def updatesDone (s : State) (h n : Nat) : Bool := match sheetHead s h, s.harn.heads[h]? with
  | some sh, some hd =>
    let mine (j : Job) : Bool := decide (j.head = h) && decide (j.step = n) && !j.bcast && !j.band
    !s.harn.jobs.any (fun j => mine j && !j.writesDone) &&
      (decide (hd.step > n) || (List.range (segsOf sh.len)).all (fun g =>
        segReleased hd n g || resumeDone s sh.hid n g || s.harn.jobs.any (fun j => mine j && decide (j.seg = g) && j.writesDone)))
  | _, _ => true

/-- LASTSTEP becomes the step when its last state write is done (R145). -/
def checkLast (h n : Nat) (s : State) : State := match sheetHead s h, hstepUpdated s n h with
  | some sh, true => if updatesDone s h n then modShard sh.hid (fun r => { r with last := BitVec.ofNat 64 n }) s else s
  | _, _ => s
where
  hstepUpdated (s : State) (n h : Nat) : Bool := (((openStep s n).bind (fun o => o.heads[h]?)).map (·.updated)).getD false

/-- Instance (n, c) launched before (m, d): launch tick, then step, then sheet order. -/
def before (s : State) (n c m d : Nat) : Bool := match instOf s n c, instOf s m d with
  | some i, some j => i.launched && (decide (i.launchAt < j.launchAt) || (decide (i.launchAt = j.launchAt) &&
      (decide (n < m) || (decide (n = m) && decide (c < d)))))
  | _, _ => false

/-- Were two launched instances permitted in one tick: the same launch tick, or in liberty mode the same step (R114, R115)? -/
def sameLaunch (s : State) (n c m d : Nat) : Bool := match instOf s n c, instOf s m d with
  | some i, some j => i.launched && j.launched && (if libertyMode s then decide (n = m) else decide (i.launchAt = j.launchAt))
  | _, _ => false

/-- A unit serves cues that were permitted together in sheet order: does instance (n, c) come first among those that could use
the unit now (R114, R115)? -/
def sheetFirst (s : State) (n c : Nat) (ready : List (Nat × Nat)) : Bool :=
  ready.all (fun x => !(sameLaunch s n c x.1 x.2 && (decide (x.1 < n) || (decide (x.1 = n) && decide (x.2 < c)))))

/-- Every launched instance of an open step, with its cue word. -/
def launchedInsts (s : State) : List (Nat × Nat × Inst × CueWord) :=
  ((s.cue.run.map (·.steps)).getD []).flatMap (fun o => o.insts.filterMap (fun i =>
    if i.launched then (cueWord s i.cue).map (fun w => (o.step, i.cue, i, w)) else none))

/-- A ZERO_MOMENTS of the shard that launched before (n, c) is not finished. -/
def zeroPending (s : State) (hid : BitVec 16) (n c : Nat) : Bool :=
  (launchedInsts s).any (fun x => decide (cKind x.2.2.2 = cMove) && decide (cMoveOp x.2.2.2 = 2) && cZeroHid x.2.2.2 == hid &&
    !x.2.2.1.finished && before s x.1 x.2.1 n c)

/-- A REDUCE_UPDATE of the shard that launched before (n, c) still has updates to make. -/
def updatePending (s : State) (hid : BitVec 16) (n c : Nat) : Bool :=
  (launchedInsts s).any (fun x => decide (cKind x.2.2.2 = cReduceUpdate) && cHid x.2.2.2 == hid && before s x.1 x.2.1 n c &&
    (match headIdx s hid with
      | some h => !updatesDone s h x.1
      | none => false))

/-- AGE, P1 and P2 advance at the first Groom issue of a (shard, step) under ADAMW; cue c takes the flags (R145, R146). -/
def advanceAge (hid : BitVec 16) (n c : Nat) (p : PSet) (s : State) : State :=
  if s.grm.advanced.any (fun a => a.1 == hid && decide (a.2 = n)) then s
  else
    let s := { s with grm := { s.grm with advanced := s.grm.advanced ++ [(hid, n)] } }
    let some_done := s.cue.resuming && (match headIdx s hid with
      | some h => match sheetHead s h with
        | some sh => (List.range (segsOf sh.len)).any (fun g => resumeDone s hid n g)
        | none => false
      | none => false)
    if psSgd p || some_done then s
    else match shardOf s hid with
      | none => s
      | some r =>
        let p1 := zMul ⟨r.p1, 0⟩ (zScalar p.beta1)
        let p2 := zMul ⟨r.p2, 0⟩ (zScalar p.beta2)
        modShard hid (fun r => { r with age := r.age + 1, p1 := p1.v, p2 := p2.v })
          (noteFlags n c (p1.f ||| p2.f) (grmFlags (p1.f ||| p2.f) s))

/-! ### Jobs -/

/-- The fired slot of a segment that its next stage may take: resident, or FENCED at any index (R92). -/
def firedSlot (s : State) (h seg : Nat) : Option Slot :=
  (slotOf s h seg).filter (fun x => x.hasFired && (decide (x.index < residents) || decide (x.st = .fenced)) && !x.dropped)

/-- The jobs of a segment that no slot waits for, a BROADCAST's and a restored band's, end with their last stage. -/
def endJobs (h seg : Nat) (s : State) : State :=
  { s with harn := { s.harn with jobs := s.harn.jobs.filter (fun j =>
      !(decide (j.head = h) && decide (j.seg = seg) && (j.bcast || j.band) && jobOver s j)) } }

end Sys2Proof.Machine
end

