-- ==== Sys2Proof/Machine/CastOps.lean ====
section
/-! DEFINITION. The cast stage, next scale bytes, multicast groups, mirror compare and segment digests (02_number_formats.md R38
to R57; 05 R147 to R152; 08 R203 to R207; 11 R282). -/

namespace Sys2Proof.Machine

/-! ### Casts -/

/-- Scale byte of a set as staged with the sheet (R347). -/
def setByte (s : State) (set k : Nat) : Byte := match s.cue.sheet with
  | some sh => match sh.scaleSets[set]? with
    | some st => memByte s.dram (scratchBase + sh.scaleAt + st.1 + k)
    | none => 0
  | none => 0

/-- Is a GIVEN cast one of the head's own reduced sums into its own format under its scale in force (R57)? -/
def ownScale (sh : SheetHead) (w : CueWord) : Bool :=
  decide (cKind w = cReduce) && decide ((cConv w).dst = sh.fmt.toNat) && decide (cCastset w = 0xFFFF) && headScaled sh

/-- What a cast of a segment gives. -/
structure CastOut where
  codes  : List (BitVec 32)
  dscale : List Byte
  /-- Blocks of the cast that went out of range under the scale in force. -/
  ovf    : List Bool
  flags  : Flags
  outs   : Nat
  voids  : Nat
  elems  : Nat
  deriving DecidableEq, Repr

/-- Cast `vs`, the values of a segment, block by block (R46, R56). `given` is the target E of a block. -/
def castSeg (c : Conv) (vs : List Val) (given : Nat → Int) (draw : Nat → BitVec 32) : CastOut :=
  (List.range ((vs.length + 63) / 64)).foldl (fun a b =>
    let live := (vs.drop (64 * b)).take 64
    let padded := live ++ List.replicate (64 - live.length) (some ⟨false, 0, 0⟩)
    let o := convertBlock c padded live.length (given b) 0 (fun i => draw (64 * b + i))
    { codes := a.codes ++ (o.codes.take live.length).map (BitVec.ofNat 32), dscale := a.dscale ++ [o.scale]
      ovf := a.ovf ++ [o.flags.getLsbD 0], flags := a.flags ||| o.flags, outs := a.outs + o.ovf, voids := a.voids + o.voids
      elems := a.elems + live.length }) ⟨[], [], [], 0, 0, 0, 0⟩

/-- Wardrobe flags and counters (R48, R61). -/
def noteCast (o : CastOut) (s : State) : State :=
  fresh .wdrSticky 0 (o.flags.setWidth 64) { s with wdr := { s.wdr with
      sticky := s.wdr.sticky ||| o.flags.setWidth 64, ovf := satAdd 0xFFFF_FFFF_FFFF s.wdr.ovf o.outs
      void := satAdd 0xFFFF_FFFF_FFFF s.wdr.void o.voids, elems := s.wdr.elems + BitVec.ofNat 64 o.elems } }

/-- Cast for a cue's cast stage of segment seg of head h. -/
def castFor (s : State) (sh : SheetHead) (n seg : Nat) (w : CueWord) (scale : BitVec 24) (vs : List Val) : CastOut :=
  let c := cConv w
  castSeg c vs
    (fun b => if ownScale sh w then entryExp scale b else scaleExp (setByte s (cCastset w) (4 * seg + b)))
    (fun i => srDraw ((s.cue.sheet.map (·.seed)).getD 0) (BitVec.ofNat 64 n) sh.hid 0 (BitVec.ofNat 32 (256 * seg + i)))

/-- Replacement EXP for a block in the step after n (R45, R117). -/
def replExp (s : State) (sh : SheetHead) (n seg b : Nat) : Option Int := match s.cue.sheet with
  | some img => (img.repls.find? (fun r => decide (r.step = n + 1) && r.hid == sh.hid)).map (fun r =>
      scaleExp (setByte s r.set (4 * seg + b)))
  | none => none

/-- Next EXP, OVF and SCALE_LIMIT of a block under scale E that is or is not out of range (R44, R45). -/
def nextScale (e : Int) (ovf : Bool) (repl : Option Int) : Int × Bool :=
  let raised := if ovf then (if e ≥ 31 then 31 else e + 1) else e
  (repl.getD raised, ovf && decide (e ≥ 31))

/-- The stage of a segment of head h that casts: `raise` from the cast itself counts only where the cast is the head's own
(R57). Gives the cast job fields and the state. -/
def castStage (h n seg c : Nat) (w : CueWord) (sh : SheetHead) (scale : BitVec 24) (blkovf : BitVec 4) (vs : List Val)
    (s : State) : CastOut × List Byte × State :=
  let o := castFor s sh n seg w scale vs
  let blocks := o.dscale.length
  let own := ownScale sh w && decide ((cConv w).scl = 1)
  let nx := (List.range blocks).map (fun b =>
    let ovf := blkovf.getLsbD b || (own && o.ovf.getD b false)
    (nextScale (entryExp scale b) ovf (replExp s sh n seg b), ovf))
  let limit := nx.any (fun x => x.1.2)
  let fl : Flags := if limit then o.flags ||| fScaleLimit else o.flags
  let s := noteFlags n c fl (noteCast { o with flags := fl } s)
  if headScaled sh then
    let s := writeScales h seg blocks (nx.map (fun x => x.1.1)) s
    let s := countHead n h (nx.countP (·.2)) o.voids (fl.getLsbD 4) s
    ({ o with flags := fl }, nx.map (fun x => scaleByte false x.2 x.1.1), s)
  else (o, [], countHead n h 0 o.voids (fl.getLsbD 4) s)

/-! ### Jobs -/

def isJob (h seg n : Nat) (bcast band : Bool) (j : Job) : Bool :=
  decide (j.head = h) && decide (j.seg = seg) && decide (j.step = n) && (j.bcast == bcast) && (j.band == band)
def modJob (h seg n : Nat) (bcast band : Bool) (f : Job → Job) (s : State) : State :=
  { s with harn := { s.harn with jobs := modFirst (isJob h seg n bcast band) f s.harn.jobs } }
def dropJob (h seg n : Nat) (bcast band : Bool) (s : State) : State :=
  { s with harn := { s.harn with jobs := s.harn.jobs.filter (fun j => !isJob h seg n bcast band j) } }
def addJob (j : Job) (s : State) : State := { s with harn := { s.harn with jobs := s.harn.jobs ++ [j] } }

/-! ### Multicast (R147, R282) -/

/-- Ports of a head's multicast group. -/
def group (s : State) (h : Nat) : List Port := match sheetHead s h with
  | some sh => ((slotsOf (sh.expected &&& ~~~lostSlots s h)).filter (fun m => decide (m < 64))).map (fun m => Fin.ofNat 64 m)
  | none => []

/-- Role of the shard of a HID here; FREE where there is none. -/
def shardRole (s : State) (hid : BitVec 16) : Nat := ((shardOf s hid).map (·.role)).getD 0

/-- A multicast as the core stores it, once: to a head's group and, from an owner, to its partner (R147, R282). -/
def mcastWait (h : Nat) (sh : SheetHead) (pk : Packet) (s : State) : LocalWait :=
  { packet := { pk with dest := 0xFFFF }, input := harnPort sh.hid, ports := group s h
    toward := match shardOf s sh.hid with
      | some r => if r.role = roleOwner ∧ r.partner ≠ 0 then (addrOf s r.partner).map (fun d => (d, Fin.ofNat 64 r.uport)) else none
      | none => none }

/-- The MCAST of a job. -/
def jobPacket (s : State) (sh : SheetHead) (dst : Nat) (j : Job) : Packet :=
  let codes := match fmtOf dst with
    | some f => packCodes f (j.codes.map (·.toNat))
    | none => []
  mcastPacket sh.hid dst j.bcast (BitVec.ofNat 32 j.step) j.seg j.codes.length j.dscale j.nscale codes 0xFFFF (srcAddr s)

/-! ### The compare buffer (R152) -/

/-- Bytes of a compare entry: the body and the scale bytes of the MCAST. -/
def compareBytes (pk : Packet) : List Byte := pk.bytes.drop 32 ++ (pk.bytes.drop 12).take 8

/-- Bytes that the compare entry of n elements cast to a format takes. -/
def compareSize (dst n : Nat) : Nat := (match fmtOf dst with
  | some f => codeBytes f n
  | none => 0) + 8

/-- DST of a cue's cast. -/
def castDst (s : State) (c : Nat) : Nat := ((cueWord s c).map (fun w => (cConv w).dst)).getD 0

/-- Bytes of the compare buffer held by entries, and by casts of understudies whose entry is still to be made. -/
def compareUsed (s : State) : Nat :=
  s.grm.compare.foldl (fun a c => a + c.bytes.length)
    ((s.harn.jobs.filter (fun j => j.cast && !j.sent && (sheetHead s j.head).any (fun sh => decide (shardRole s sh.hid = roleUnderstudy)))).foldl
      (fun a j => a + compareSize (castDst s j.cue) j.codes.length) 0)

/-- Room for one more entry of so many bytes in the 4 MiB buffer. -/
def compareRoom (s : State) (n : Nat) : Bool := decide (compareUsed s + n ≤ 4194304)

/-- Is there an entry that an entry of this side would meet? -/
def meets (s : State) (hid : BitVec 16) (step : BitVec 32) (seg : Nat) (own : Bool) : Bool :=
  s.grm.compare.any (fun c => c.hid == hid && c.step == step && decide (c.seg = seg) && (c.own != own))

/-- The step of a head that the low 32 bits of a packet name: the one nearest the head's open step. -/
def stepNear (s : State) (hid : BitVec 16) (low : BitVec 32) : Nat :=
  match (headIdx s hid).bind (fun h => s.harn.heads[h]?) with
  | some hd => (nearStep hd.step low).toNat
  | none => low.toNat

/-- Two entries of one segment meet: equal bits free both, others raise the mismatch. The partner's multicast that comes first is
kept, and met by the own cast (DESIGN CHOICE, log 73). -/
def compareEntry (hid : BitVec 16) (step : BitVec 32) (seg : Nat) (own : Bool) (bytes : List Byte) (s : State) : State :=
  let hit (c : Compare) : Bool := c.hid == hid && c.step == step && decide (c.seg = seg) && (c.own != own)
  match s.grm.compare.find? hit with
  | none => { s with grm := { s.grm with compare := s.grm.compare ++ [⟨hid, step, seg, own, bytes⟩] } }
  | some c =>
    let s := { s with grm := { s.grm with compare := dropFirst hit s.grm.compare } }
    if c.bytes = bytes then s
    else
      let s := if s.grm.sticky.getLsbD 8 then s else
        { s with grm := { s.grm with mismatch := put hid.toNat 16 48 ||| put seg 24 24 ||| put step.toNat 24 0 } }
      let s := modShard hid (fun r => { r with diverged := true }) (grmSticky 8 s)
      let s := raise { src := srcMirror, sticky := s.grm.sticky.setWidth 64 } s
      hostEvent 0x06 (leBytes 2 hid.toNat ++ leBytes 3 seg ++ zeros 3 ++ leBytes 8 (stepNear s hid step)) s

/-! ### Segment digests (R205) -/

/-- Digest header (Table Audit-4). -/
def digHeader (part fmt : Nat) (hid : BitVec 16) (seglen step seg : Nat) : List Byte :=
  leBytes 1 part ++ leBytes 1 fmt ++ leBytes 2 hid.toNat ++ leBytes 2 seglen ++ zeros 2 ++ leBytes 8 step ++ leBytes 4 seg ++ zeros 12

/-- Accumulators as a partial carries them: in wire width, a void element as zero (R259). -/
def wireAcc (x : Slot) : List Byte :=
  (List.range x.seglen).flatMap (fun i => leBytes (wireBytes (slotAcc x)) (if x.void.getLsbD i then 0 else (x.acc.getD i 0).toNat))

/-- IN digest of a slot: the containers as stored, or at a forwarding module those of the partial as sent; then the VOID words and
BLKOVF (R205) (DESIGN CHOICE, log 74). -/
def digIn (sh : SheetHead) (x : Slot) : List Byte :=
  let body := if sh.root then imageBytes x else wireAcc x
  sha3 (digHeader 1 (slotAcc x) sh.hid x.seglen x.step x.seg ++ body ++ leBytes 32 x.void.toNat ++ leBytes 1 x.blkovf.toNat)

/-- OUT or BCAST digest of a job. -/
def digOut (part dst : Nat) (hid : BitVec 16) (j : Job) : List Byte :=
  let body := match fmtOf dst with
    | some f => packCodes f (j.codes.map (·.toNat)) ++ (if blockScaled f then j.dscale ++ padTo j.dscale.length j.nscale else [])
    | none => []
  sha3 (digHeader part dst hid j.codes.length j.step j.seg ++ body)

/-- W digest. -/
def digW (hid : BitVec 16) (step seg : Nat) (ws : List (BitVec 32)) : List Byte :=
  sha3 (digHeader 3 5 hid ws.length step seg ++ ws.flatMap (fun w => leBytes 4 w.toNat))

/-- Room in the 2 MiB buffer of segment digests. -/
def digRoom (s : State) : Bool := decide (s.dig.buffer.length + 3 ≤ 32768)

def addDig (hid : BitVec 16) (n part seg : Nat) (hash : List Byte) (s : State) : State :=
  { s with dig := { s.dig with buffer := s.dig.buffer ++ [⟨hid, n, part, seg, hash⟩] } }

end Sys2Proof.Machine
end

