-- ==== Sys2Proof/Machine/MlDsa.lean ====
section
/-! DEFINITION. ML-DSA-87 of FIPS 204 as the module uses it: key generation from a seed, pure signing with an empty context string, and
verification (R211, R331, R358, R364, R366, R372, R399) (PRESUMED, log 5). A polynomial is the list of its 256 coefficients, lowest power
first, from 0 to q − 1. -/

namespace Sys2Proof.Machine

/-! ### SHAKE (FIPS 202) -/

/-- The sponge after absorbing a message under SHAKE padding at a rate of `r` bytes. -/
def shakeAbsorb (r : Nat) : Nat → List Byte → List W64 → List W64
  | 0, _, st => st
  | k + 1, m, st =>
    let lanes := (List.range 25).map (fun i =>
      if i < r / 8 then st.getD i 0 ^^^ BitVec.ofNat 64 (leAt m (8 * i) 8) else st.getD i 0)
    shakeAbsorb r k (m.drop r) (keccakF lanes)

/-- The first `r` bytes of a sponge state. -/
def spongeBytes (r : Nat) (st : List W64) : List Byte := (st.take (r / 8)).flatMap (fun w => leBytes 8 w.toNat)

/-- Squeeze `k` blocks. -/
def shakeSqueeze (r : Nat) : Nat → List W64 → List Byte
  | 0, _ => []
  | k + 1, st => spongeBytes r st ++ shakeSqueeze r k (keccakF st)

/-- SHAKE at a rate: the sponge after a message. -/
def shakeState (r : Nat) (m : List Byte) : List W64 :=
  let gap := r - m.length % r
  let padded := m ++ (if gap = 1 then [0x9F] else [0x1F] ++ zeros (gap - 2) ++ [0x80])
  shakeAbsorb r (padded.length / r) padded (List.replicate 25 0)

/-- `n` bytes of SHAKE256, and of SHAKE128. -/
def shake256 (m : List Byte) (n : Nat) : List Byte := (shakeSqueeze 136 ((n + 135) / 136) (shakeState 136 m)).take n
def shake128 (m : List Byte) (n : Nat) : List Byte := (shakeSqueeze 168 ((n + 167) / 168) (shakeState 168 m)).take n

/-! ### Arithmetic modulo q -/

abbrev Poly := List Nat

def mq : Nat := 8380417
def mqSub (a b : Nat) : Nat := (a + (mq - b)) % mq

/-- The representative of least size. -/
def centred (a : Nat) : Int := if a ≤ mq / 2 then a else (a : Int) - mq
def ofCentred (a : Int) : Nat := (a % mq).toNat

/-- a^e for e below 2^n. -/
def mqPow (a : Nat) : Nat → Nat → Nat
  | 0, _ => 1
  | n + 1, e =>
    let h := mqPow a n (e / 2)
    let h2 := h * h % mq
    if e % 2 = 1 then h2 * a % mq else h2

/-- Reverse of 8 bits. -/
def bitRev8 (k : Nat) : Nat := (List.range 8).foldl (fun v i => v + (if k.testBit i then 2 ^ (7 - i) else 0)) 0

/-- ζ to the bit-reversed node number, and its inverse; ζ = 1753 is a 512th root of unity. -/
def zeta (m : Nat) : Nat := mqPow 1753 10 (bitRev8 m)
def zetaInv (m : Nat) : Nat := mqPow 1753 10 (512 - bitRev8 m)

/-- The transform of a block of 2^d coefficients at node m. -/
def nttAt : Nat → Nat → Poly → Poly
  | 0, _, w => w
  | d + 1, m, w =>
    let h := 2 ^ d
    let z := zeta m
    let lo := w.take h
    let hi := (w.drop h).map (fun x => z * x % mq)
    nttAt d (2 * m) (List.zipWith (fun a b => (a + b) % mq) lo hi) ++ nttAt d (2 * m + 1) (List.zipWith mqSub lo hi)

/-- Its inverse, without the factor 2^d. -/
def inttAt : Nat → Nat → Poly → Poly
  | 0, _, w => w
  | d + 1, m, w =>
    let h := 2 ^ d
    let z := zetaInv m
    let lo := inttAt d (2 * m) (w.take h)
    let hi := inttAt d (2 * m + 1) (w.drop h)
    List.zipWith (fun a b => (a + b) % mq) lo hi ++ List.zipWith (fun a b => z * mqSub a b % mq) lo hi

def ntt (w : Poly) : Poly := nttAt 8 1 w
def intt (w : Poly) : Poly := (inttAt 8 1 w).map (fun x => 8347681 * x % mq)

def polySum (a b : Poly) : Poly := List.zipWith (fun x y => (x + y) % mq) a b
def polySub (a b : Poly) : Poly := List.zipWith mqSub a b
def polyMul (a b : Poly) : Poly := List.zipWith (fun x y => x * y % mq) a b
def polyZero : Poly := List.replicate 256 0

/-- A matrix in the transform domain times a vector. -/
def matMul (a : List (List Poly)) (v : List Poly) : List Poly :=
  a.map (fun row => (List.zipWith polyMul row v).foldl polySum polyZero)

/-- Largest size of a coefficient. -/
def normOf (v : List Poly) : Nat := v.foldl (fun a p => p.foldl (fun a x => max a (centred x).natAbs) a) 0

/-! ### Packing -/

/-- Values of `c` bits each, packed from the least significant bit up. -/
def packVal (c : Nat) (l : List Nat) : List Byte := leBytes (c * l.length / 8) (l.foldr (fun x a => a * 2 ^ c + x) 0)
def unpackVal (c n : Nat) (b : List Byte) : List Nat :=
  let v := leVal b
  (List.range n).map (fun i => v / 2 ^ (c * i) % 2 ^ c)

/-- A polynomial with coefficients from −a to b, as b − w. -/
def packPoly (c b : Nat) (p : Poly) : List Byte := packVal c (p.map (fun x => ((b : Int) - centred x).toNat))
def unpackPoly (c b : Nat) (l : List Byte) : Poly := (unpackVal c 256 l).map (fun (x : Nat) => ofCentred ((b : Int) - (x : Int)))

/-- The i-th of pieces of `n` bytes from an offset on. -/
def sliceAt (l : List Byte) (off n i : Nat) : List Byte := (l.drop (off + n * i)).take n

/-! ### Sampling -/

/-- Coefficients below q out of bytes taken by three. -/
def rejNtt : List Byte → List Nat
  | a :: b :: c :: r =>
    let z := a.toNat + 256 * b.toNat + 65536 * (c.toNat % 128)
    if z < mq then z :: rejNtt r else rejNtt r
  | _ => []

/-- Coefficients from −2 to 2 out of half-bytes. -/
def rejBounded : List Byte → List Nat
  | [] => []
  | z :: r =>
    let half (x : Nat) : List Nat := if x < 15 then [ofCentred (2 - (x % 5 : Nat))] else []
    half (z.toNat % 16) ++ half (z.toNat / 16) ++ rejBounded r

/-- Sample from a sponge, block by block, until there are 256 coefficients. -/
def sampleUntil (rate : Nat) (f : List Byte → List Nat) : Nat → List W64 → List Nat → Poly
  | 0, _, l => l.take 256
  | k + 1, st, l => if l.length ≥ 256 then l.take 256 else sampleUntil rate f k (keccakF st) (l ++ f (spongeBytes rate st))

/-- The public matrix of a seed: 8 rows of 7. The rate of 168 bytes is a multiple of 3. -/
def expandA (rho : List Byte) : List (List Poly) :=
  (List.range 8).map (fun r => (List.range 7).map (fun c =>
    sampleUntil 168 rejNtt 64 (shakeState 168 (rho ++ leBytes 1 c ++ leBytes 1 r)) []))

/-- The secret vectors of a seed, 7 and 8 polynomials. -/
def expandS (rho : List Byte) : List Poly :=
  (List.range 15).map (fun i => sampleUntil 136 rejBounded 64 (shakeState 136 (rho ++ leBytes 2 i)) [])

/-- The mask of a signing round. -/
def expandMask (rho : List Byte) (k : Nat) : List Poly :=
  (List.range 7).map (fun r => unpackPoly 20 524288 (shake256 (rho ++ leBytes 2 (k + r)) 640))

/-- Place the signs of a challenge: i from 196 up, each at a byte not above i. -/
def ballFill : Nat → Nat → Nat → List Byte → Poly → Poly
  | 0, _, _, _, c => c
  | fuel + 1, i, signs, bs, c => match bs with
    | [] => c
    | j :: r =>
      if i ≥ 256 then c
      else if j.toNat > i then ballFill fuel i signs r c
      else
        let c := c.set i (c.getD j.toNat 0)
        ballFill fuel (i + 1) (signs / 2) r (c.set j.toNat (if signs % 2 = 1 then mq - 1 else 1))

def sampleInBall (rho : List Byte) : Poly :=
  let b := shake256 rho 1088
  ballFill 1080 196 (leVal (b.take 8)) (b.drop 8) polyZero

/-! ### Rounding and hints -/

/-- r = r1·2^13 + r0. -/
def power2Round (r : Nat) : Nat × Nat :=
  let l := r % 8192
  let r0 : Int := if l > 4096 then (l : Int) - 8192 else l
  ((((r : Int) - r0) / 8192).toNat, ofCentred r0)

def gamma2 : Nat := 261888

/-- r = r1·2γ2 + r0, with the top interval folded to 0. -/
def decompose (r : Nat) : Nat × Int :=
  let l := r % (2 * gamma2)
  let r0 : Int := if l > gamma2 then (l : Int) - 2 * gamma2 else l
  if (r : Int) - r0 = mq - 1 then (0, r0 - 1) else ((((r : Int) - r0) / (2 * gamma2)).toNat, r0)

def highBits (v : List Poly) : List Poly := v.map (fun p => p.map (fun r => (decompose r).1))
def lowNorm (v : List Poly) : Nat := v.foldl (fun a p => p.foldl (fun a r => max a (decompose r).2.natAbs) a) 0

/-- Where adding z changes the high part of r. -/
def makeHint (z r : Nat) : Bool := decide ((decompose r).1 ≠ (decompose ((r + z) % mq)).1)

def useHint (h : Bool) (r : Nat) : Nat :=
  let d := decompose r
  if h then (if d.2 > 0 then (d.1 + 1) % 16 else (d.1 + 15) % 16) else d.1

def w1Bytes (v : List Poly) : List Byte := v.flatMap (fun p => packVal 4 p)

/-- Hints of 8 polynomials: the places of each in turn, and where each ends, in 83 bytes. -/
def packHint (h : List (List Bool)) : List Byte :=
  let places := h.map (fun p => (List.range 256).filter (fun j => p.getD j false))
  let flat := places.flatten
  let ends := (List.range 8).map (fun i => ((places.take (i + 1)).flatten).length)
  padTo 75 (flat.map (BitVec.ofNat 8)) ++ ends.map (BitVec.ofNat 8)

/-- Are numbers strictly rising? -/
def rising : List Nat → Bool
  | a :: b :: r => decide (a < b) && rising (b :: r)
  | _ => true

/-- Hints from 83 bytes; none where they are not the one encoding of theirs. -/
def unpackHint (b : List Byte) : Option (List (List Bool)) :=
  let ends := (List.range 8).map (fun i => (b.getD (75 + i) 0).toNat)
  let starts := 0 :: ends
  let places := (List.range 8).map (fun i => ((b.take (ends.getD i 0)).drop (starts.getD i 0)).map (·.toNat))
  let last := ends.getD 7 0
  if (List.range 8).all (fun i => decide (starts.getD i 0 ≤ ends.getD i 0)) && decide (last ≤ 75) && places.all rising &&
      ((b.take 75).drop last).all (· == 0)
  then some (places.map (fun l => (List.range 256).map l.contains))
  else none

/-! ### Keys and signatures -/

/-- The key pair of a seed: public key of 2,592 bytes and private key of 4,896 (ML-DSA.KeyGen_internal). -/
def mldsaKeys (seed : List Byte) : List Byte × List Byte :=
  let h := shake256 (seed ++ [8, 7]) 128
  let rho := h.take 32
  let s := expandS ((h.drop 32).take 64)
  let s1 := s.take 7
  let s2 := s.drop 7
  let t := List.zipWith polySum ((matMul (expandA rho) (s1.map ntt)).map intt) s2
  let pk := rho ++ t.flatMap (fun p => packVal 10 (p.map (fun x => (power2Round x).1)))
  (pk, rho ++ h.drop 96 ++ shake256 pk 64 ++ s1.flatMap (packPoly 3 2) ++ s2.flatMap (packPoly 3 2) ++
    t.flatMap (fun p => packPoly 13 4096 (p.map (fun x => (power2Round x).2))))

def mldsaPublic (seed : BitVec 256) : List Byte := (mldsaKeys (leBytes 32 seed.toNat)).1
def mldsaPrivate (seed : BitVec 256) : List Byte := (mldsaKeys (leBytes 32 seed.toNat)).2

/-- Signing rounds from counter k on, until one is accepted. -/
def signRounds (a : List (List Poly)) (s1 s2 t0 : List Poly) (mu rho : List Byte) : Nat → Nat → Option (List Byte)
  | 0, _ => none
  | n + 1, k =>
    let y := expandMask rho k
    let w := (matMul a (y.map ntt)).map intt
    let c1 := shake256 (mu ++ w1Bytes (highBits w)) 64
    let c := ntt (sampleInBall c1)
    let times (v : List Poly) : List Poly := v.map (fun p => intt (polyMul c p))
    let z := List.zipWith polySum y (times s1)
    let r := List.zipWith polySub w (times s2)
    let ct0 := times t0
    let hint := List.zipWith (fun r t => List.zipWith (fun r t => makeHint ((mq - t) % mq) ((r + t) % mq)) r t) r ct0
    if normOf z ≥ 524288 - 120 ∨ lowNorm r ≥ gamma2 - 120 ∨ normOf ct0 ≥ gamma2 ∨ hint.foldl (fun a p => a + p.countP id) 0 > 75
    then signRounds a s1 s2 t0 mu rho n (k + 7)
    else some (c1 ++ z.flatMap (packPoly 20 524288) ++ packHint hint)

/-- A pure signature of 4,627 bytes with an empty context string, under given randomness. 814 rounds fail with a chance below
2^-256 each run; the zeros given then stand for no signature. -/
def mldsaSign (key msg : List Byte) (rnd : BitVec 256) : List Byte :=
  let s1 := (List.range 7).map (fun i => ntt (unpackPoly 3 2 (sliceAt key 128 96 i)))
  let s2 := (List.range 8).map (fun i => ntt (unpackPoly 3 2 (sliceAt key 800 96 i)))
  let t0 := (List.range 8).map (fun i => ntt (unpackPoly 13 4096 (sliceAt key 1568 416 i)))
  let mu := shake256 ((key.drop 64).take 64 ++ [0, 0] ++ msg) 64
  let rho := shake256 ((key.drop 32).take 32 ++ leBytes 32 rnd.toNat ++ mu) 64
  (signRounds (expandA (key.take 32)) s1 s2 t0 mu rho 814 0).getD (zeros 4627)

/-- Does a signature verify, as a pure one with an empty context string? -/
def mldsaVerify (key msg sig : List Byte) : Bool :=
  match unpackHint (sig.drop 4544) with
  | none => false
  | some hint =>
    let z := (List.range 7).map (fun i => unpackPoly 20 524288 (sliceAt sig 64 640 i))
    let t1 := (List.range 8).map (fun i => ntt ((unpackVal 10 256 (sliceAt key 32 320 i)).map (fun x => x * 8192 % mq)))
    let mu := shake256 (shake256 key 64 ++ [0, 0] ++ msg) 64
    let c := ntt (sampleInBall (sig.take 64))
    let w := List.zipWith (fun az t => intt (polySub az (polyMul c t))) (matMul (expandA (key.take 32)) (z.map ntt)) t1
    let w1 := List.zipWith (fun h r => List.zipWith useHint h r) hint w
    decide (key.length = 2592) && decide (sig.length = 4627) && decide (normOf z < 524288 - 120) &&
      decide (sig.take 64 = shake256 (mu ++ w1Bytes w1) 64)

end Sys2Proof.Machine
end

