-- ==== Sys2Proof/Machine/RunOps.lean ====
section
/-! DEFINITION. How steps close, runs end, playbill ring records are written and signatures fall due (04 R103, R113; 08 R208 to
R212; 13 R342, R349, R350). -/

namespace Sys2Proof.Machine

/-! ### Commands (R336, R339) -/

/-- A command ends with a status and result fields; its mailbox takes them at COMMAND_END. -/
def endCmd (id : Nat) (status : BitVec 16) (fields : List Byte) (s : State) : State :=
  { s with host := { s.host with cmds := s.host.cmds.map (fun c => if c.id = id then { c with acted := true, out := some (status, fields) } else c) } }

def stOk : BitVec 16 := 0x0000
def stRefused : BitVec 16 := 0x0002
def stPrivilege : BitVec 16 := 0x0020
def stNotOwner : BitVec 16 := 0x0021
def stBadSeq : BitVec 16 := 0x0022
def stBadCmd : BitVec 16 := 0x0023
def stBadWindow : BitVec 16 := 0x0024
def stRange : BitVec 16 := 0x0025
def stBusy : BitVec 16 := 0x0026
def stNotFound : BitVec 16 := 0x0027
def stExists : BitVec 16 := 0x0028
def stFull : BitVec 16 := 0x0029
def stNoSpine : BitVec 16 := 0x002A
def stLastAdmin : BitVec 16 := 0x002B
def stWrongRole : BitVec 16 := 0x002C

/-! ### The ring (R208, R210, R211) -/

def digSticky (bits : BitVec 4) (s : State) : State :=
  fresh .digSticky 0 (bits.setWidth 64) { s with dig := { s.dig with sticky := s.dig.sticky ||| bits } }

/-- Bytes of the ring in use. -/
def ringUsed (s : State) : Nat := s.dig.writtenTo - s.dig.freedTo

/-- Is there room for a record of n bytes? -/
def ringRoom (s : State) (n : Nat) : Bool := decide (ringUsed s + n ≤ ringBytes)

/-- Write bytes at a position of the ring, which is cyclic. -/
def ringWrite (m : Mem) (pos : Nat) (l : List Byte) : Mem :=
  let off := pos % ringBytes
  let first := ringBytes - off
  memWrite (memWrite m (ringBase + off) (l.take first)) ringBase (l.drop first)

/-- Add a record of step n to the ring and announce it with a STEP event (R350). -/
def addRecord (n : Nat) (sig : Bool) (l : List Byte) (s : State) : State :=
  let pos := s.dig.writtenTo
  let s := { s with
    dram := ringWrite s.dram pos l
    dig := { s.dig with writtenTo := pos + l.length, records := s.dig.records ++ [(pos + l.length, n, sig)] } }
  hostEvent 0x07 (leBytes 8 n ++ leBytes 8 (pos % ringBytes) ++ leBytes 4 l.length ++ [if sig then 1 else 0] ++ zeros 3) s

/-- Complete signature records enter the ring while there is room, up to a playbill that waits; one that finds none waits and sets
RING_FULL (R211). -/
def serveRing : Nat → State → State
  | 0, s => s
  | k + 1, s => match s.dig.ready with
    | [] => s
    | (n, l) :: r =>
      if s.dig.pbAhead = some 0 then s
      else if ringRoom s l.length then
        serveRing k (addRecord n true l { s with dig := { s.dig with ready := r, pbAhead := s.dig.pbAhead.map (· - 1) } })
      else digSticky 1 s

/-- A playbill falls due: it is signed at once, or, while another is being signed, waits as the newest due and sets SIGN_SKIP (R212). -/
def signDue (x : Signing) (s : State) : State :=
  if s.dig.signing.isNone then { s with dig := { s.dig with signing := some x } }
  else digSticky 2 { s with dig := { s.dig with due := some x } }

/-- Bytes 0x000 to 0x07F of a signature record (Table Audit-8). -/
def sigHead (s : State) (x : Signing) : List Byte :=
  [0x5A, 0x53, 0x49, 0x47, 0, 1, 0, 0] ++ leBytes 8 x.jobId.toNat ++ leBytes 8 x.step ++ leBytes 8 s.fuses.serial.toNat ++
    zeros 32 ++ padTo 64 x.digest

/-! ### The end of a run (R113, R342, R350) -/

/-- The last closed step; where no step has closed the spec names no value and it is free (DESIGN CHOICE, log 44). -/
def lastStep (s : State) : W64 := match s.cue.lastClosed with
  | some n => BitVec.ofNat 64 n
  | none => (freeNow s).setWidth 64

/-- The state after the value of `lastStep` is used (DESIGN CHOICE, log 44). -/
def drawnLast (s : State) : State := if s.cue.lastClosed.isNone then drawn s else s

/-- Result fields of a STOP (Table Host-9) (DESIGN CHOICE, log 44). -/
def stopFields (ran : Bool) (last : W64) : List Byte := [if ran then 1 else 0] ++ zeros 7 ++ leBytes 8 last.toNat

/-- Every STOP that waits for the end of the run ends. -/
def endStops (last : W64) (s : State) : State :=
  { s with host := { s.host with cmds := s.host.cmds.map (fun c =>
      if c.code = 0x0012 ∧ c.acted ∧ c.out.isNone then { c with out := some (stOk, stopFields true last) } else c) } }

/-- Units wait no longer for a step boundary to come back from a fence (R412). -/
def liftFences (s : State) : State :=
  { s with flt := { s.flt with
      team := s.flt.team &&& ~~~s.flt.liftTeam, array := s.flt.array &&& ~~~s.flt.liftArray, liftTeam := 0, liftArray := 0 } }

/-- The run ends with a cause of Table Host-12. Unmatched compare entries are dropped (R152), and the last playbill of the run is
signed (R212) (DEDUCED, log 19). -/
def endRun (cause : Nat) (s : State) : State :=
  match s.cue.run with
  | none => s
  | some r =>
    let last := lastStep s
    let s := drawnLast s
    let s := if s.grm.compare.isEmpty then s else grmSticky 9 { s with grm := { s.grm with compare := [] } }
    let s := match r.lastPb, s.cue.sheet with
      | some n, some sh =>
        if !r.lastDue ∧ r.steps.isEmpty then
          signDue { step := n, jobId := sh.jobId, digest := r.prevPb, since := s.time } s
        else s
      | _, _ => s
    let s := liftFences { s with
      cue := { s.cue with run := none, resuming := decide (cause = 2) }, dig := { s.dig with pbAhead := none } }
    endStops last (hostEvent 0x09 (leBytes 8 last.toNat ++ leBytes 1 cause) s)

/-- A run with no open step ends by a host stop, by the loss of the clock, or after STEP_COUNT steps (DEDUCED, log 19). -/
def maybeEnd (s : State) : State :=
  match s.cue.run, s.cue.sheet with
  | some r, some sh =>
    if !r.steps.isEmpty then s
    else match r.ending with
      | .recovery => s
      | .stop => endRun 1 s
      | .clock => endRun 3 s
      | .none => if sh.stepCount ≠ 0 ∧ r.nextStep ≥ sh.firstStep + sh.stepCount then endRun 0 s else s
  | _, _ => s

/-- The clock enters FREE or STOPPED in a cued run (R103). -/
def clockStop (s : State) : State :=
  match s.cue.run, s.cue.sheet with
  | some r, some sh =>
    if sh.liberty then s
    else
      let e := if r.ending = .none then Ending.clock else r.ending
      let s := cueSticky 6 s
      let s := failInsts (fun i => !i.launched) (modRun (fun r => { r with ending := e }) s)
      maybeEnd (settle s)
  | _, _ => s

/-! ### The close of a step -/

/-- The newest launched instance of each cue, for the cue registers. -/
def keepLast (n : Nat) (insts : List Inst) (s : State) : State :=
  let new := (insts.filter (·.launched)).map (fun i => (n, i))
  { s with cue := { s.cue with last := s.cue.last.filter (fun x => !new.any (fun y => decide (y.2.cue = x.2.cue))) ++ new } }

/-- VALID of the progress entries that name a step is cleared (R318). -/
def clearProgress (n : Nat) (s : State) : State :=
  (shardIndexes s).foldl (fun s i =>
    let p := readProgress s i
    if p.valid ∧ p.step = n then writeProgress i { p with valid := false } s else s) s

/-- Instances of a closing step, over a head, whose action ticks are still to come: a member's misses are counted to them too (R122). -/
def lateTicks (s : State) (o : OpenStep) : List LateTick :=
  o.insts.filterMap (fun i => match cueWord s i.cue with
    | some w =>
      if decide (i.st = .done) && !i.acted && headed (cKind w) && decide (cDeadline w ≠ 0) then
        some ⟨o.step, i.cue, i.launchAt + cDeadline w + cGrace w⟩
      else none
    | none => none)

/-- A step closes: its contexts and leftovers go, and fences waiting for the boundary are lifted. -/
def closeStep (n : Nat) (s : State) : State :=
  match openStep s n with
  | none => s
  | some o =>
    let s := keepLast n o.insts s
    let s := clearProgress n s
    let s := { s with
      cue := { s.cue with lastClosed := some n, closedTo := some n, late := s.cue.late ++ lateTicks s o, run := s.cue.run.map (fun r => { r with
        steps := r.steps.filter (fun x => !decide (x.step = n)), closed := r.closed + 1 }) }
      callb := { s.callb with
        ctxs := s.callb.ctxs.filter (fun x => !decide (x.step = n)), sums := s.callb.sums.filter (fun x => !decide (x.step = n)) }
      harn := { s.harn with
        jobs := s.harn.jobs.filter (fun j => !(decide (j.step = n) && (j.bcast || j.band) && jobOver s j))
        heads := s.harn.heads.map (fun h => { h with readmits := h.readmits.filter (fun k => decide (k > n)) }) }
      grm := { s.grm with advanced := s.grm.advanced.filter (fun x => !decide (x.2 = n)) }
      prj := { s.prj with
        bands := s.prj.bands.filter (fun b => !decide (b.step = n))
        upper := s.prj.upper.filter (fun u => u.step != BitVec.ofNat 32 n) }
      dig := { s.dig with buffer := s.dig.buffer.filter (fun d => !decide (d.step = n)) }
      outr := { s.outr with notes := s.outr.notes.filter (fun x =>
        !decide (x.step = n) || s.outr.ctxs.any (fun y => decide (y.step = n) && decide (y.head = x.head))) } }
    liftFences s

end Sys2Proof.Machine
end

