-- ==== Sys2Proof/Machine/Audit.lean ====
section
/-! DEFINITION. Meanings of the rows that close steps with playbills, sign them, audit state and end Outrider checks
(08_numerics_watch_and_audit.md R197 to R214). -/

namespace Sys2Proof.Machine

/-! ### The playbill (R209) -/

/-- A head digest of a step; 64 zero bytes for a part the head did not produce (R206). -/
def headDigest (x : HeadStep) (part : Nat) : List Byte := ((x.digests.find? (fun d => decide (d.1 = part))).map (·.2)).getD (zeros 64)

/-- A cue record (Table Audit-6). -/
def cueRecord (n : Nat) (i : Inst) : List Byte :=
  leBytes 4 i.cue ++ zeros 4 ++ leBytes 8 (cueStatus n i).toNat ++ leBytes 8 i.launchAt ++ leBytes 4 i.doneAt ++
    leBytes 4 (i.firstAt.getD 0)

/-- A head record (Table Audit-7). -/
def headRecord (s : State) (sh : SheetHead) (x : HeadStep) : List Byte :=
  let flags := (if sh.root then 1 else 0) + (if headFloat sh then 2 else 0) + (if x.updated then 4 else 0) +
    (if shardRole s sh.hid = roleUnderstudy then 8 else 0) + (if x.excluded then 16 else 0)
  leBytes 2 sh.hid.toNat ++ leBytes 2 sh.company.toNat ++ leBytes 2 flags ++ zeros 2 ++ leBytes 4 (min 0xFFFF_FFFF x.ovfblk) ++
    leBytes 4 (min 0xFFFF_FFFF x.voidel) ++ leBytes 8 x.expected.toNat ++ [if x.expected.getLsbD 64 then 1 else 0] ++ zeros 7 ++
    leBytes 8 x.leftOut.toNat ++ zeros 24 ++ headDigest x 1 ++ headDigest x 2 ++ headDigest x 3 ++ headDigest x 4

/-- A call record: eight containers of Z48 results (R209). -/
def callRecord (s : State) (n c : Nat) : List Byte :=
  padTo 64 ((((callCtx s n c).bind (·.result)).getD []).flatMap (fun e => leBytes 8 e.toNat))

/-- Is the playbill of step n due for signing (R212)? -/
def playbillDue (sh : Sheet) (r : Run) (n : Nat) : Bool :=
  (decide (r.signEvery ≠ 0) && decide ((n - sh.firstStep) % r.signEvery = 0)) ||
    (decide (r.steps.length ≤ 1) && (decide (r.ending ≠ .none) ||
      (decide (sh.stepCount ≠ 0) && decide (r.nextStep ≥ sh.firstStep + sh.stepCount))))

/-- The playbill of an ended step (Table Audit-5). -/
def playbill (s : State) (sh : Sheet) (r : Run) (o : OpenStep) (fin : W64 × BitVec 4 × W64) (due : Bool) : List Byte :=
  let heads := (sh.heads.zip o.heads)
  let cues := o.insts.flatMap (cueRecord o.step)
  let hrecs := heads.flatMap (fun x => headRecord s x.1 x.2)
  let callIdx := (List.range sh.cues.length).filter (fun c => ((sh.cues[c]?).map cKind) == some cCall)
  let calls := callIdx.flatMap (callRecord s o.step)
  let part (k : Nat) : List Byte := o.heads.flatMap (fun x => headDigest x k)
  let member := o.heads.any (·.excluded) || s.harn.heads.any (fun h => h.readmits.contains o.step)
  let flags := (if sh.liberty then 1 else 0) + 2 * fin.2.1.toNat + (if heads.any (fun x => headFloat x.1 && x.2.reduced) then 32 else 0) +
    (if member then 64 else 0) + (if o.exact + o.toler > 0 then 128 else 0) + (if due then 256 else 0)
  [0x5A, 0x50, 0x42, 0x4C, 0, 1] ++ leBytes 2 0x200 ++ leBytes 8 (512 + cues.length + hrecs.length + calls.length) ++
    leBytes 8 sh.jobId.toNat ++ leBytes 8 o.step ++ leBytes 8 s.fuses.serial.toNat ++ leBytes 8 flags ++
    leBytes 8 o.openAt.toNat ++ leBytes 8 fin.1.toNat ++ leBytes 8 s.stg.wall.toNat ++ leBytes 4 o.insts.length ++
    leBytes 4 heads.length ++ leBytes 4 callIdx.length ++ zeros 4 ++ leBytes 8 fin.2.2.toNat ++ padTo 64 s.cue.program ++
    sha3 (part 1) ++ sha3 (part 3) ++ sha3 (o.heads.flatMap (fun x => headDigest x 2 ++ headDigest x 4)) ++ sha3 calls ++
    padTo 64 r.prevPb ++ leBytes 4 o.samples ++ leBytes 4 o.exact ++ leBytes 4 o.toler ++ leBytes 4 o.abandon ++ zeros 16 ++
    cues ++ hrecs ++ calls

/-- Does a head digest of the step still have to be folded (R206, R210)? -/
def foldPending (s : State) (sh : Sheet) (n : Nat) : Bool :=
  sh.heads.any (fun h => [1, 2, 3, 4].any (fun part =>
    let k := s.dig.buffer.countP (fun d => d.hid == h.hid && decide (d.step = n) && decide (d.part = part))
    decide (k > 0) && decide (k ≥ segsOf h.len)))

/-- PLAYBILL_WRITE: the Prompter writes the playbill of the oldest step whose cues have all ended, which closes the step. Without
room in the ring the close waits; signature records that stood behind it then enter (R113, R210 to R212). -/
def execPlaybillWrite (s : State) : Host.Outcome State Fault Refusal :=
  match s.cue.sheet, s.cue.run with
  | some sh, some r =>
    match r.steps with
    | [] => .next s
    | o :: _ =>
      match o.ended with
      | none => .next s
      | some fin =>
        if !s.prm.running ∨ recovering s ∨ foldPending s sh o.step ∨ !carriageClear s 4 then .next s
        else
          let s := serveRing s.dig.ready.length s
          let due := playbillDue sh r o.step
          let pb := playbill s sh r o fin due
          let padded := padTo ((pb.length + 63) / 64 * 64) pb
          let ahead := s.dig.pbAhead.getD s.dig.ready.length
          if ahead > 0 ∨ !ringRoom s padded.length then
            .next (digSticky 1 { s with dig := { s.dig with pbAhead := some ahead } })
          else
            let digest := sha3 pb
            let s := addRecord o.step false padded s
            let s := { s with dig := { s.dig with last := BitVec.ofNat 32 o.step, pbAhead := none } }
            let s := serveRing s.dig.ready.length s
            let s := if due then signDue { step := o.step, jobId := sh.jobId, digest := digest, since := s.time } s else s
            .next (maybeEnd (closeStep o.step (modRun (fun r => { r with prevPb := digest, lastPb := some o.step, lastDue := due }) s)))
  | _, _ => .next s

/-- SIGNATURE_COMPLETE: the signature being made is complete; its record enters the ring, and the newest due playbill is signed
next. The signature is hedged by a free value (R211, R212). -/
def execSignatureComplete (s : State) : Host.Outcome State Fault Refusal :=
  match s.dig.signing with
  | none => .next s
  | some x =>
    if !s.prm.running ∨ s.prm.keymem.isEmpty ∨ !carriageClear s 4 then .next s
    else
      let head := sigHead s x
      let sig := mldsaSign s.prm.keymem head ((freeNow s).setWidth 256)
      let rec' := padTo 4800 (head ++ sig)
      let s := drawn s
      let s := { s with dig := { s.dig with
        signing := s.dig.due.map (fun y => { y with since := s.time }), due := none, ready := s.dig.ready ++ [(x.step, rec')] } }
      .next (serveRing s.dig.ready.length s)

/-! ### State audit (R214) -/

/-- Is a state audit refused? -/
def auditRefused (s : State) (hid : BitVec 16) (page : Nat) : Bool := match shardOf s hid with
  | none => true
  | some r => s.cue.run.isSome || decide (4096 * page + 64 * segsOf r.len > scratchBytes)

/-- Start a state audit with the fields written to DIG_AUDIT, or refuse it. -/
def startAudit (v : W64) (s : State) : State :=
  let hid := BitVec.ofNat 16 (fld v 47 32)
  let page := fld v 31 14
  let s := { s with dig := { s.dig with audit := v &&& ~~~(ones 63 63) } }
  if auditRefused s hid page then digSticky 8 s
  else { s with dig := { s.dig with audit := v ||| ones 63 63, auditJob := some ⟨hid, page, s.issued⟩ }, issued := s.issued + 1 }

/-- A write to DIG_AUDIT (R214). While an audit runs, only the fields of the register change (DEDUCED, log 24). -/
def writeAudit (v : W64) (s : State) : State :=
  let f := v &&& (ones 47 32 ||| ones 31 14)
  if v.getLsbD 63 ∧ s.dig.auditJob.isNone then startAudit f s
  else { s with dig := { s.dig with audit := (s.dig.audit &&& ones 63 63) ||| f } }

/-- W segment digests of a shard at its LASTSTEP, in segment order. -/
def auditDigests (s : State) (hid : BitVec 16) (r : Shard) : List Byte :=
  (List.range (segsOf r.len)).flatMap (fun g =>
    digW hid r.last.toNat g ((readWords s r (256 * g) (min 256 (r.len - 256 * g))).map wordW))

/-- The end of an audit: GO clears, and a write of the same arena cycle is applied after that (R14, R214). -/
def endAudit (s : State) : State :=
  let t := digSticky 4 { s with dig := { s.dig with auditJob := none, audit := s.dig.audit &&& ~~~(ones 63 63) } }
  (lastWrite s .digAudit 0).elim t (fun v => writeAudit v t)

/-- AUDIT_DONE: the state words are read, with what their accesses report, in the audit's turn at the Carriage, and so after a zero fill
issued before it (R133, R134, R137); the digests are in the scratch region and AUDIT_DONE is set. -/
def execAuditDone (errs : List AccErr) (s : State) : Host.Outcome State Fault Refusal :=
  match s.dig.auditJob with
  | none => .next s
  | some j =>
    if !carriageTurn s 3 j.issue then .next s else
    let s := match shardOf s j.hid with
      | some r => readErrors (stateAddr r 0) (8 * r.len) errs s
      | none => s
    let s := match shardOf s j.hid with
      | some r => { s with dram := memWrite s.dram (scratchBase + 4096 * j.page) (auditDigests s j.hid r) }
      | none => s
    .next (endAudit s)

/-! ### The end of an Outrider check (R197 to R202) -/

/-- A failed exact check (R202). -/
def exactMiss (x : Sample) (check : Nat) (hid : BitVec 16) (elem : BitVec 6) (s : State) : State :=
  let miss := put check 4 60 ||| put hid.toNat 16 44 ||| put x.seg 24 20 ||| put x.block 2 18 ||| put elem.toNat 6 12 ||| put x.step 12 0
  let s := outrSticky 1 { s with outr := { s.outr with
    miss := if s.outr.sticky.getLsbD 0 then s.outr.miss else miss, exact := satAdd 0xFFFF s.outr.exact 1 } }
  raise { src := srcOutrider, sticky := s.outr.sticky.setWidth 64 }
    (noteOutr x.step 1 0 (modNote x.step x.head (fun y => { y with exact := true }) s))

/-- What the compare of an exact check shows: the Outrider's own sum against the slot as it fired; for what a unit itself computed,
what the hardware's compare reports (R197) (DESIGN CHOICE, log 12). -/
def checkSeen (x : Sample) (check : Nat) (seen : CheckSeen) : CheckSeen := match x.miss.find? (fun m => decide (m.1 = check)) with
  | some m => .differs m.2
  | none => seen

/-- SAMPLE_CHECK_END: a check of a sample ends; its last check frees the context (R197, R198). -/
def execSampleCheckEnd (head : Fin 4096) (seg : BitVec 24) (block : Fin 4) (check : Fin 7) (seen : CheckSeen) (s : State) :
    Host.Outcome State Fault Refusal :=
  let c := check.val
  let mine (x : Sample) : Bool := decide (x.head = head.val) && decide (x.seg = seg.toNat) && decide (x.block = block.val) &&
    x.checks.contains c && x.ready.contains c
  match s.outr.ctxs.find? mine with
  | none => .next s
  | some x =>
    if unitHeld s unitOutrider then .next s
    else
      let left := x.checks.filter (fun k => !decide (k = c))
      let ctxs := if left.isEmpty then dropFirst mine s.outr.ctxs
        else modFirst mine (fun y => { y with checks := left }) s.outr.ctxs
      let s := { s with outr := { s.outr with ctxs := ctxs } }
      if c = 5 ∨ c = 6 then
        .next (if left.contains 5 ∨ left.contains 6 then s else endTolerance x s)
      else match checkSeen x c seen, sheetHead s head.val with
        | .differs e, some sh => .next (exactMiss x c sh.hid e s)
        | _, _ => .next s

end Sys2Proof.Machine
end

