-- ==== Sys2Proof/Machine/CmdOps.lean ====
section
/-! DEFINITION. Commands of the Prompt protocol: which may act now, and how one ends (13_host_and_prompt_protocol.md R336 to R340). -/

namespace Sys2Proof.Machine

/-- Commands marked Q in Table Host-9 and in the tables of chapters 14 to 16 (R339). -/
def isQueued (code : Nat) : Bool :=
  [0x10, 0x11, 0x20, 0x21, 0x22, 0x30, 0x31, 0x32, 0x50, 0x51, 0x62, 0x63, 0x64, 0x65, 0x67, 0x81, 0x82].contains code

/-- The first Q command that has not ended. -/
def firstQueued (s : State) : Option Nat :=
  (s.host.cmds.find? (fun c => isQueued c.code.toNat && c.out.isNone)).map (·.id)

/-- REG_READ and REG_WRITE, which reach the fabric in the order in which their POSTs were accepted (R449), and the first that has not
ended. -/
def isAccess (code : Nat) : Bool := decide (code = 0x40) || decide (code = 0x41)
def firstAccess (s : State) : Option Nat := (s.host.cmds.find? (fun c => isAccess c.code.toNat && c.out.isNone)).map (·.id)

/-- Commands that reach LPDDR6 through the Carriage: they wait for MEM_READY (R437). -/
def needsMemory (code : Nat) : Bool :=
  [0x10, 0x14, 0x20, 0x22, 0x30, 0x31, 0x32, 0x60, 0x61, 0x62, 0x63, 0x72].contains code

/-- The accepted command `id` where it has CODE `code`, has not acted, and may act now (R339, R437, R449) (DESIGN CHOICE, log 10) (DESIGN CHOICE, log 17). -/
def cmdReady (s : State) (id code : Nat) : Option Cmd := match s.host.cmds.find? (fun c => decide (c.id = id)) with
  | some c =>
    if c.code.toNat = code ∧ !c.acted ∧ c.out.isNone ∧ (!isQueued code ∨ firstQueued s = some id) ∧
        (!isAccess code ∨ firstAccess s = some id) ∧ (!needsMemory code ∨ s.rst.memReady)
    then some c else none
  | none => none

/-- A command reads n bytes of LPDDR6 from address a; what the accesses report takes effect first, and the command goes on where it
still stands (R132, R133) (DESIGN CHOICE, log 98). -/
def readThen (m : MemCmd) (code a n : Nat) (s : State) (k : State → Host.Outcome State Fault Refusal) :
    Host.Outcome State Fault Refusal :=
  let t := readErrors a n m.errs s
  if (cmdReady t m.id code).isSome then k t else .next t

/-- Bytes of the shard table (Table Groom-1), which a command searches for a record. -/
def tableBytes : Nat := 262144

/-- Argument field of a command. -/
def arg (c : Cmd) (off n : Nat) : Nat := leAt c.args off n

/-- A command whose arguments the spec gives no outcome for ends without effect, with a status that is free (DESIGN CHOICE, log 47). -/
def endOpen (id : Nat) (s : State) : State := endCmd id ((freeNow s).setWidth 16) [] (drawn s)

/-- REASON, a reserved byte and WHERE (Table Host-9). -/
def reasonFields (reason whereAt : Nat) : List Byte := leBytes 1 reason ++ [0] ++ leBytes 6 whereAt

/-- Free bytes for a result field that a refusal leaves unstated (DESIGN CHOICE, log 47). -/
def freeBytes (s : State) (n : Nat) : List Byte := leBytes n (freeNow s).toNat

/-- Is a shard named by the running sheet (R138)? -/
def runNames (s : State) (hid : BitVec 16) : Bool := match s.cue.run, s.cue.sheet with
  | some _, some sh => sh.cues.any (fun c =>
      ((decide (cKind c = cReduceUpdate) || decide (cKind c = cBroadcast)) && cHid c == hid) ||
        (decide (cKind c = cMove) && decide (cMoveOp c = 2) && cZeroHid c == hid))
  | _, _ => false

end Sys2Proof.Machine
end

