-- ==== Sys2Proof/Machine/PromOps.lean ====
section
/-! DEFINITION. The Prompter's flash, images, operator table, identity record and boot (14_prompter_boot_identity.md R355 to R368). -/

namespace Sys2Proof.Machine

/-! ### Flash (R360 to R362): bytes past those programmed are erased and read 0xFF -/

/-- Bytes of a flash area (DESIGN CHOICE, log 9). -/
def flashAt (l : List Byte) (off n : Nat) : List Byte :=
  let x := (l.drop off).take n
  x ++ List.replicate (n - x.length) 0xFF

/-- A control block (R361). -/
structure Ctl where
  gen    : BitVec 32
  active : Nat
  try_   : Nat
  tried  : Nat
  deriving DecidableEq, Repr

def ctlBytes (c : Ctl) : List Byte :=
  let b := leBytes 4 0x4243465A ++ leBytes 4 c.gen.toNat ++ leBytes 1 c.active ++ leBytes 1 c.try_ ++ leBytes 1 c.tried ++ zeros 49
  b ++ crc32Bytes b

/-- A copy with a good MAGIC and CRC. -/
def readCtl (l : List Byte) : Option Ctl :=
  let b := flashAt l 0 64
  if leAt b 0 4 = 0x4243465A ∧ crc32Bytes (b.take 60) = b.drop 60 then
    some { gen := BitVec.ofNat 32 (leAt b 4 4), active := leAt b 8 1, try_ := leAt b 9 1, tried := leAt b 10 1 }
  else none

/-- Is generation `a` the newer one? -/
def newerGen (a b : BitVec 32) : Bool := decide (0 < (a - b).toInt)

/-- Which copy is in use, of two that may be valid: the newer valid one. -/
def newestCopy (g0 g1 : Option (BitVec 32)) : Option (Fin 2) := match g0, g1 with
  | some a, some b => if newerGen b a then some 1 else some 0
  | some _, none => some 0
  | none, some _ => some 1
  | none, none => none

def ctlCopy (s : State) : Option (Fin 2) := newestCopy ((readCtl s.flash.ctl0).map (·.gen)) ((readCtl s.flash.ctl1).map (·.gen))

/-- The control block in force; with no valid copy ACTIVE is 0, TRY 0xFF and TRIED 0. -/
def ctlNow (s : State) : Ctl :=
  ((match ctlCopy s with
    | some 0 => readCtl s.flash.ctl0
    | some 1 => readCtl s.flash.ctl1
    | none => none)).getD { gen := 0, active := 0, try_ := 0xFF, tried := 0 }

/-- Write a control block: GEN of the newer copy plus 1, to the other copy (R361). A write that fails leaves open bytes there. -/
def writeCtl (ok : Bool) (c : Ctl) (s : State) : State :=
  let b := if ok then ctlBytes { c with gen := (ctlNow s).gen + 1 } else leBytes 64 (freeNow s).toNat
  let s := if ok then s else drawn s
  if ctlCopy s = some 0 then { s with flash := { s.flash with ctl1 := b } } else { s with flash := { s.flash with ctl0 := b } }

/-! ### The operator table (R331, R362) -/

def opEntry (o : Operator) : List Byte := leBytes 2 o.opid.toNat ++ leBytes 1 o.priv ++ zeros 5 ++ padTo 2592 o.key

/-- A table copy of 41,620 bytes. -/
def opTable (gen : BitVec 32) (ops : List Operator) : List Byte :=
  let b := leBytes 4 0x54504F5A ++ leBytes 4 gen.toNat ++ leBytes 1 ops.length ++ zeros 7 ++
    ops.flatMap opEntry ++ zeros (2600 * (16 - ops.length))
  b ++ crc32Bytes b

def opTableBytes : Nat := 41620

/-- GEN of a valid copy. -/
def opGen (l : List Byte) : Option (BitVec 32) :=
  let b := flashAt l 0 opTableBytes
  if leAt b 0 4 = 0x54504F5A ∧ crc32Bytes (b.take 41616) = b.drop 41616 then some (BitVec.ofNat 32 (leAt b 4 4)) else none

def opEntries (l : List Byte) : List Operator :=
  let b := flashAt l 0 opTableBytes
  (List.range (min 16 (leAt b 8 1))).map (fun i =>
    let e := (b.drop (16 + 2600 * i)).take 2600
    { opid := BitVec.ofNat 16 (leAt e 0 2), priv := leAt e 2 1, key := e.drop 8 })

def opCopy (s : State) : Option (Fin 2) := newestCopy (opGen s.flash.opt0) (opGen s.flash.opt1)

/-- The bytes of the copy in use. -/
def opCopyBytes (s : State) : Option (List Byte) := match opCopy s with
  | some 0 => some (flashAt s.flash.opt0 0 opTableBytes)
  | some 1 => some (flashAt s.flash.opt1 0 opTableBytes)
  | none => none

/-- Entries of the copy in use; with no valid copy the table is empty. -/
def opsInUse (s : State) : List Operator := ((opCopyBytes s).map opEntries).getD []

/-- Write the operator table to the other copy; the older copy is then due to be erased. -/
def writeOps (ops : List Operator) (s : State) : State :=
  let gen := (match opCopy s with
    | some 0 => opGen s.flash.opt0
    | some 1 => opGen s.flash.opt1
    | none => none).getD 0 + 1
  let b := opTable gen ops
  let s := { s with prm := { s.prm with operators := ops } }
  match opCopy s with
  | some 0 => { s with flash := { s.flash with opt1 := b }, prm := { s.prm with eraseDue := some (0, s.time) } }
  | some _ => { s with flash := { s.flash with opt0 := b }, prm := { s.prm with eraseDue := some (1, s.time) } }
  | none => { s with flash := { s.flash with opt0 := b }, prm := { s.prm with eraseDue := some (1, s.time) } }

/-! ### Images (R363, R364) -/

def imgText (h : List Byte) : Nat := leAt h 8 4
def imgData (h : List Byte) : Nat := leAt h 0xC 4
def imgEntry (h : List Byte) : Nat := leAt h 0x10 8
def imgVer (h : List Byte) : BitVec 32 := BitVec.ofNat 32 (leAt h 0x18 4)
def imgSvn (h : List Byte) : Nat := leAt h 0x1C 1
def imgKey (h : List Byte) : Fin 4 := Fin.ofNat 4 (leAt h 0x1D 1)
def imgPub (h : List Byte) : List Byte := (h.drop 0x100).take 2592
def imgLen (h : List Byte) : Nat := 8192 + imgText h + imgData h

/-- Lengths, ENTRY, SVN and reserved fields are in range (Table Prompter-6). -/
def imgLayout (h : List Byte) : Bool :=
  decide (imgText h % 8 = 0) && decide (8 ≤ imgText h) && decide (imgText h ≤ 2097152) &&
    decide (imgData h % 8 = 0) && decide (imgData h ≤ 1048576) &&
    decide (0x100_0000 ≤ imgEntry h) && decide (imgEntry h < 0x100_0000 + imgText h) && decide (imgSvn h ≤ 64) &&
    decide (leAt h 0x1D 1 < 4) && allZero ((h.drop 0x1E).take 2) && allZero ((h.drop 0x68).take 152) && allZero ((h.drop 0x1D33).take 717)

/-- The first failing check of Table Prompter-7, 0 for none. `read off n` gives the image's bytes; `lenOk` says whether a stated
LEN fits. -/
def checkFirmware (f : Fuses) (read : Nat → Nat → List Byte) (lenOk : Nat → Bool) : Nat :=
  let h := read 0 8192
  if leAt h 0 4 ≠ 0x4957465A ∨ leAt h 4 1 ≠ 0 ∨ leAt h 5 1 ≠ 1 ∨ leAt h 6 2 ≠ 0x2000 then 1
  else if !imgLayout h ∨ !lenOk (imgLen h) then 2
  else if sha3 (imgPub h) ≠ leBytes 64 (f.fwKey[(imgKey h).val]).toNat ∨ f.fwRevoke.getLsbD (imgKey h).val then 3
  else if !mldsaVerify (imgPub h) (h.take 0xB20) ((h.drop 0xB20).take 4627) then 4
  else if sha3 (read 8192 (imgText h + imgData h)) ≠ (h.drop 0x20).take 64 then 5
  else if imgSvn h < f.minSvn.val then 6
  else 0

/-- Bytes of an image slot. -/
def slotBytes (s : State) (k : Nat) : List Byte := if k = 0 then s.flash.slot0 else s.flash.slot1

/-- Full checks of the image in a slot. -/
def checkSlot (s : State) (k : Nat) : Nat := checkFirmware s.fuses (flashAt (slotBytes s k)) (fun _ => true)

/-- Digest of the image in a slot. -/
def slotDigest (s : State) (k : Nat) (len : Nat) : List Byte := sha3 (flashAt (slotBytes s k) 0 len)

/-! ### The boot record (R367) -/

def bootFlags (trial alt fast : Bool) : Nat := (if trial then 1 else 0) + (if alt then 2 else 0) + (if fast then 4 else 0)

def bootRecord (slot flags svn len : Nat) (digest : List Byte) : List Byte :=
  let b := leBytes 4 0x4352425A ++ zeros 4 ++ leBytes 1 slot ++ leBytes 1 flags ++ zeros 6 ++ leBytes 1 svn ++ zeros 7 ++
    leBytes 8 len ++ digest
  let b := padTo 0xFC b
  b ++ crc32Bytes b

/-- The boot record, where it survived with a good CRC. -/
def bootRec (s : State) : Option (List Byte) :=
  let b := memRead s.prm.retained 0 256
  if leAt b 0 4 = 0x4352425A ∧ crc32Bytes (b.take 0xFC) = b.drop 0xFC then some b else none

/-- FLAGS of the boot record. -/
def bootByte (s : State) : Byte := memByte s.prm.retained 9

/-- May the ROM take the fast path for a slot (R367, Table Reset-3)? -/
def fastAllowed (s : State) (k : Nat) : Bool := match bootRec s with
  | some b => !s.rst.choice.getLsbD 3 && decide (leAt b 8 1 = k) && decide (leAt b 16 1 ≥ s.fuses.minSvn.val) &&
      !s.fuses.fwRevoke.getLsbD (imgKey (flashAt (slotBytes s k) 0 8192)).val
  | none => false

/-- The fast path's one check: the slot still holds the image that ran. -/
def fastMatches (s : State) (k : Nat) : Bool := match bootRec s with
  | some b => decide (slotDigest s k (leAt b 24 8) = (b.drop 32).take 64)
  | none => false

/-! ### The identity record (R357, Table Prompter-4) -/

def orderNumber (s : State) : List Byte :=
  [0x49, 0x5A, 0x35, 0x31, 0x32, 0x30, 0x2D, 0x42, 0x31, 0x2D, 0x4C, 0x43] ++ (if s.fuses.build then [0x4D] else [])

/-- Identity words of the lane tiles that answered the ROM; the others count as 0. -/
def tileWord (s : State) (t : Fin 8) : W64 := if s.prm.tiles.getLsbD t.val then s.fuses.tileIds[t.val] else 0

/-- Identity word of the box office die, from its identity block (R355, R396). -/
def boxWord (s : State) : Nat := leAt s.boxRx.ident 8 8

def idRecord (s : State) : List Byte :=
  leBytes 4 0x5244495A ++ [0, 1] ++ leBytes 2 0xAA0 ++ leBytes 8 s.fuses.serial.toNat ++ padTo 16 (orderNumber s) ++
    leBytes 8 s.fuses.mac0.toNat ++ [10] ++ zeros 7 ++ leBytes 8 s.fuses.dieId.toNat ++
    (List.finRange 8).flatMap (fun t => leBytes 8 (tileWord s t).toNat) ++ leBytes 8 (boxWord s) ++ padTo 2592 s.prm.pubkey

/-- Does a blob pass R358? -/
def endorseOk (s : State) (b : List Byte) : Bool :=
  let k := leAt b 4 1
  let key := (b.drop 8).take 2592
  decide (b.length = 7227) && decide (leAt b 0 4 = 0x444E455A) && decide (k < 2) &&
    decide (sha3 key = leBytes 64 (s.fuses.endKey[(Fin.ofNat 2 k).val]).toNat) && mldsaVerify key (idRecord s) (b.drop 2600)

/-! ### The core's address map (R353, R354, Table Prompter-1) -/

/-- Areas of the address map. -/
inductive PrmArea where
  | rom | imem | dmem | keymem | retained | fusePort | fabric
  deriving DecidableEq, Repr

/-- Kinds of access. -/
inductive PrmAccess where
  | fetch | load | store
  deriving DecidableEq, Repr

/-- The area an address lies in. The register fabric has no stated size, and takes every address from its first on. -/
def prmArea (a : Nat) : Option PrmArea :=
  if a < 0x4_0000 then some .rom
  else if 0x100_0000 ≤ a ∧ a < 0x120_0000 then some .imem
  else if 0x200_0000 ≤ a ∧ a < 0x210_0000 then some .dmem
  else if 0x300_0000 ≤ a ∧ a < 0x300_4000 then some .keymem
  else if 0x400_0000 ≤ a ∧ a < 0x401_0000 then some .retained
  else if 0x500_0000 ≤ a ∧ a < 0x500_1000 then some .fusePort
  else if 0x1000_0000 ≤ a then some .fabric
  else none

/-- Does the map let the core make an access? KEYMEM is open in machine mode alone, the fuse port while its gate is open. -/
def prmAllows (s : State) (a : Nat) (k : PrmAccess) : Bool := match prmArea a with
  | some .rom => decide (k ≠ .store)
  | some .imem => true
  | some .dmem => decide (k ≠ .fetch)
  | some .keymem => decide (k ≠ .fetch) && decide (s.prm.mode = .machine)
  | some .retained => decide (k ≠ .fetch)
  | some .fusePort => decide (k = .load) && s.prm.fuseGate
  | some .fabric => decide (k ≠ .fetch)
  | none => false

/-! ### Boot (R365, R366) -/

/-- Run the image of a slot: memories, keys and the boot record are in place (R365 to R367) (DEDUCED, log 68). -/
def runImage (k : Nat) (trial alt fast : Bool) (s : State) : State :=
  let h := flashAt (slotBytes s k) 0 8192
  let len := imgLen h
  let digest := slotDigest s k len
  { s with
    prm := { s.prm with
      running := true, mode := .machine, pc := BitVec.ofNat 64 (imgEntry h), slot := k, trial := trial, alt := alt, fast := fast, svn := imgSvn h, fwver := imgVer h, keyIdx := (imgKey h).val
      digest := digest, imem := flashAt (slotBytes s k) 8192 (imgText h)
      dmem := flashAt (slotBytes s k) (8192 + imgText h) (imgData h)
      operators := opsInUse s
      retained := memWrite s.prm.retained 0 (bootRecord k (bootFlags trial alt fast) (imgSvn h) len digest) } }

/-- The fuse gate is opened, or closed until the Prompter next enters reset. -/
def setGate (on : Bool) (s : State) : State := { s with prm := { s.prm with fuseGate := on } }

/-- The ROM, in machine mode, opens the fuse gate, reads the fuses through their port, puts the identity key it derives into KEYMEM, and
closes the gate (R353, R365, R366). -/
def romKeys (tiles : BitVec 8) (s : State) : State :=
  let s := setGate true s
  let s := if prmAllows s 0x500_0000 .load && prmAllows s 0x300_0000 .store then
      { s with prm := { s.prm with tiles := tiles, keymem := mldsaPrivate s.fuses.idseed, pubkey := mldsaPublic s.fuses.idseed } }
    else s
  setGate false s

/-- Which slot the ROM tries first, whether as a trial, and the flash after the control block is written (R365). -/
def chooseSlot (ok : Bool) (s : State) : Nat × Bool × State :=
  let cb := ctlNow s
  if cb.try_ = 0xFF then (cb.active, false, s)
  else if cb.tried ≠ 0 then (cb.active, false, writeCtl ok { cb with try_ := 0xFF, tried := 0 } s)
  else if ok then (cb.try_, true, writeCtl ok { cb with tried := 1 } s)
  else (cb.active, false, writeCtl ok { cb with tried := 1 } s)

/-- Load and check a slot: whether it passes, and whether on the fast path. -/
def loadCheck (s : State) (k : Nat) (mayFast : Bool) : Bool × Bool :=
  if mayFast && fastAllowed s k && fastMatches s k then (true, true) else (decide (checkSlot s k = 0), false)

/-- The Prompter halts in the ROM and lets the SPI flash lines go (R368). -/
def halt (s : State) : State := setSpi false { s with prm := { s.prm with halted := true } }

/-- The ROM's run; it drives the SPI flash lines (R365, R368, R435). -/
def romBoot (tiles : BitVec 8) (ok : Bool) (s : State) : State :=
  let active := (ctlNow s).active
  let c := chooseSlot ok (romKeys tiles (setSpi true s))
  let s := c.2.2
  let first := c.1
  let a := loadCheck s first true
  if a.1 then runImage first c.2.1 false a.2 s
  else if (loadCheck s (1 - first) false).1 then runImage (1 - first) false (decide (1 - first ≠ active)) false s
  else halt s

end Sys2Proof.Machine
end

