-- ==== Sys2Proof/Machine/Ether.lean ====
section
/-! DEFINITION. Meanings of the rows of the two Ethernet ports: link, addresses, echo, LLDP and PTP (13_host_and_prompt_protocol.md
R320 to R324). -/

namespace Sys2Proof.Machine

/-! ### Addresses (R321) -/

/-- MAC address of a port. -/
def macOf (s : State) (hp : Fin 2) : BitVec 48 := s.fuses.mac0 + BitVec.ofNat 48 hp.val

/-- A value as `n` bytes, most significant first, as network headers carry it. -/
def beBytes (n v : Nat) : List Byte := (leBytes n v).reverse

/-- Interface identifier by modified EUI-64. -/
def eui64 (m : BitVec 48) : BitVec 64 :=
  ((m >>> 24).setWidth 64 <<< 40 ||| 0xFFFE <<< 24 ||| (m &&& 0xFF_FFFF).setWidth 64) ^^^ (2 <<< 56)

/-- An IPv6 address of a /64 prefix. -/
def addr6 (pre : BitVec 64) (m : BitVec 48) : BitVec 128 := pre ++ eui64 m

/-- The link-local prefix. -/
def linkLocal : BitVec 64 := 0xFE80_0000_0000_0000

/-- The port runs: its MAC is not held and its link is up. -/
def ethRuns (s : State) (hp : Fin 2) : Bool := (s.host.eth[hp.val]).up && !unitHeld s (unitMac hp.val)

/-- A frame that a running port takes: 64 to 9,216 bytes, in a form that Table Host-1 supports. `multi` is whether its protocol is one that
may use a multicast destination (R320). -/
def ethTakes (s : State) (fr : EthFrame) (multi : Bool) : Bool :=
  ethRuns s fr.port && decide (64 ≤ fr.len) && decide (fr.len ≤ 9216) && (decide (fr.form = .plain) || (multi && decide (fr.form = .multicast)))

/-- The IPv4 address in use. -/
def addr4 (e : EthPort) : Option (BitVec 32) := e.lease.or e.linkLocal4

/-- Does the port hold an address of the family of these bytes? -/
def holdsFamily (e : EthPort) (a : List Byte) : Bool := if a.length = 4 then (addr4 e).isSome else !e.addrs6.isEmpty

/-- Is this address, most significant byte first, one of the port's? -/
def holdsAddr (e : EthPort) (a : List Byte) : Bool :=
  (addr4 e).any (fun x => decide (beBytes 4 x.toNat = a)) || e.addrs6.any (fun x => decide (beBytes 16 x.toNat = a))

/-! ### PTP (R323) -/

/-- Is a data set better than another: the first field that differs is smaller? -/
def betterRank : List Nat → List Nat → Bool
  | a :: r, b :: t => if a < b then true else if b < a then false else betterRank r t
  | _, _ => false

/-- The Announce receipt timeout of the default profile: three intervals of 2 s (PRESUMED, log 51). -/
def announceTimeout : Nat := 6000 * ms

/-- The master of a port that still announces itself. -/
def liveMaster (s : State) (hp : Fin 2) : Option PtpMaster :=
  if (s.host.eth[hp.val]).masterAt + announceTimeout ≤ s.time then none else (s.host.eth[hp.val]).master

/-- Port of the best master; port 0 wins a tie. -/
def bestPort (s : State) : Option (Fin 2) := match liveMaster s 0, liveMaster s 1 with
  | some a, some b => if betterRank b.rank a.rank then some 1 else some 0
  | some _, none => some 0
  | none, some _ => some 1
  | none, none => none

def modPtp (f : Ptp → Ptp) (s : State) : State := { s with host := { s.host with ptp := f s.host.ptp } }

/-- Choose the port again; what another port's master has left unfinished is forgotten. -/
def choosePort (s : State) : State :=
  modPtp (fun p => if p.port = bestPort s then p else { p with port := bestPort s, twoStep := none, reqAt := none }) s

/-- A measured offset: 16 in a row within 1 µs synchronise, one beyond 10 µs ends it, and the clock is set by it (PRESUMED, log 51). -/
def takeOffset (origin received : Int) (p : Ptp) : Ptp :=
  let off := received + p.adjust - origin - p.pathDelay
  let inB := if off.natAbs ≤ 1000 then min 16 (p.inBounds + 1) else 0
  { p with
    inBounds := inB, t1 := origin, t2 := received, adjust := p.adjust - off
    synced := if off.natAbs > 10000 then false else p.synced || decide (inB ≥ 16) }

/-- Clock identity of the module, from the MAC address of port 0. -/
def clockIdent (s : State) : BitVec 64 := eui64 s.fuses.mac0 ^^^ (2 <<< 56)

/-- A Delay_Req leaves on a port, over UDP port 319 or, where the master's messages come so, over IEEE 802.3 transport (R323) (PRESUMED,
log 51). -/
def sendDelayReq (hp : Fin 2) (l2 : Bool) (s : State) : State :=
  let seq := s.host.ptp.reqSeq + 1
  emit (.ether hp (if l2 then 0x88F7 else 319) ([1, 2] ++ beBytes 2 44 ++ zeros 16 ++ beBytes 8 (clockIdent s).toNat ++ beBytes 2 (hp.val + 1) ++
    beBytes 2 seq.toNat ++ [1, 0x7F] ++ zeros 10)) (modPtp (fun p => { p with reqSeq := seq, reqAt := some (s.time / 2) }) s)

/-- An offset is measured on a port, and a delay request follows it. -/
def measure (fr : EthFrame) (origin received : Int) (s : State) : State :=
  sendDelayReq fr.port fr.l2 (modPtp (fun p => takeOffset origin received { p with twoStep := none }) s)

/-- A message in this frame comes from the master chosen. -/
def fromMaster (s : State) (fr : EthFrame) (ident : W64) : Bool :=
  ethTakes s fr true && decide (s.host.ptp.port = some fr.port) && (liveMaster s fr.port).any (fun m => decide (m.ident = ident))

/-! ### Rows -/

/-- HOST_LINK_UP: the port starts taking its addresses: the link-local address is tentative, and a DHCP request goes out with the
serial as client identifier (R321). Port 1 is held down by the strap ONEPORT (Table Reset-3). -/
def execHostLinkUp (hp : Fin 2) (s : State) : Host.Outcome State Fault Refusal :=
  let e := s.host.eth[hp.val]
  if e.up || unitHeld s (unitMac hp.val) || !s.rst.ondie || (decide (hp = 1) && s.rst.choice.getLsbD 0) then .next s
  else
    let s := modEth hp (fun e => { e with up := true, upAt := s.time, lldpAt := none, tentative := [addr6 linkLocal (macOf s hp)] }) s
    .next (emit (.ether hp 68 (beBytes 6 s.fuses.serial.toNat)) s)

/-- HOST_LINK_DOWN: the port loses its addresses and its use for PTP (R320, R321, R323). -/
def execHostLinkDown (hp : Fin 2) (s : State) : Host.Outcome State Fault Refusal :=
  let s := modEth hp (fun e => { e with up := false, lease := none, linkLocal4 := none, addrs6 := [], tentative := [], master := none }) s
  .next (choosePort s)

/-- DHCP_TIMEOUT: with no lease 10 s after link-up the port takes an IPv4 link-local address, drawn as RFC 3927 has it (R321). -/
def execDhcpTimeout (hp : Fin 2) (s : State) : Host.Outcome State Fault Refusal :=
  let e := s.host.eth[hp.val]
  if ethRuns s hp ∧ e.lease.isNone ∧ e.linkLocal4.isNone ∧ s.time ≥ e.upAt + 10000 * ms then
    let a : BitVec 32 := 0xA9FE_0100 + BitVec.ofNat 32 ((freeNow s).toNat % 0xFE00)
    .next (drawn (modEth hp (fun e => { e with linkLocal4 := some a }) s))
  else .next s

/-- DHCP_LEASE: the lease replaces a link-local address (R321) (PRESUMED, log 29). -/
def execDhcpLease (fr : EthFrame) (addr : BitVec 32) (s : State) : Host.Outcome State Fault Refusal :=
  if ethTakes s fr false then .next (modEth fr.port (fun e => { e with lease := some addr, linkLocal4 := none }) s) else .next s

/-- ARP_REQUEST: a request for the port's IPv4 address is answered (R320). -/
def execArpRequest (fr : EthFrame) (sender : BitVec 32) (senderMac : BitVec 48) (target : BitVec 32) (s : State) :
    Host.Outcome State Fault Refusal :=
  let hp := fr.port
  if ethTakes s fr false ∧ addr4 (s.host.eth[hp.val]) = some target then
    .next (emit (.ether hp 0x0806 (beBytes 2 1 ++ beBytes 2 0x0800 ++ [6, 4] ++ beBytes 2 2 ++ beBytes 6 (macOf s hp).toNat ++
      beBytes 4 target.toNat ++ beBytes 6 senderMac.toNat ++ beBytes 4 sender.toNat)) s)
  else .next s

/-- Body of a neighbour advertisement, its checksum left out (PRESUMED, log 29). -/
def advertBody (s : State) (hp : Fin 2) (target : BitVec 128) : List Byte :=
  [136, 0] ++ beBytes 16 target.toNat ++ [2, 1] ++ beBytes 6 (macOf s hp).toNat

/-- NEIGHBOR_DISCOVERY: a solicitation for one of the port's addresses is answered; a router's autonomous prefixes give tentative
global addresses (R321). -/
def execNeighborDiscovery (fr : EthFrame) (msg : NdMsg) (s : State) : Host.Outcome State Fault Refusal :=
  let hp := fr.port
  let e := s.host.eth[hp.val]
  if !ethTakes s fr true then .next s
  else match msg with
  | .solicitation _ target =>
    if e.addrs6.contains target then .next (emit (.ether hp 58 (advertBody s hp target)) s) else .next s
  | .advertisement prefixes =>
    let new := (prefixes.map (fun p => addr6 p (macOf s hp))).filter (fun a => !e.addrs6.contains a && !e.tentative.contains a)
    .next (modEth hp (fun e => { e with tentative := e.tentative ++ new.eraseDups }) s)

/-- DUPLICATE_ADDRESS_DETECTION: a tentative address is taken when nobody else has it (R321). -/
def execDuplicateAddressDetection (hp : Fin 2) (addr : BitVec 128) (unique : Bool) (s : State) : Host.Outcome State Fault Refusal :=
  let e := s.host.eth[hp.val]
  if ethRuns s hp ∧ e.tentative.contains addr then
    .next (modEth hp (fun e => { e with
      tentative := e.tentative.filter (fun a => !(a == addr)), addrs6 := if unique then e.addrs6 ++ [addr] else e.addrs6 }) s)
  else .next s

/-- ICMP_ECHO: an echo request to one of the port's addresses is answered with its body (R320, R322). -/
def execIcmpEcho (fr : EthFrame) (src : Peer) (dst : List Byte) (vlan : Option (BitVec 16)) (body : List Byte) (s : State) :
    Host.Outcome State Fault Refusal :=
  let hp := fr.port
  if ethTakes s fr false ∧ holdsAddr (s.host.eth[hp.val]) dst then
    let tag := match vlan with
      | some v => [0x81, 0x00] ++ beBytes 2 v.toNat
      | none => []
    .next (emit (.ether hp (if dst.length = 4 then 1 else 58) (tag ++ src.addr ++ [if dst.length = 4 then 0 else 129, 0] ++ body)) s)
  else .next s

/-- One LLDP TLV. -/
def tlv (type : Nat) (body : List Byte) : List Byte := beBytes 2 (512 * type + body.length) ++ body

/-- A hexadecimal digit in ASCII. -/
def hexDigit (n : Nat) : Byte := if n < 10 then BitVec.ofNat 8 (48 + n) else BitVec.ofNat 8 (55 + n)

/-- The serial as 12 hexadecimal digits. -/
def serialHex (s : State) : List Byte := (List.range 12).map (fun i => hexDigit (s.fuses.serial.toNat / 16 ^ (11 - i) % 16))

/-- The LLDPDU of a port (R324) (PRESUMED, log 29). -/
def lldpBytes (s : State) (hp : Fin 2) : List Byte :=
  tlv 1 (4 :: beBytes 6 s.fuses.mac0.toNat) ++ tlv 2 (3 :: beBytes 6 (macOf s hp).toNat) ++ tlv 3 (beBytes 2 120) ++
    tlv 5 ([0x49, 0x5A, 0x2D, 0x35, 0x31, 0x32, 0x30, 0x20] ++ serialHex s) ++ tlv 6 (orderNumber s) ++ tlv 0 []

/-- LLDP_SEND: every 30 s the port sends an LLDPDU (R324). -/
def execLldpSend (hp : Fin 2) (s : State) : Host.Outcome State Fault Refusal :=
  let due := match (s.host.eth[hp.val]).lldpAt with
    | some t => decide (s.time ≥ t + 30000 * ms)
    | none => true
  if ethRuns s hp && due then
    .next (emit (.ether hp 0x88CC (lldpBytes s hp)) (modEth hp (fun e => { e with lldpAt := some s.time }) s))
  else .next s

/-- LLDPDU: the chassis ID and port ID of the last one received are kept (R324). -/
def execLldpdu (fr : EthFrame) (chassis portId : List Byte) (s : State) : Host.Outcome State Fault Refusal :=
  let hp := fr.port
  if ethTakes s fr true then
    let id (l : List Byte) : Option (Byte × List Byte) := l.head?.map (fun t => (t, l.tail))
    .next (modEth hp (fun e => { e with chassis := id chassis, portId := id portId }) s)
  else .next s

/-- SYNC of the chosen master: a one-step Sync gives an offset, a two-step one waits for its Follow_Up (R323). -/
def execSync (fr : EthFrame) (seq : BitVec 16) (twoStep : Bool) (origin received : Nat) (correction : Int) (ident : W64) (s : State) :
    Host.Outcome State Fault Refusal :=
  let s := choosePort s
  if fromMaster s fr ident then
    let rx : Int := received - correction
    let s := modPtp (fun p => { p with lastSync := s.time }) s
    .next (if twoStep then modPtp (fun p => { p with twoStep := some (seq, rx) }) s else measure fr origin rx s)
  else .next s

/-- FOLLOW_UP: the origin time of the Sync that waits for it (R323). -/
def execFollowUp (fr : EthFrame) (seq : BitVec 16) (origin : Nat) (correction : Int) (ident : W64) (s : State) :
    Host.Outcome State Fault Refusal :=
  let s := choosePort s
  match s.host.ptp.twoStep with
  | some (q, rx) => if fromMaster s fr ident ∧ q = seq then .next (measure fr origin (rx - correction) s) else .next s
  | none => .next s

/-- DELAY_RESP: a delay request and its response give the path delay (R323). -/
def execDelayResp (fr : EthFrame) (seq : BitVec 16) (received : Nat) (correction : Int) (ident : W64) (s : State) :
    Host.Outcome State Fault Refusal :=
  let s := choosePort s
  match s.host.ptp.reqAt with
  | some sent =>
    if fromMaster s fr ident ∧ s.host.ptp.reqSeq = seq then
      .next (modPtp (fun p => { p with
        reqAt := none, pathDelay := ((p.t2 - sent) + ((received : Int) - correction - p.t1)) / 2 }) s)
    else .next s
  | none => .next s

/-- ANNOUNCE: the best master clock algorithm chooses the port and master. A port keeps the best master that it has heard and that still
announces itself; one it has chosen may change its own data set (R323) (PRESUMED, log 51). -/
def execAnnounce (fr : EthFrame) (master : PtpMaster) (s : State) : Host.Outcome State Fault Refusal :=
  let keep := (liveMaster s fr.port).any (fun m => decide (m.ident ≠ master.ident) && !betterRank master.rank m.rank)
  if ethTakes s fr true && !keep then
    .next (choosePort (modEth fr.port (fun e => { e with master := some master, masterAt := s.time }) s))
  else .next (choosePort s)

/-- PTP_SYNC_LOSS: 4 Sync intervals with no Sync end the synchronised state (R323) (PRESUMED, log 51). -/
def execPtpSyncLoss (s : State) : Host.Outcome State Fault Refusal :=
  if s.host.ptp.synced ∧ s.time ≥ s.host.ptp.lastSync + 4 * s.host.ptp.interval then
    .next (modPtp (fun p => { p with synced := false, inBounds := 0 }) s)
  else .next s

end Sys2Proof.Machine
end

