-- ==== Sys2Proof/Machine/Lines.lean ====
section
/-! DEFINITION. What the line of a lane carries: PAM4 levels, 130-bit blocks, the superframe, lane cells, scrambling, RS(544,514)
and its decoder (09_lanes.md R217 to R224, R226). All of it is a function of what is sent or received. -/

namespace Sys2Proof.Machine

/-! ### Levels and blocks (R217, R218) -/

/-- Level of a pair of bits; the first bit selects the outer half of the eye (R217). -/
def levelOf : Bool → Bool → Level
  | false, false => .m3
  | false, true => .m1
  | true, true => .p1
  | true, false => .p3

/-- The pair of bits of a level. -/
def bitsOfLevel : Level → List Bool
  | .m3 => [false, false]
  | .m1 => [false, true]
  | .p1 => [true, true]
  | .p3 => [true, false]

/-- The level under inverted polarity (TX_INV, RX_INV). -/
def flipLevel : Level → Level
  | .m3 => .p3
  | .m1 => .p1
  | .p1 => .m1
  | .p3 => .m3

/-- A level as a lane with or without inversion drives or reads it. -/
def polar (inv : Bool) (v : Level) : Level := if inv then flipLevel v else v

/-- Bits in line order as levels. -/
def levels : List Bool → List Level
  | a :: b :: r => levelOf a b :: levels r
  | _ => []

/-- A block: bit i is the i-th bit on the line, the sync header in bits 0 and 1 and the body above it (R218). -/
abbrev Block := BitVec 130

def block (h : BitVec 2) (body : BitVec 128) : Block := body ++ h
def blockHead (b : Block) : BitVec 2 := b.setWidth 2
def blockBody (b : Block) : BitVec 128 := (b >>> 2).setWidth 128

/-- Sync headers of FEC blocks and of marker, train and fill blocks (R218). -/
def headFec : BitVec 2 := 0b01
def headMark : BitVec 2 := 0b10
def headValid (h : BitVec 2) : Bool := h == headFec || h == headMark

/-- Bits of a word from bit 0 up, and the value of bits from bit 0 up. -/
def bitsOf {n : Nat} (w : BitVec n) : List Bool := (List.range n).map w.getLsbD
def valOf (l : List Bool) : Nat := l.foldr (fun b a => 2 * a + b.toNat) 0

/-- A block is 65 symbols (R218). -/
def blockLine (inv : Bool) (b : Block) : List Level := (levels (bitsOf b)).map (polar inv)
def lineBlocks (inv : Bool) (n : Nat) (line : List Level) : List Block :=
  (pieces 130 n (line.flatMap (fun v => bitsOfLevel (polar inv v)))).map (fun b => BitVec.ofNat 130 (valOf b))

/-- The sync header that one symbol carries. -/
def headOfLevel (inv : Bool) (v : Level) : BitVec 2 := BitVec.ofNat 2 (valOf (bitsOfLevel (polar inv v)))

/-- A 128-bit body from 64 symbols. -/
def bodyOfLine (inv : Bool) (line : List Level) : BitVec 128 :=
  BitVec.ofNat 128 (valOf ((line.take 64).flatMap (fun v => bitsOfLevel (polar inv v))))

/-! ### Markers (R223) -/

def markC : W64 := 0x3C5A96E10FB4D287
def mark0 : BitVec 128 := ~~~markC ++ markC
def mark1 : BitVec 128 := markC ++ ~~~markC

/-- Bits in which two bodies differ. -/
def distance (a b : BitVec 128) : Nat := (bitsOf (a ^^^ b)).countP id

/-- Bytes of an info word in the order of its CRC. -/
def infoCrcBytes (w : BitVec 128) : List Byte := (List.range 15).map (fun i => (w >>> (120 - 8 * i)).setWidth 8)

/-- An info word with its CRC (Table Lanes-2). -/
def infoWord (fill idleNext : Bool) (rxGood active : Byte) (llane : BitVec 3) (sfc : BitVec 16) : BitVec 128 :=
  let w : BitVec 128 := (0 : BitVec 83) ++ BitVec.ofBool fill ++ BitVec.ofBool idleNext ++ rxGood ++ active ++ llane ++ sfc ++ (0 : Byte)
  w ||| (crc8 (infoCrcBytes w)).setWidth 128

/-- Bitwise majority of five words (R224). -/
def majority (ws : List (BitVec 128)) : BitVec 128 :=
  (List.range 128).foldl (fun v i => if ws.countP (fun w => w.getLsbD i) ≥ 3 then v ||| BitVec.ofNat 128 (1 <<< i) else v) 0

/-- An info word as taken from M2 to M6; none where its CRC fails (R224). -/
def infoOf (ws : List (BitVec 128)) : Option (BitVec 128) :=
  let w := majority ws
  if crc8 (infoCrcBytes w) = w.setWidth 8 then some w else none

def infoFill (w : BitVec 128) : Bool := w.getLsbD 44
def infoIdleNext (w : BitVec 128) : Bool := w.getLsbD 43
def infoRxGood (w : BitVec 128) : Byte := (w >>> 35).setWidth 8
def infoActive (w : BitVec 128) : Byte := (w >>> 27).setWidth 8
def infoLlane (w : BitVec 128) : BitVec 3 := (w >>> 24).setWidth 3
def infoSfc (w : BitVec 128) : BitVec 16 := (w >>> 8).setWidth 16

/-! ### Lane cells and scrambling (R220, R221) -/

/-- Cell j of a message is a lane cell (R220). -/
def isLaneCell (j : Nat) : Bool := j % 21 == 20

/-- The message cell of a data slot (R220). -/
def cellOfSlot (d : Nat) : Nat := d + d / 20

/-- The next bits of x^31 + x^28 + 1; bit 0 of the state is the last bit given (PRESUMED, log 81). -/
def prbsBits : Nat → BitVec 31 → List Bool × BitVec 31
  | 0, b => ([], b)
  | n + 1, b =>
    let v := Bool.xor (b.getLsbD 30) (b.getLsbD 27)
    let r := prbsBits n ((b <<< 1) ||| (BitVec.ofBool v).setWidth 31)
    (v :: r.1, r.2)

/-- Bytes of bits, each from its least significant bit up (R221). -/
def packBits (n : Nat) (l : List Bool) : List Byte := (pieces 8 n l).map (fun b => BitVec.ofNat 8 (valOf b))

/-- The next PRBS31 cell. -/
def prbsCell (b : BitVec 31) : List Byte × BitVec 31 :=
  let r := prbsBits 512 b
  (packBits 64 r.1, r.2)

/-- The state of the generator after a cell that carries its sequence. -/
def prbsAfter (cell : List Byte) : BitVec 31 := BitVec.ofNat 31 (valOf ((cell.flatMap bitsOf).reverse.take 31))

/-- The cells of a superframe's message from cell j on: lane cells, and every cell under FILL, carry the sequence; the others the data
cells (R220, Table Lanes-2). -/
def messageCells (fill : Bool) : (n j : Nat) → List (List Byte) → BitVec 31 → List (List Byte) × BitVec 31
  | 0, _, _, b => ([], b)
  | n + 1, j, data, b =>
    if fill || isLaneCell j then
      let c := prbsCell b
      let r := messageCells fill n (j + 1) data c.2
      (c.1 :: r.1, r.2)
    else
      let r := messageCells fill n (j + 1) (data.drop 1) b
      (data.headD [] :: r.1, r.2)

/-- The scrambler's seed (R221). -/
def scrambleSeed (llane : BitVec 3) (sfc : BitVec 16) : BitVec 58 := 1#1 ++ (0 : BitVec 38) ++ llane ++ sfc

/-- Key bits of x^58 + x^39 + 1; bit 0 of the state is the last bit given (PRESUMED, log 81). -/
def keyBits : Nat → BitVec 58 → List Bool
  | 0, _ => []
  | n + 1, b =>
    let v := Bool.xor (b.getLsbD 57) (b.getLsbD 38)
    v :: keyBits n ((b <<< 1) ||| (BitVec.ofBool v).setWidth 58)

/-- Message bits scrambled or descrambled (R221). -/
def scramble (llane : BitVec 3) (sfc : BitVec 16) (l : List Bool) : List Bool :=
  List.zipWith Bool.xor l (keyBits l.length (scrambleSeed llane sfc))

/-! ### RS(544,514) over GF(2^10) (R222) (PRESUMED, log 81) -/

/-- A symbol. -/
abbrev Sym := BitVec 10

/-- Multiply by α in the field of x^10 + x^3 + 1. -/
def gfTwice (a : Sym) : Sym := if a.getLsbD 9 then (a <<< 1) ^^^ 9 else a <<< 1
def gfMul (a b : Sym) : Sym :=
  (List.range 10).foldl (fun v i => (gfTwice v) ^^^ (if b.getLsbD (9 - i) then a else 0)) 0
/-- α^n, whose order is 1,023. -/
def gfExp (n : Nat) : Sym := (List.range (n % 1023)).foldl (fun v _ => gfTwice v) 1
/-- The inverse a^1022: the square of a, a^3, a^7, … a^511. -/
def gfInv (a : Sym) : Sym := (List.range 9).foldl (fun v _ => let w := gfMul v a; gfMul w w) 1

/-- Product of a polynomial, highest power first, and x − r. -/
def polyRoot (g : List Sym) (r : Sym) : List Sym := List.zipWith (· ^^^ ·) (g ++ [0]) (0 :: g.map (gfMul r))

/-- The generator: roots α^0 to α^29, highest power first. -/
def rsGenerator : List Sym := (List.range 30).foldl (fun g i => polyRoot g (gfExp i)) [1]

/-- The 30 parity symbols of a message, sent after it. -/
def rsParity (msg : List Sym) : List Sym :=
  let g := rsGenerator.drop 1
  msg.foldl (fun p m =>
    let q := m ^^^ p.headD 0
    List.zipWith (fun a b => a ^^^ gfMul q b) (p.drop 1 ++ [0]) g) (List.replicate 30 0)

/-- Value of a polynomial, highest power first. -/
def polyAt (c : List Sym) (x : Sym) : Sym := c.foldl (fun v a => gfMul v x ^^^ a) 0

/-- The 30 syndromes of a received codeword. -/
def syndromes (c : List Sym) : List Sym := (List.range 30).map (fun j => polyAt c (gfExp j))

/-- Sum of two polynomials, lowest power first. -/
def polyAdd : List Sym → List Sym → List Sym
  | [], b => b
  | a, [] => a
  | x :: a, y :: b => (x ^^^ y) :: polyAdd a b

/-- The error locator, lowest power first, and its length, after n syndromes (Berlekamp and Massey). -/
structure Locator where
  c : List Sym := [1]
  b : List Sym := [1]
  len : Nat := 0
  m : Nat := 1
  last : Sym := 1
  deriving DecidableEq, Repr

def locateStep (syn : List Sym) (x : Locator) (n : Nat) : Locator :=
  let d := (List.range (x.len + 1)).foldl (fun v i => v ^^^ gfMul (x.c.getD i 0) (syn.getD (n - i) 0)) 0
  if d = 0 then { x with m := x.m + 1 }
  else
    let k := gfMul d (gfInv x.last)
    let c := polyAdd x.c (List.replicate x.m 0 ++ x.b.map (gfMul k))
    if 2 * x.len ≤ n then { c := c, b := x.c, len := n + 1 - x.len, m := 1, last := d }
    else { x with c := c, m := x.m + 1 }

def locator (syn : List Sym) : Locator := (List.range 30).foldl (locateStep syn) {}

/-- The value to add to the symbol of power e: 0 where the locator does not name it (Chien, Forney). -/
def errorAt (syn : List Sym) (loc : Locator) (e : Nat) : Sym :=
  let x := gfExp e
  let y := gfInv x
  if polyAt loc.c.reverse y ≠ 0 then 0
  else
    let omega := (List.range 30).map (fun n => (List.range (n + 1)).foldl (fun v i => v ^^^ gfMul (loc.c.getD i 0) (syn.getD (n - i) 0)) 0)
    let slope := (List.range loc.c.length).map (fun i => if i % 2 = 0 then loc.c.getD (i + 1) 0 else 0)
    gfMul x (gfMul (polyAt omega.reverse y) (gfInv (polyAt slope.reverse y)))

/-- Decode a codeword: the codeword within 15 symbols and how many were corrected; none where it is uncorrectable (R226). -/
def rsDecode (c : List Sym) : Option (List Sym × Nat) :=
  let syn := syndromes c
  if syn.all (· == 0) then some (c, 0)
  else
    let loc := locator syn
    if loc.len > 15 then none
    else
      let errs := (List.range 544).map (fun i => errorAt syn loc (543 - i))
      let d := List.zipWith (· ^^^ ·) c errs
      if (syndromes d).all (· == 0) && decide (errs.countP (· != 0) ≤ 15) then some (d, errs.countP (· != 0)) else none

/-! ### Superframes (R219, R222) -/

/-- Two lists in turn. -/
def alternate {α : Type} : List α → List α → List α
  | a :: r, b :: t => a :: b :: alternate r t
  | _, _ => []

def symsOf (n : Nat) (l : List Bool) : List Sym := (pieces 10 n l).map (fun b => BitVec.ofNat 10 (valOf b))

/-- The line bits of one pair of codewords of 10,280 message bits (R222). -/
def pairBits (l : List Bool) : List Bool :=
  let a := symsOf 514 l
  let b := symsOf 514 (l.drop 5140)
  (alternate (a ++ rsParity a) (b ++ rsParity b)).flatMap bitsOf

/-- The 1,452 blocks of a superframe of message cells (Table Lanes-1, R219 to R223). -/
def superframeBlocks (info : BitVec 128) (cells : List (List Byte)) : List Block :=
  let bits := scramble (infoLlane info) (infoSfc info) ((cells.flatten ++ List.replicate 21 0).flatMap bitsOf)
  [mark0, mark1, info, info, info, info, info].map (block headMark) ++
    (pieces 10280 17 bits).flatMap (fun l => (pieces 128 85 (pairBits l)).map (fun b => block headFec (BitVec.ofNat 128 (valOf b))))

/-- The wake burst, −3 and +3 in turn on 7,260 symbols, and a train block (R236, Table Lanes-6). -/
def wakeBurst : List Level := (List.range 7260).map (fun i => if i % 2 = 0 then .m3 else .p3)
def trainBlock : Block := block headMark (BitVec.ofNat 128 0x1E1E1E1E1E1E1E1E1E1E1E1E1E1E1E1E)

/-- A codeword pair as received: A, then B, 544 symbols each. -/
def pairWords (bodies : List (BitVec 128)) : List (List Sym) :=
  let syms := symsOf 1088 (bodies.flatMap bitsOf)
  let turn := syms.zipIdx
  [turn.filterMap (fun x => if x.2 % 2 = 0 then some x.1 else none), turn.filterMap (fun x => if x.2 % 2 = 1 then some x.1 else none)]

/-- What a receiver makes of one superframe of a lane: distances of M0 and M1, the info word, the 34 codewords in order, and the
message bits, still scrambled, of which those of an uncorrectable codeword are as received. -/
structure LineFrame where
  m0    : Nat
  m1    : Nat
  info  : Option (BitVec 128)
  words : List (Option Nat)
  bits  : List Bool
  deriving DecidableEq, Repr

/-- Read a superframe of 1,452 blocks from the line (R222, R224, R226). -/
def readLine (inv : Bool) (line : List Level) : LineFrame :=
  let bodies := (lineBlocks inv 1452 line).map blockBody
  let raw := (pieces 85 17 (bodies.drop 7)).flatMap pairWords
  let dec := raw.map (fun w => (w, rsDecode w))
  { m0 := distance (bodies.getD 0 0) mark0
    m1 := distance (bodies.getD 1 0) mark1
    info := infoOf ((bodies.drop 2).take 5)
    words := dec.map (fun d => d.2.map (·.2))
    bits := dec.flatMap (fun d => ((match d.2 with | some r => r.1 | none => d.1).take 514).flatMap bitsOf) }

/-- Cell j of a message has a byte in an uncorrectable codeword; codeword k carries message bits 5,140·k to 5,140·k + 5,139. -/
def cellLost (words : List (Option Nat)) (j : Nat) : Bool :=
  words.zipIdx.any (fun x => x.1.isNone && decide (512 * j < 5140 * x.2 + 5140) && decide (5140 * x.2 < 512 * j + 512))

/-- The 341 cells of a received message. -/
def frameCells (f : LineFrame) (llane : BitVec 3) (sfc : BitVec 16) : List (List Byte) :=
  pieces 64 341 (packBits 21845 (scramble llane sfc f.bits))

/-- The 325 data cells of a received superframe, with LOST where a codeword was uncorrectable (R226). -/
def frameData (f : LineFrame) (cells : List (List Byte)) : List RxCell :=
  (List.range 325).map (fun d => if cellLost f.words (cellOfSlot d) then none else some (cells.getD (cellOfSlot d) []))

/-- Lane-cell bits that differ from the sequence, and the generator's state after it. The first cell that carries the sequence, and is
not lost, sets the state where the receiver has none yet (R226) (DESIGN CHOICE, log 92). -/
def checkPattern (f : LineFrame) (fill : Bool) : (j : Nat) → List (List Byte) → Option (BitVec 31) → Nat × Option (BitVec 31)
  | _, [], b => (0, b)
  | j, c :: r, b =>
    if !(fill || isLaneCell j) then checkPattern f fill (j + 1) r b
    else match b with
      | none => checkPattern f fill (j + 1) r (if cellLost f.words j then none else some (prbsAfter c))
      | some b =>
        let e := prbsCell b
        let n := checkPattern f fill (j + 1) r (some e.2)
        let bad := if isLaneCell j && !cellLost f.words j then
          (List.zipWith (fun a d => (bitsOf (a ^^^ d)).countP id) c e.1).foldl (· + ·) 0 else 0
        (bad + n.1, n.2)

end Sys2Proof.Machine
end

