-- ==== Sys2Proof/Machine/Routes.lean ====
section
/-! DEFINITION. Breadth-first search over the live torus modules and the route entries it gives (12_topology_and_recovery.md
R312). -/

namespace Sys2Proof.Machine

/-- Is torus module n in the live set (R308)? -/
def liveModule (s : State) (p : Plan) (n : Nat) : Bool := match p.torus[n]? with
  | some e => s.topo.live.contains e.2
  | none => false

/-- The torus directions of a plan, in the order of R312. -/
def planDirs (p : Plan) : List Nat := if p.rolemap = 0 then [0x10, 0x11, 0x12, 0x13, 0x14, 0x15] else [0x10, 0x11, 0x12, 0x13]

/-- One level of the search: modules next to one at distance k are at k + 1. -/
def bfsLevel (p : Plan) (live : Nat → Bool) (k : Nat) (d : Array (Option Nat)) : Array (Option Nat) :=
  ((List.range (nmod p)).map (fun n =>
    match d.getD n none with
    | some x => some x
    | none =>
      if live n && (planDirs p).any (fun r => d.getD (neighbour p n r) none == some k) then some (k + 1) else none)).toArray

/-- Hop counts from a module over live modules; none where it cannot be reached. -/
def bfs (p : Plan) (live : Nat → Bool) (src : Nat) : Array (Option Nat) :=
  (List.range (nmod p)).foldl (fun d k => bfsLevel p live k d)
    ((List.range (nmod p)).map (fun n => if n = src then some 0 else none)).toArray

/-- Bit mask of a port group. -/
def groupMask (g : Nat × Nat) : W64 := BitVec.ofNat 64 ((2 ^ g.2 - 1) <<< g.1)

/-- Route entries of this module n for every destination, from the hop counts of its neighbours (R312). -/
def routesFrom (p : Plan) (live : Nat → Bool) (n : Nat) : Vector RouteEntry 512 :=
  let own := bfs p live n
  let dirs := (planDirs p).filterMap (fun r => match dirGroup p.rolemap r with
    | some g => let m := neighbour p n r
                if live m then some (g, bfs p live m) else none
    | none => none)
  Vector.ofFn (fun d : Fin 512 =>
    match own.getD d.val none with
    | none => {}
    | some k =>
      if d.val = n ∨ !live d.val then {}
      else
        let near := dirs.filter (fun x => match x.2.getD d.val none with
          | some j => decide (j + 1 = k)
          | none => false)
        match near with
        | [] => {}
        | x :: _ => { valid := true, static := BitVec.ofNat 6 (x.1.1 + d.val % x.1.2)
                      spray := near.foldl (fun m y => m ||| groupMask y.1) 0 })

/-- STATIC port of this module toward module d. -/
def staticToward (s : State) (d : Nat) : Option Port :=
  match s.topo.plan, ownNumber s with
  | some p, some n =>
    let e := (routesFrom p (liveModule s p) n)[d % 512]
    if d < 512 ∧ e.valid then some (Fin.ofNat 64 e.static.toNat) else none
  | _, _ => none

/-- A route entry as a write of SWC_RT_STATIC, and one of SWC_RT_SPRAY, leaves it (R276). -/
def withStatic (v : W64) (e : RouteEntry) : RouteEntry := { e with valid := v.getLsbD 63, static := v.setWidth 6 }
def withSpray (v : W64) (e : RouteEntry) : RouteEntry := { e with spray := v }

/-- Entry d after a hardware update, with the writes of this arena cycle applied after it (R14). -/
def keepRouteWrites (s : State) (d : Nat) (e : RouteEntry) : RouteEntry :=
  let e := (lastWrite s .swcRtStatic d).elim e (fun v => withStatic v e)
  (lastWrite s .swcRtSpray d).elim e (fun v => withSpray v e)

/-- Replace every route entry; the port last chosen for a destination is kept (R276, R278). -/
def setRoutes (r : Vector RouteEntry 512) (s : State) : State :=
  { s with swc := { s.swc with routes := Vector.ofFn (fun d =>
      keepRouteWrites s d.val { r[d.val] with last := (s.swc.routes[d.val]).last }) } }

/-- Placement writes the route entries and penalties (R276, R312); a torus module only. -/
def writeRoutes (s : State) : State :=
  match s.topo.plan, ownNumber s with
  | some p, some n =>
    let s := setRoutes (routesFrom p (liveModule s p) n) s
    routeHeld { s with swc := { s.swc with penalty := Vector.ofFn (fun i =>
      ((lastWrite s .swcAdapt i.val).map (fun v => BitVec.ofNat 16 (fld v 63 48))).getD (p.penalty.getD i.val 0)) } }
  | _, _ => s

/-- No route: VALID = 0 and an empty SPRAY mask in every entry (R300). -/
def clearRoutes (s : State) : State := setRoutes (Vector.replicate 512 ({} : RouteEntry)) s

end Sys2Proof.Machine
end

