-- ==== Sys2Proof/Machine/LinkOps.lean ====
section
/-! DEFINITION. Shared operations of the links: receiving, acknowledging, replaying, admission and going DOWN
(10_izano_link.md R243 to R256, 12_topology_and_recovery.md R305 to R309). -/

namespace Sys2Proof.Machine

def srcBufUncorr : SrcId := 0x06

/-! ### Places in the states of Table Link-3 -/

/-- From the entry to ROLLCALL on: the states in which data frames are judged (R256). -/
def linkLive (l : LinkPort) : Bool := match l.state with
  | .rollcall | .offBook | .opened => true
  | .down | .hello | .noversion => false

/-- Both directions of the port are up (R234). -/
def portUp (s : State) (p : Port) : Bool := (s.lane.ports[p.val]).txActive != 0 && (s.lane.ports[p.val]).rxActive != 0

/-- The transmit direction can carry cells now: up, and neither idle nor in idle exit. -/
def txReady (s : State) (p : Port) : Bool := (s.lane.ports[p.val]).txActive != 0 && !(s.lane.ports[p.val]).txIdle

/-- REPLAY_TO in ticks, REPLAY_LIMIT and IDLE_DELAY in ticks (Table Link-13). -/
def replayTo (l : LinkPort) : Nat := 64 * max 1 (fld l.ctrl 15 4)
def replayLimit (l : LinkPort) : Nat := max 1 (fld l.ctrl 3 1)
def idleDelay (l : LinkPort) : Nat := 64 * fld l.ctrl 31 16

/-- Cells unacknowledged on a port. -/
def retryCells (l : LinkPort) : Nat := l.unacked.foldl (fun a u => a + pkCells u.packet) 0

/-- Restart the replay timer; while it is paused it starts when the pause ends (R248). -/
def restartTimer (t : Nat) (l : LinkPort) : LinkPort := { l with timerAt := t, pausedAt := l.pausedAt.map (fun _ => t) }

/-- The receive direction goes idle, or has come back: the replay timer is paused meanwhile (R248). -/
def pauseTimer (p : Port) (s : State) : State := modLink p (fun l => { l with pausedAt := some (l.pausedAt.getD s.time) }) s
def resumeTimer (p : Port) (s : State) : State := modLink p (fun l => match l.pausedAt with
  | some t => { l with pausedAt := none, timerAt := l.timerAt + (s.time - t) }
  | none => l) s

/-- Code of a link state (Table Link-3). -/
def linkCode : LinkSt → Nat
  | .down => 0 | .hello => 1 | .noversion => 2 | .rollcall => 3 | .offBook => 4 | .opened => 5

/-- The LINK event: a link has changed state, or its peer fails R305 (Table Host-12). -/
def linkEvent (p : Port) (mismatch : Bool) (s : State) : State :=
  hostEvent 0x08 (leBytes 1 p.val ++ leBytes 1 (linkCode (s.link[p.val]).state) ++ [if mismatch then 1 else 0] ++ zeros 5) s

/-- A link takes a state. -/
def setLink (p : Port) (st : LinkSt) (mismatch : Bool) (s : State) : State :=
  linkEvent p mismatch (modLink p (fun l => { l with state := st }) s)

/-! ### Sending again what a lost link held (R74, R151, R183, R249) -/

/-- The call partial of a context that has sent one up and holds no result. -/
def resendCall (p : Port) (s : State) (x : CallCtx) : State :=
  match cueWord s x.cue with
  | some w => match treeHead s w with
    | some h =>
      if x.sentUp ∧ x.result.isNone ∧ !h.root ∧ h.parent.toNat = p.val then
        let curtain := decide (cKind w = cCurtain)
        sendOn (callPort x.cue) p
          { callPacket x.cue h.pslot.toNat 1 curtain (!curtain) (BitVec.ofNat 32 x.step) (cCount w)
            ((callCombine w false x).map (·.v)) 0xFFFF (srcAddr s) with resend := true } s
      else s
    | none => s
  | none => s

/-- A partial that the parent on this port has not accepted, or a forward of the partner reached by it. -/
def resendSlot (p : Port) (s : State) (x : Slot) : State :=
  match sheetHead s x.head with
  | some sh =>
    let s := if !sh.root ∧ x.sentUp ∧ !x.accepted ∧ sh.parent.toNat = p.val then
        sendOn (harnPort sh.hid) p { slotPartial sh x sh.pslot.toNat (srcAddr s) with resend := true } s
      else s
    if x.forwarded ∧ !x.fwdAccepted ∧ (shardOf s sh.hid).any (fun r => decide (r.uport = p.val)) then
      sendForward x.head x.seg true s
    else s
  | none => s

/-- The header and the copies of a seeding that its understudy, reached by this port, has not acknowledged (R154). -/
def resendSeed (p : Port) (s : State) (q : SeedOut) : State := match shardOf s q.hid with
  | some r => if r.uport = p.val then q.kept.foldl (fun s k => sendPartner (groomPort r.hid) r true k.2 s) s else s
  | none => s

/-- What this module keeps for the peer of a port and has not seen accepted is sent again (DEDUCED, log 55). -/
def resendPort (p : Port) (s : State) : State :=
  let s := s.harn.slots.foldl (resendSlot p) s
  let s := s.grm.seedQueue.foldl (resendSeed p) s
  s.callb.ctxs.foldl (resendCall p) s

/-- Send the result or release of one context again on a port. -/
def resendResult (p : Port) (s : State) (x : CallCtx) : State := match x.result, cueWord s x.cue with
  | some r, some w =>
    if x.sentDown ∧ (callExpected s w).getLsbD p.val then
      let curtain := decide (cKind w = cCurtain)
      sendOn (callPort x.cue) p
        { callPacket x.cue p.val 2 curtain (!curtain) (BitVec.ofNat 32 x.step) (cCount w) r 0xFFFF (srcAddr s) with resend := true } s
    else s
  | _, _ => s

/-- Results and releases that went to a port, sent again when it comes back (R183) (DEDUCED, log 55). -/
def resendResults (p : Port) (s : State) : State := s.callb.ctxs.foldl (resendResult p) s

/-- A link-local frame that a local unit originated is a CALL result or release, which the module sends again (R183). -/
def isResult (pk : Packet) : Bool := pk.kind == kCall && decide (callRole pk.bytes = 2)

/-- A frame that a link going DOWN gives back: a link-local frame is discarded, a routed one is routed again (R249). A copy of
an MCAST for an accelerator with neither attachment OPEN is discarded (R282). -/
def giveBack (p : Port) (buf : Nat) (input : SwPort) (arrival : Option Port) (pk : Packet) (s : State) : State :=
  if pk.dest = 0xFFFF then
    let s := copyLeaves buf s
    if isResult pk ∧ arrival = none then sendAgain input p pk s else s
  else
    let own := (ownNumber s).any (fun n => decide (pk.dest.toNat / 128 = n))
    let other := (otherPort s p).any (isOpen s)
    if pk.kind = kMcast ∧ own ∧ pk.dest.toNat % 128 < 64 ∧ !other then swcSticky bMcastLost (copyLeaves buf s)
    else placeFrame buf input arrival none pk s

/-- Give back a frame of the retry share. -/
def giveBackUnacked (p : Port) (s : State) (u : Unacked) : State :=
  giveBack p u.buf u.input u.arrival u.packet (copyReturns u.buf s)
def giveBackQueued (p : Port) (s : State) (q : Queued) : State := giveBack p q.buf q.input q.arrival q.packet s

/-- Frames waiting for local room that were meant for the port. -/
def giveBackWaiting (p : Port) (s : State) : State :=
  let mine (w : LocalWait) : Bool := w.ports.contains p && w.packet.dest == 0xFFFF && decide (w.packet.kind ≠ kMcast)
  let lost := s.swc.localWait.filter mine
  let keep := s.swc.localWait.map (fun w => if mine w then { w with ports := w.ports.filter (fun q => !decide (q = p)) } else w)
  let s := { s with swc := { s.swc with localWait := keep.filter (fun w => decide (copiesOf w ≠ 0)) } }
  lost.foldl (fun s w => if isResult w.packet then sendAgain w.input p w.packet s else s) s

/-- A link goes DOWN, and its cells that no superframe has carried yet are gone (R249, R251). `exhausted`: by RETRY_EXHAUSTED (DEDUCED,
log 55). -/
def linkDown (p : Port) (exhausted : Bool) (s : State) : State :=
  let l := s.link[p.val]
  if l.state = .down then s
  else
    let wasOpen := decide (l.state = .opened)
    let o := fabric p
    let bits : BitVec 8 := (if wasOpen then 1 else 0) ||| (if exhausted then 4 else 0)
    let s := modLink p (fun l => { l with
      state := .down, verMajor := 0, verMinor := 0, unacked := [], lastFreed := none, lastNak := none, nak := false, owed := false
      resync := false, hostAdmit := false, rollOwed := false, pausedAt := none }) s
    let s := modLanePort p (fun y => { y with txCells := [] }) s
    let s := linkSticky p bits s
    let s := linkEvent p false s
    let queued := s.swc.queued.filter (fun q => decide (q.output = o))
    let transit := s.swc.transit.filter (fun t => decide (t.output = o))
    let held := (s.swc.reorder.filter (fun c => decide (c.port = p))).flatMap (fun c => c.held.map (fun h => h.2.2))
    let s := { s with swc := { s.swc with
      queued := s.swc.queued.filter (fun q => !decide (q.output = o))
      transit := s.swc.transit.filter (fun t => !decide (t.output = o))
      reorder := s.swc.reorder.map (fun c => if c.port = p then { c with held := [] } else c)
      bufs := s.swc.bufs.map (fun b => if b.holds.any (fun h => decide (h.1 = p)) then { b with holds := none } else b) } }
    let s := l.unacked.foldl (giveBackUnacked p) s
    let s := queued.foldl (giveBackQueued p) s
    let s := held.foldl (giveBackQueued p) s
    let s := transit.foldl (fun s t => giveBack p t.buf t.input t.arrival t.packet s) s
    let s := resendPort p (giveBackWaiting p s)
    if wasOpen || exhausted then
      raise { src := srcLink, index := BitVec.ofNat 4 (p.val / 8), sticky := ((s.link[p.val]).sticky).setWidth 64 } s
    else s

/-! ### Admission (R305 to R308) -/

/-- An admitted link opens: route entries are written, held frames routed again, and what the peer still needs is sent (R249,
R276, R281). Entries are written only once a PLACE has given the plan's placement (DESIGN CHOICE, log 106). -/
def openLink (p : Port) (mismatch : Bool) (s : State) : State :=
  let s := setLink p .opened mismatch (modLink p (fun l => { l with hostOnly := mismatch }) s)
  let s := if isTorus (portRole s p) && s.topo.placed then writeRoutes s else s
  let s := routeHeld s
  let role := portRole s p
  if role = roleUp ∨ role = roleSpineDown ∨ role = roleSpineUp then resendResults p (resendPort p s) else s

/-- Judge the neighbour of a port in OFF_BOOK or OPEN (R305, R306). -/
def judge (p : Port) (s : State) : State :=
  let l := s.link[p.val]
  match l.peerRoll with
  | none => s
  | some r =>
    let fits := peerMatches s p r
    if l.state = .offBook ∧ (fits || l.hostAdmit) then
      openLink p (!fits) s
    else if l.state = .opened ∧ !(fits || l.hostAdmit) then setLink p .offBook true s
    else if l.state = .offBook then linkEvent p true s
    else if l.state = .opened then modLink p (fun l => { l with hostOnly := !fits }) s
    else s

/-- Judge every port again. -/
def judgeAll (s : State) : State := (List.finRange 64).foldl (fun s p => judge p s) s

/-! ### Control cells -/

/-- A LINK cell becomes owed (R246). -/
def oweLink (l : LinkPort) : LinkPort := { l with owed := true, linkLast := false }

/-- An error of the receiver: the first since the last accepted frame starts a NAK episode (R246). -/
def rxError (p : Port) : State → State :=
  modLink p (fun l => if l.state ≠ .down ∧ !l.nak then oweLink { l with nak := true, naks := satAdd 0xFFFF l.naks 1 } else l)

/-- Drop a frame of the retry share. -/
def dropUnacked (p : Port) (u : Unacked) (s : State) : State :=
  copyAcked u.buf (modLink p (fun l => { l with unacked := l.unacked.filter (fun x => !decide (x.seq = u.seq)) }) s)

/-- Send one frame of the retry share again. One of which a packet buffer word is uncorrectable is dropped: a lossless one that came in on
a fabric port takes that port's link DOWN, and one that a local unit originated goes out from the copy that the unit keeps (R419)
(DEDUCED, log 111). -/
def sendUnacked (p : Port) (s : State) (u : Unacked) : State :=
  let again := sendCells p (frameBytes u.seq u.packet)
  if (s.link[p.val]).state = .down then s
  else if !(s.link[p.val]).badRead.contains u.seq then again s
  else
    let s := raise { src := srcBufUncorr } s
    match u.arrival with
    | none => if lossy u.packet.vl then dropUnacked p u s else again s
    | some a => if lossy u.packet.vl then dropUnacked p u s else linkDown a false (dropUnacked p u s)

/-- Run a command of a port whose replays find these frames bad. -/
def withBad (p : Port) (bad : List (BitVec 12)) (f : State → State) (s : State) : State :=
  modLink p (fun l => { l with badRead := [] }) (f (modLink p (fun l => { l with badRead := bad }) s))

/-- Replay every unacknowledged frame in order (R247, R248). -/
def replay (p : Port) (s : State) : State :=
  let s := modLink p (fun l => restartTimer s.time { l with
    unacked := l.unacked.map (fun u => { u with replays := u.replays + 1 }), replays := satAdd 0xFFFF l.replays 1
    lastData := s.time, linkLast := false }) s
  (s.link[p.val]).unacked.foldl (sendUnacked p) s

/-- A replay is called for: it runs, or the link goes DOWN where the oldest frame has been replayed REPLAY_LIMIT times already (R248). -/
def replayOrDown (p : Port) (s : State) : State :=
  let l := s.link[p.val]
  match l.unacked with
  | [] => s
  | u :: _ => if u.replays ≥ replayLimit l then linkDown p true s else replay p s

/-- Free the oldest `n` unacknowledged frames; the last of them has this SEQ. -/
def freeAcked (p : Port) (n : Nat) (seq : BitVec 12) (s : State) : State :=
  let gone := (s.link[p.val]).unacked.take n
  let s := modLink p (fun l => restartTimer s.time { l with unacked := l.unacked.drop n, lastFreed := some seq, lastNak := none }) s
  gone.foldl (fun s u => copyAcked u.buf s) s

/-- Act on the ACK of a LINK cell: false where it is not one that can be (R247). -/
def takeAck (p : Port) (valid : Bool) (seq : BitVec 12) (s : State) : Bool × State :=
  if !valid then (true, s)
  else
    let l := s.link[p.val]
    match l.unacked.findIdx? (fun u => decide (u.seq = seq)) with
    | some i => (true, freeAcked p (i + 1) seq s)
    | none => if l.lastFreed = some seq then (true, s) else (false, linkSticky p 0x20 s)

/-- Act on a NAK: once for an ACK value, and again only after REPLAY_TO since that replay (R247). -/
def takeNak (p : Port) (key : Option (BitVec 12)) (s : State) : State :=
  let l := s.link[p.val]
  let again := match l.lastNak with
    | some (k, t) => decide (k ≠ key) || decide (t + replayTo l ≤ s.time)
    | none => true
  if again && isOpen s p && !l.unacked.isEmpty then replayOrDown p (modLink p (fun l => { l with lastNak := some (key, s.time) }) s) else s

/-- A LINK cell (R247, Table Link-4). -/
def linkInfo (p : Port) (c : List Byte) (s : State) : State :=
  let a := leAt c 2 2
  let s := modLink p (fun l => { l with freedPeer := Vector.ofFn (fun i : Fin 8 => BitVec.ofNat 16 (leAt c (8 + 2 * i.val) 2)) }) s
  let r := takeAck p (a.testBit 14) (BitVec.ofNat 12 a) s
  if r.1 && a.testBit 15 then takeNak p (if a.testBit 14 then some (BitVec.ofNat 12 a) else none) r.2 else r.2

/-- Parameters of a peer HELLO are valid (R253). -/
def helloValid (h : Hello) : Bool :=
  decide (1 ≤ h.maxCells) && decide (h.maxCells ≤ 64) && decide (h.kind.toNat ≤ 2) &&
    h.credit.toList.all (fun c => decide (c = 0) || (decide (h.maxCells ≤ c) && decide (c < 32768))) &&
    h.credit.toList.any (fun c => decide (c ≠ 0))

/-- Both lists hold major version 1; this module's minor is 0, so the agreed version is (1, 0) (R252). -/
def helloCommon (h : Hello) : Bool := h.vers.any (fun v => decide (v.1 = 1))

/-- Entry to ROLLCALL: sequence numbers, credits and the retry state start again (R245, R250, R251), and the end sends until a ROLLCALL with
SEEN = 1 comes from then on (R254). A NAK episode begun before ends here (DESIGN CHOICE, log 103). -/
def enterRollcall (p : Port) (h : Hello) (s : State) : State :=
  setLink p .rollcall false (modLink p (fun l => { l with
    verMajor := 1, verMinor := 0, peerEpoch := h.epoch, nextSeq := 0, rxExpect := 0, anyAccepted := false
    unacked := [], lastFreed := none, lastNak := none, used := Vector.replicate 8 0, freedPeer := Vector.replicate 8 0
    freedOwn := Vector.replicate 8 0, nak := false, owed := false, linkAt := none, rollAt := none, rollSeen := false, linkLast := false
    timerAt := s.time, lastData := s.time }) s)

/-- A HELLO cell (R251 to R253). -/
def helloArrive (p : Port) (h : Hello) (s : State) : State :=
  let l := s.link[p.val]
  match l.state with
  | .down => s
  | .hello | .noversion =>
    let s := modLink p (fun l => { l with peerHello := some h }) s
    if !helloValid h then linkSticky p 0x10 s
    else if helloCommon h then
      if h.seen || decide (l.state = .noversion) then enterRollcall p h s else s
    else if h.seen && decide (l.state = .hello) then linkSticky p 0x08 (setLink p .noversion false s)
    else s
  | .rollcall | .offBook | .opened => if h.epoch = l.peerEpoch then s else linkDown p false s

/-- A ROLLCALL cell (R254, R305, R306). The first one changes SEEN, a field of this end's own ROLLCALL. -/
def rollArrive (p : Port) (r : Roll) (s : State) : State :=
  let l := s.link[p.val]
  if l.state = .down then s
  else
    let changed := l.peerRoll.map (fun x => { x with seen := false }) != some { r with seen := false }
    let s := modLink p (fun l => { l with
      peerRoll := some r, rollSeen := l.rollSeen || r.seen, rollOwed := l.rollOwed || l.peerRoll.isNone }) s
    match l.state with
    | .rollcall => if r.seen then judge p (setLink p .offBook false s) else s
    | .offBook | .opened => if changed then judge p s else s
    | .down | .hello | .noversion => s

/-- Act on a control cell with a good CRC (R242, R243). -/
def takeControl (p : Port) (c : List Byte) (s : State) : State :=
  let s := modLink p (fun l => { l with resync := false }) s
  match (byteAt c 1).toNat with
  | 1 => linkInfo p c s
  | 2 => helloArrive p (helloOf c) s
  | 3 => rollArrive p (rollOf c) s
  | _ => linkSticky p 0x02 s

/-! ### Data frames (R243, R244) -/

/-- An erroneous frame is counted. -/
def countBad (p : Port) (s : State) : State := rxError p (modLink p (fun l => { l with crcBad := satAdd 0xFFFF l.crcBad 1 }) s)

/-- A frame taken whole is accepted, discarded as a duplicate, or an error, as is any before ROLLCALL; only an OPEN port
hands its packet on (R244, R256) (DEDUCED, log 54). -/
def judgeFrame (p : Port) (vl : Nat) (seq : BitVec 12) (n plen : Nat) (cells : List RxCell) (s : State) : State :=
  let l := s.link[p.val]
  let f := cells.flatMap (fun c => c.getD [])
  if !linkLive l then countBad p s
  else if cells.length < n ∨ cells.any (·.isNone) ∨ f.drop (64 * n - 4) ≠ crc32Bytes (f.take (64 * n - 4)) then countBad p s
  else if seq = l.rxExpect then
    let s := modLink p (fun l => oweLink { l with nak := false, anyAccepted := true, rxExpect := l.rxExpect + 1, lastData := s.time }) s
    let pk := packetOf vl plen f
    if isOpen s p then routeAccepted p pk f s
    else freeCells p pk.vl n (countDropped p (linkSticky p 0x80 s))
  else if 1 ≤ (l.rxExpect - seq).toNat ∧ (l.rxExpect - seq).toNat ≤ 2048 then modLink p oweLink s
  else countBad p s

/-- Cells of the frame that starts with a cell: CELLS of a data header that passes, else this cell alone (R243). -/
def frameSpan (l : LinkPort) (c : RxCell) : Nat := match c with
  | none => 1
  | some b =>
    if controlOk b then 1
    else match dataHeader b with
      | some (vl, _, k, _) => if l.offer.toList.getD vl 0 ≠ 0 then max 1 k else 1
      | none => 1

/-- How many cells the receiver takes where `n` have come: whole frames, and none of a frame of which a cell is still to come. -/
def cellsTaken (l : LinkPort) : (fuel n : Nat) → List RxCell → Nat
  | 0, _, _ => 0
  | _ + 1, _, [] => 0
  | f + 1, n, c :: r =>
    let k := frameSpan l c
    if n = 0 ∨ r.length + 1 < k then 0 else k + cellsTaken l f (n - k) (r.drop (k - 1))

/-- Cells from a frame boundary on, classified one frame after another (R243). Cells a frame lacks count as LOST. -/
def linkReceive (p : Port) : Nat → List RxCell → State → State
  | 0, _, s => s
  | _ + 1, [], s => s
  | n + 1, c :: r, s =>
    let l := s.link[p.val]
    if l.state = .down then s
    else
      let wrong (bits : BitVec 8) : State :=
        if l.resync then s else rxError p (linkSticky p bits (modLink p (fun l => { l with resync := true }) s))
      match c with
      | none => linkReceive p n r (wrong 0)
      | some b =>
        if controlOk b then linkReceive p n r (takeControl p b s)
        else match dataHeader b with
          | some (vl, seq, k, plen) =>
            if l.offer.toList.getD vl 0 ≠ 0 then
              linkReceive p n (r.drop (k - 1))
                (judgeFrame p vl seq k plen ((c :: r).take k) (modLink p (fun l => { l with resync := false }) s))
            else linkReceive p n r (wrong 2)
          | none => linkReceive p n r (wrong 2)

end Sys2Proof.Machine
end

