-- ==== Sys2Proof/Machine/Switch.lean ====
section
/-! DEFINITION. Meanings of the switch core's rows: frames at an output, egress scheduling, histories, queue samples and the
reorder stage (11_switch_core_and_traffic.md R267 to R293). -/

namespace Sys2Proof.Machine

/-- Head frame of a class queue at an output. -/
def headOf (s : State) (o : SwPort) (c : Class) : Option Queued :=
  s.swc.queued.find? (fun q => decide (q.output = o) && decide (q.packet.vl = c))

/-- A class queue that is empty has no deficit, and no head frame that waits for leave (R289). -/
def settleDrr (o : SwPort) (c : Class) (s : State) : State :=
  if h : c.val < 5 then
    if (headOf s o c).isNone then
      { s with sched := { s.sched with drr := vmod s.sched.drr o (fun d =>
        { d with deficit := vset d.deficit ⟨c.val, h⟩ 0, blocked := vset d.blocked ⟨c.val, h⟩ false }) } }
    else s
  else s

/-- A whole frame enters its class queue with its stamp (R269); a queue that was empty starts with no deficit (R289). -/
def enqueue (q : Queued) (s : State) : State :=
  let s := settleDrr q.output q.packet.vl s
  { s with swc := { s.swc with queued := s.swc.queued ++ [q] } }

/-! ### The reorder stage (R283) -/

def reorderTo (s : State) : Nat := fld s.swc.ctrl 47 32

def ctxIs (p : Port) (hid : BitVec 16) (step : BitVec 32) (c : Reorder) : Bool :=
  decide (c.port = p) && decide (c.hid = hid) && decide (c.step = step)

/-- Send every held frame that has become next, in SEG order. -/
def releaseNext : Nat → Reorder → State → Reorder × State
  | 0, c, s => (c, s)
  | n + 1, c, s => match c.held.filter (fun h => decide (h.1 = c.next)) with
    | [] => (c, s)
    | go =>
      releaseNext n { c with next := c.next + 1, held := c.held.filter (fun h => !decide (h.1 = c.next)) }
        (go.foldl (fun s h => enqueue { h.2.2 with stamp := s.stg.now } s) s)

/-- Replace a context. -/
def setCtx (c : Reorder) (s : State) : State :=
  { s with swc := { s.swc with reorder := s.swc.reorder.map (fun x => if ctxIs c.port c.hid c.step x then c else x) } }

/-- A frame at the reorder stage of an accelerator's port. -/
def reorderFrame (p : Port) (q : Queued) (s : State) : State :=
  let hid := pHid q.packet
  let step := pStep q.packet
  let seg := pSeg q.packet
  match s.swc.reorder.find? (ctxIs p hid step) with
  | none =>
    if s.swc.reorder.countP (fun c => decide (c.port = p)) ≥ 64 then enqueue q (swcSticky bBypass s)
    else
      let c : Reorder := { port := p, hid := hid, step := step, next := if seg = 0 then 1 else 0
                           held := if seg = 0 then [] else [(seg, s.time, q)], lastAt := s.time }
      let s := { s with swc := { s.swc with reorder := s.swc.reorder ++ [c] } }
      if seg = 0 then enqueue q s else s
  | some c =>
    let c := { c with lastAt := s.time }
    if seg < c.next then setCtx c (enqueue q s)
    else if seg = c.next then
      let r := releaseNext c.held.length { c with next := c.next + 1 } (enqueue q s)
      setCtx r.1 r.2
    else setCtx { c with held := c.held ++ [(seg, s.time, q)] } s

/-- FRAME_AT_OUTPUT: the first frame of a class between an input and an output is whole at the output. It enters its class
queue, through the reorder stage where it is an MCAST for an accelerator (R268, R269, R283). -/
def execFrameAtOutput (input output : Fin 128) (cls : Class) (s : State) : Host.Outcome State Fault Refusal :=
  let mine (t : Transit) : Bool := decide (t.input = input) && decide (t.output = output) && decide (t.packet.vl = cls)
  match s.swc.transit.find? mine with
  | none => .next s
  | some t =>
    let s := { s with swc := { s.swc with transit := dropFirst mine s.swc.transit } }
    let q : Queued := ⟨t.packet, t.buf, t.input, t.output, t.arrival, s.stg.now⟩
    if h : output.val < 64 then
      let p : Port := ⟨output.val, h⟩
      if s.swc.ctrl.getLsbD 1 && peerAccel s p && t.packet.kind == kMcast then .next (reorderFrame p q s)
      else .next (enqueue q s)
    else .next (enqueue q s)

/-- REORDER_TIMEOUT: a held frame has waited REORDER_TO ticks. It goes with every held frame of lower SEG, and NEXT becomes
its SEG + 1 (R283). -/
def execReorderTimeout (p : Port) (hid : BitVec 16) (step : BitVec 32) (s : State) : Host.Outcome State Fault Refusal :=
  match s.swc.reorder.find? (ctxIs p hid step) with
  | none => .next s
  | some c =>
    let due := c.held.filter (fun h => decide (h.2.1 + reorderTo s ≤ s.time))
    if due.isEmpty then .next s
    else
      let top : Nat := due.foldl (fun a h => max a h.1) 0
      let go := sortBy (fun a b => decide (a.1 ≤ b.1)) (c.held.filter (fun h => decide (h.1 ≤ top)))
      let s := go.foldl (fun s h => enqueue { h.2.2 with stamp := s.stg.now } s) s
      let r := releaseNext c.held.length { c with next := top + 1, held := c.held.filter (fun h => !decide (h.1 ≤ top)) } s
      .next (setCtx r.1 r.2)

/-- REORDER_CONTEXT_FREE: a context with no frame for 4 × REORDER_TO ticks is freed (R283). -/
def execReorderContextFree (p : Port) (hid : BitVec 16) (step : BitVec 32) (s : State) : Host.Outcome State Fault Refusal :=
  match s.swc.reorder.find? (ctxIs p hid step) with
  | none => .next s
  | some c =>
    if c.held.isEmpty ∧ c.lastAt + 4 * reorderTo s ≤ s.time then
      .next { s with swc := { s.swc with reorder := s.swc.reorder.filter (fun x => !ctxIs p hid step x) } }
    else .next s

/-! ### Egress scheduling (R288 to R291) -/

/-- Remove the head frame of a class queue. -/
def popHead (o : SwPort) (c : Class) (s : State) : State :=
  { s with swc := { s.swc with queued := dropFirst (fun q => decide (q.output = o) && decide (q.packet.vl = c)) s.swc.queued } }

/-- Drop lossy frames that reach the head of their queue too old (R273). -/
def ageOut (o : SwPort) (c : Class) : Nat → State → State
  | 0, s => s
  | n + 1, s => match headOf s o c with
    | none => s
    | some q =>
      if (s.stg.now - q.stamp).toNat > fld s.swc.ctrl 63 48 * 2048 then
        let s := swcSticky bAged (copyLeaves q.buf (popHead o c s))
        ageOut o c n { s with swc := { s.swc with aged := satAdd 0xFFFF s.swc.aged 1 } }
      else s

/-- Does a frame enter a direction of the torus (R280; DEDUCED, log 41)? It continues a direction when it came in on the port that
faces back along the direction it leaves by. -/
def entersDirection (s : State) (p : Port) (q : Queued) : Bool :=
  !lossy q.packet.vl && q.packet.dest != 0xFFFF && isTorus (portRole s p) &&
    (match q.arrival with
      | none => true
      | some a => !(isTorus (portRole s a) && decide (portRole s a = oppositeDir (portRole s p))))

/-- May a head frame start: room to keep it unacknowledged, peer credit, MAXCELLS, its shaper's leave (R245, R250, R253, R280,
R288, R290)? A local port asks nothing. -/
def mayStart (s : State) (o : SwPort) (q : Queued) : Bool :=
  if h : o.val < 64 then
    let p : Port := ⟨o.val, h⟩
    let l := s.link[p.val]
    let cells := pkCells q.packet
    let sh := (s.sched.shaper[p.val])[q.packet.vl.val]
    isOpen s p && (s.lane.ports[p.val]).txActive != 0 && !(s.lane.ports[p.val]).txIdle &&
      decide (l.unacked.length < 2048) && decide (l.unacked.foldl (fun a u => a + pkCells u.packet) 0 + cells ≤ 8192) &&
      (match l.peerHello with | some x => decide (cells ≤ x.maxCells) | none => false) &&
      creditFor s p q.packet.vl (cells + (if entersDirection s p q then 64 else 0)) &&
      (decide (sh.rate = 0) || decide (tokensNow s.time sh > 0))
  else true

/-- A class whose head frame may start. -/
def ready (s : State) (o : SwPort) (c : Class) : Bool := match headOf s o c with
  | some q => mayStart s o q
  | none => false

def drrClass (k : Fin 5) : Class := ⟨k.val, by omega⟩

/-- Rounds of deficit round robin until a class starts its head frame (R289). -/
def drrRun (head : Fin 5 → Option Nat) (ok : Fin 5 → Bool) : Nat → Drr → Option (Fin 5) × Drr
  | 0, d => (none, d)
  | n + 1, d =>
    let k := d.visit
    let next : Fin 5 := if k.val = 0 then 4 else ⟨k.val - 1, by omega⟩
    match head k with
    | none => drrRun head ok n { d with deficit := vset d.deficit k 0, blocked := vset d.blocked k false, visit := next, added := false }
    | some cells =>
      let gain := if d.added || (d.blocked[k.val] && !ok k) then 0 else max 1 (d.quantum[k.val]).toNat
      let have' := d.deficit[k.val] + gain
      if ok k && decide (cells ≤ have') then
        (some k, { d with deficit := vset d.deficit k (have' - cells), blocked := vset d.blocked k false, added := true })
      else
        drrRun head ok n { d with deficit := vset d.deficit k have', blocked := vset d.blocked k (!ok k), visit := next, added := false }

/-- Pick the class that starts a frame: TC7, TC6, TC5 in strict priority, then TC0 to TC4 under DRR (R288). -/
def pickClass (s : State) (o : SwPort) : Option Class × State :=
  match ([7, 6, 5] : List Class).find? (ready s o) with
  | some c => (some c, s)
  | none =>
    if (List.finRange 5).any (fun k => ready s o (drrClass k)) then
      let r := drrRun (fun k => (headOf s o (drrClass k)).map (fun q => pkCells q.packet)) (fun k => ready s o (drrClass k)) 400
        s.sched.drr[o.val]
      (r.1.map drrClass, { s with sched := { s.sched with drr := vset s.sched.drr o r.2 } })
    else (none, s)

/-- A data frame starts on a fabric port (R245, R250, R255). -/
def startFrame (p : Port) (q : Queued) (s : State) : State :=
  let l := s.link[p.val]
  let cells := pkCells q.packet
  let bytes := frameBytes l.nextSeq q.packet
  let s := modLink p (fun l => { l with
    nextSeq := l.nextSeq + 1, used := vmod l.used q.packet.vl (fun x => x + BitVec.ofNat 16 cells)
    unacked := l.unacked ++ [⟨l.nextSeq, q.buf, q.packet, 0, q.input, q.arrival⟩]
    timerAt := if l.unacked.isEmpty then s.time else l.timerAt
    pausedAt := if l.unacked.isEmpty then l.pausedAt.map (fun _ => s.time) else l.pausedAt
    lastData := s.time, linkLast := false }) s
  let s := { s with sched := { s.sched with
    shaper := vmod s.sched.shaper p (fun v => vmod v q.packet.vl (fun b => if b.rate = 0 then b else takeTokens s.time cells b)) } }
  mirror p true q.packet bytes (copyStarts q.buf (sendCells p bytes s))

/-! ### Histories and samples (R279, R293) -/

/-- New congestion history of a port. -/
def newHistory (s : State) (p : Port) : BitVec 21 :=
  let h := s.swc.history[p.val]
  let d : Int := (queuedCells s (fabric p) : Int) - h.toNat
  BitVec.ofInt 21 ((h.toNat : Int) + d / 8)

/-- HISTORY_UPDATE: every 256 deck cycles (R279). -/
def execHistoryUpdate (s : State) : Host.Outcome State Fault Refusal :=
  if deckCycles s.swc.histAt + 256 ≤ deckCycles s.time then
    .next { s with swc := { s.swc with history := Vector.ofFn (fun p => newHistory s p), histAt := s.time } }
  else .next s

/-- Sample one queue. -/
def sampleQueue (s : State) (o : SwPort) (c : Class) (q : QSample) : QSample :=
  let depth := queueCells s c o
  let delay := match headOf s o c with
    | some h => min 0xFFFF_FFFF (s.stg.now - h.stamp).toNat
    | none => 0
  { depth := depth, delay := delay, maxDepth := max q.maxDepth depth, maxDelay := max q.maxDelay delay }

/-- QUEUE_SAMPLE: at a tick that is a multiple of INTERVAL × 1,024 all 1,024 queues are sampled, and a written INTERVAL takes
effect (R293, Table Switch-24). -/
def execQueueSample (s : State) : Host.Outcome State Fault Refusal :=
  let iv := s.sched.interval.toNat
  if iv ≠ 0 ∧ s.stg.now.toNat % (iv * 1024) = 0 ∧ s.sched.lastSample ≠ some s.stg.now then
    .next { s with sched := { s.sched with
      samples := Vector.ofFn (fun o => Vector.ofFn (fun c => sampleQueue s o c (s.sched.samples[o.val])[c.val]))
      count := s.sched.count + 1, interval := s.sched.intervalNext, lastSample := some s.stg.now } }
  else .next s

/-- USER: a USER packet of an OPEN port is routed by DEST, or dropped (R257, R264, R266, R275) (DEDUCED, log 58). -/
def execUser (p : Port) (pk : Packet) (s : State) : Host.Outcome State Fault Refusal :=
  if isOpen s p ∧ pk.kind = kUser then .next (routeAccepted p pk (frameBytes 0 pk) s) else .next s

end Sys2Proof.Machine
end

