-- ==== Sys2Proof/Machine/Link.lean ====
section
/-! DEFINITION. Meanings of the link rows (10_izano_link.md), and of the start of a frame at an egress port, which may find an
uncorrectable packet buffer word (16_faults.md R419). -/

namespace Sys2Proof.Machine

/-- The receiver takes the next `n` cells that the lanes have delivered, in port order, and classifies them; a data frame is taken whole
(R228, R239, R243). -/
def takeCells (p : Port) (m : Nat) (s : State) : State :=
  let all := (s.lane.ports[p.val]).rxCells
  let n := cellsTaken s.link[p.val] all.length m all
  let cells := all.take n
  linkReceive p cells.length cells (modLanePort p (fun y => { y with rxCells := y.rxCells.drop n }) s)

/-- DATA_FRAME: the cells of a frame, from a frame boundary on, reach the receiver (R243, R244) (DEDUCED, log 54). -/
def execDataFrame (p : Port) (n : Nat) (s : State) : Host.Outcome State Fault Refusal :=
  if n ≤ (s.lane.ports[p.val]).rxCells.length then .next (takeCells p n s) else .next s

/-- LINK_CELL: a control cell reaches the receiver and is acted on by its CKIND (R242, R243, R247). -/
def execLinkCell (rd : ReplayRead) (s : State) : Host.Outcome State Fault Refusal := .next (withBad rd.port rd.bad (takeCells rd.port 1) s)

/-- HELLO: as LINK_CELL, for a negotiation cell (R252, R253). -/
def execHello (p : Port) (s : State) : Host.Outcome State Fault Refusal := .next (takeCells p 1 s)

/-- ROLLCALL: as LINK_CELL, for a roll-call cell (R254, R305). -/
def execRollcall (p : Port) (s : State) : Host.Outcome State Fault Refusal := .next (takeCells p 1 s)

/-- Has a time passed since a cell was last sent, or was none sent yet? -/
def cellDue (t : Nat) (last : Option Nat) : Bool := match last with
  | some a => decide (a + 1024 ≤ t)
  | none => true

/-- Is a LINK, HELLO or ROLLCALL cell due (R246, R252, R254)? -/
def linkDue (s : State) (l : LinkPort) : Bool := decide (l.state ≠ .down) && (l.owed || cellDue s.time l.linkAt)
def helloDue (s : State) (l : LinkPort) : Bool :=
  (decide (l.state = .hello) || decide (l.state = .noversion)) && cellDue s.time l.helloAt
def rollDue (s : State) (l : LinkPort) : Bool := linkLive l && (l.rollOwed || (!l.rollSeen && cellDue s.time l.rollAt))

/-- LINK_CELL_SEND: a LINK cell that is owed, or due after 1,024 ticks, is sent (R246). -/
def execLinkCellSend (p : Port) (s : State) : Host.Outcome State Fault Refusal :=
  let l := s.link[p.val]
  if txReady s p ∧ linkDue s l then
    .next (modLink p (fun l => { l with owed := false, linkAt := some s.time, linkLast := true }) (sendCells p (linkCellBytes l) s))
  else .next s

/-- HELLO_SEND: in HELLO and NOVERSION a HELLO cell every 1,024 ticks (R252). -/
def execHelloSend (p : Port) (s : State) : Host.Outcome State Fault Refusal :=
  let l := s.link[p.val]
  if txReady s p ∧ helloDue s l then
    .next (modLink p (fun l => { l with helloAt := some s.time, linkLast := false }) (sendCells p (helloBytes l) s))
  else .next s

/-- ROLLCALL_SEND: every 1,024 ticks until the peer has SEEN = 1, and once whenever a field changes (R254). -/
def execRollcallSend (p : Port) (s : State) : Host.Outcome State Fault Refusal :=
  let l := s.link[p.val]
  if txReady s p ∧ rollDue s l then
    .next (modLink p (fun l => { l with rollAt := some s.time, rollOwed := false, linkLast := false }) (sendCells p (ownRoll s p) s))
  else .next s

/-- REPLAY_TIMEOUT: every unacknowledged frame is replayed; after REPLAY_LIMIT replays of the oldest the link goes DOWN (R248). Data
frames are sent in OPEN only (R256), so a timer that runs out in OFF_BOOK acts when the link is OPEN again (DEDUCED, log 84). -/
def execReplayTimeout (rd : ReplayRead) (s : State) : Host.Outcome State Fault Refusal :=
  let p := rd.port
  let l := s.link[p.val]
  match l.unacked with
  | [] => .next s
  | _ :: _ =>
    if isOpen s p ∧ l.pausedAt = none ∧ l.timerAt + replayTo l ≤ s.time then .next (withBad p rd.bad (replayOrDown p) s) else .next s

/-- PORT_UP: the link enters HELLO with a new EPOCH and the credit offers in force (R251, R270). -/
def execPortUp (p : Port) (s : State) : Host.Outcome State Fault Refusal :=
  let l := s.link[p.val]
  if l.state = .down ∧ portUp s p then
    let e := (freeNow s).setWidth 32
    .next (setLink p .hello false (modLink p (fun l => { l with
      epoch := e, peerHello := none, peerRoll := none, rollSeen := false, rollOwed := false
      offer := Vector.ofFn (fun v : Fin 8 => offerOf s.swc.creditLo s.swc.creditHi v.val), linkAt := none, helloAt := none
      rollAt := none, nak := false, owed := false, resync := false, lastData := s.time, linkLast := false }) (drawn s)))
  else .next s

/-- PORT_DOWN: the port is not UP; the cells that the lanes have delivered are acted on, and the link goes DOWN (R249, R251). -/
def execPortDown (p : Port) (s : State) : Host.Outcome State Fault Refusal :=
  if (s.link[p.val]).state ≠ .down ∧ !portUp s p then
    .next (linkDown p false (takeCells p (s.lane.ports[p.val]).rxCells.length s))
  else .next s

/-! ### EGRESS_FRAME_START -/

/-- An uncorrectable packet buffer word drops the frame that holds it. A lossless frame that arrived on a fabric port takes that
port's link DOWN; one a local unit originated is sent again from the copy the unit keeps, under its buffer, and makes its way through
the core once more (R419). -/
def dropBuffer (q : Queued) (s : State) : State :=
  let s := raise { src := srcBufUncorr } s
  match q.arrival with
  | none =>
    if lossy q.packet.vl then copyLeaves q.buf s
    else { s with swc := { s.swc with transit := s.swc.transit ++ [⟨q.packet, q.buf, q.input, q.output, none⟩] } }
  | some a => if lossy q.packet.vl then copyLeaves q.buf s else linkDown a false (copyLeaves q.buf s)

/-- EGRESS_FRAME_START: the port picks a class and starts its head frame; a local port hands the frame to its unit (R264,
R273, R288, R289, R419). The frame behind it is at the head of its queue from then on. -/
def execEgressFrameStart (output : Fin 128) (bufErr : Bool) (s : State) : Host.Outcome State Fault Refusal :=
  let r := pickClass s output
  match r.1 with
  | none => .next (serveLocal r.2.swc.localWait.length r.2)
  | some c => match headOf r.2 output c with
    | none => .next r.2
    | some q =>
      let s := popHead output c r.2
      let s := settleDrr output c (if lossy c then ageOut output c s.swc.queued.length s else s)
      let s := if bufErr then dropBuffer q s
        else if h : output.val < 64 then startFrame ⟨output.val, h⟩ q s
        else { s with swc := { s.swc with handed := s.swc.handed ++ [⟨⟨output.val - 64, by omega⟩, q.packet, q.buf⟩] } }
      .next (serveLocal s.swc.localWait.length s)

end Sys2Proof.Machine
end

