-- ==== Sys2Proof/Machine/LaneOps.lean ====
section
/-! DEFINITION. Shared operations of the lanes: info words, health, gaits and starting a port (09_lanes.md R223 to R237). -/

namespace Sys2Proof.Machine

def laneAt (p : Port) (i : Nat) : LaneId := Fin.ofNat 512 (8 * p.val + i)
def portOfLane (l : LaneId) : Port := ⟨l.val / 8, by omega⟩
def lanesOf (p : Port) : List LaneId := (List.range 8).map (laneAt p)

/-- The entry in force disables the lane (Table Lanes-5). -/
def laneDisabled (s : State) (l : LaneId) : Bool := ((s.lane.lanes[l.val]).entry).getLsbD 26

/-- ENABLE in force: a port with role NONE under a plan is held with ENABLE = 0 (R301). -/
def portEnabled (s : State) (p : Port) : Bool :=
  (s.lane.ports[p.val]).ctrl.getLsbD 0 && (s.topo.plan.isNone || decide (portRole s p ≠ roleNone))

/-- The default entry of R230. -/
def defaultEntry : BitVec 27 := BitVec.ofNat 27 (4 <<< 4 ||| 12 <<< 9 ||| 12 <<< 14 ||| 16 <<< 19)

/-! ### Starting and stopping a port (R234, Table Lanes-13) -/

/-- Every lane of a port starts: receivers in HUNT, transmitters with a new PRBS31 sequence, ACTIVE and RX_GOOD empty (R234). BAD, LLANE
and SKEW of LANE_STATUS clear too (DESIGN CHOICE, log 102). -/
def startPort (p : Port) (s : State) : State :=
  let s := (lanesOf p).foldl (fun s l =>
    let st : Lock := if laneDisabled s l then .off else .hunt
    modLane l (fun x => { x with lock := st, good := false, bad := false, llane := 0, known := false, skew := 0, goodSf := 0, badMarks := 0
                                 winUncorr := 0, winPos := 0, idleNext := false, energyAt := none, late := false, hunt := 0
                                 prbsTx := Config.prbsStart, prbsRx := none }) s) s
  modLanePort p (fun x => { x with
    started := true, txActive := 0, rxActive := 0, peerGood := 0, goodSent := 0, txIdle := false, rxIdle := false, fixed := none
    startAt := none, idleSent := false, idleReq := false, exitReq := false, exiting := none, rxLog := [], txCells := [], rxSf := []
    rxCells := [] }) s

/-- Every lane of a port OFF, its transmitters at idle. -/
def stopPort (p : Port) (s : State) : State :=
  let s := (lanesOf p).foldl (fun s l =>
    modLane l (fun x => { x with lock := .off, good := false, goodSf := 0, badMarks := 0, idleNext := false, energyAt := none
                                 late := false }) s) (resumeTimer p s)
  modLanePort p (fun x => { x with
    started := false, txActive := 0, rxActive := 0, peerGood := 0, goodSent := 0, txIdle := false, rxIdle := false, fixed := none
    startAt := none, idleSent := false, idleReq := false, exitReq := false, exiting := none, rxLog := [], txCells := [], rxSf := []
    rxCells := [] }) s

/-- Lanes start once option loading is complete, the on-die fill is done and the stage and lane PLL is locked (R437, R438). -/
def lanesDue (s : State) : Bool := s.rst.optDone && s.rst.ondie && s.rst.refLock

/-- Bring a port to what its ENABLE in force says. -/
def applyEnable (p : Port) (s : State) : State :=
  let want := portEnabled s p && lanesDue s
  let now := (s.lane.ports[p.val]).started
  if want && !now then startPort p s else if !want && now then stopPort p s else s

/-! ### Delivery to the link layer (R227, R228) -/

/-- Logical lanes of a set, ascending. -/
def lanesIn (m : Byte) : List (BitVec 3) := ((List.range 8).filter m.getLsbD).map (BitVec.ofNat 3)

/-- A MARKED lane of the port that has not given its part of a superframe yet, and whose part the superframe needs: the lane is active in
it, or its ACTIVE is not known yet. -/
def awaits (s : State) (x : RxSf) (l : LaneId) : Bool :=
  let y := s.lane.lanes[l.val]
  decide (y.lock = .marked) && !x.lanes.any (fun z => decide (z.1 = l)) &&
    (match x.active with | some a => !y.known || a.getLsbD y.llane.toNat | none => true)

/-- The port's data cells of a superframe: cell n lies in slot n ÷ g of active lane n mod g. A cell of a lane that gave none is LOST, and
so is every cell where no info word passed (R224, R228). -/
def portCells (x : RxSf) (prior : Byte) : List RxCell :=
  let ls := lanesIn (x.active.getD prior)
  let per := ls.map (fun i => match x.active, x.lanes.find? (fun z => decide (z.2.1 = i)) with
    | some _, some z => z.2.2
    | _, _ => [])
  (List.range 325).flatMap (fun d => per.map (fun c => c.getD d none))

/-- The oldest superframe of a port that is not delivered yet. -/
def nextSf (x : LanePort) : Option RxSf := x.rxSf.find? (fun y => !y.done)

/-- Deliver, oldest first, the superframes that wait for no lane, and every superframe older than one received since. A delivered one is
kept for the lanes that are still to come: their skew is against its earliest lane (R227). -/
def deliverSf (p : Port) : Nat → State → State
  | 0, s => s
  | n + 1, s => match nextSf (s.lane.ports[p.val]) with
    | none => s
    | some x =>
      if (s.lane.ports[p.val]).rxSf.getLast? = some x ∧ (lanesOf p).any (awaits s x) then s
      else deliverSf p n (modLanePort p (fun y => { y with
        rxSf := y.rxSf.map (fun z => if z.sfc = x.sfc then { z with done := true } else z), rxCells := y.rxCells ++ portCells x y.rxActive }) s)

def deliver (p : Port) (s : State) : State := deliverSf p (s.lane.ports[p.val]).rxSf.length s

/-! ### Health (R231) -/

/-- A logical lane is in ACTIVE as received. -/
def laneActive (s : State) (l : LaneId) : Bool :=
  (s.lane.ports[(portOfLane l).val]).rxActive.getLsbD ((s.lane.lanes[l.val]).llane).toNat

/-- LANE_STICKY bits of a lane (R238). -/
def laneSticky (l : LaneId) (bits : BitVec 6) (s : State) : State :=
  fresh .laneSticky l.val (bits.setWidth 64) (modLane l (fun x => { x with sticky := x.sticky ||| bits }) s)

/-- A lane becomes BAD: it leaves RX_GOOD and raises LANE. -/
def becomeBad (l : LaneId) (s : State) : State :=
  if (s.lane.lanes[l.val]).bad then modLane l (fun x => { x with good := false, goodSf := 0 }) s
  else
    let s := laneSticky l 1 (modLane l (fun x => { x with good := false, bad := true, goodSf := 0 }) s)
    raise { src := srcLane, index := BitVec.ofNat 4 (l.val / 64), sticky := ((s.lane.lanes[l.val]).sticky).setWidth 64 } s

/-- No lane of ACTIVE is received any more: nothing is received on the port (DEDUCED, log 56). -/
def checkDirection (p : Port) (s : State) : State :=
  let alive := (lanesOf p).any (fun l =>
    laneActive s l && (decide ((s.lane.lanes[l.val]).lock = .marked) || decide ((s.lane.lanes[l.val]).lock = .idle)))
  if alive then s else modLanePort p (fun x => { x with rxActive := 0 }) s

/-- A lane leaves MARKED or LOCKED for a lower state. In ACTIVE, and outside an announced idle, it becomes BAD; nothing waits for its
superframes any more. -/
def dropLock (l : LaneId) (k : Lock) (bits : BitVec 6) (s : State) : State :=
  let x := s.lane.lanes[l.val]
  let p := portOfLane l
  let bad := decide (x.lock = .marked) && laneActive s l && !(s.lane.ports[p.val]).rxIdle
  let s := laneSticky l bits (modLane l (fun x => { x with lock := k, goodSf := 0, badMarks := 0, hunt := 0 }) s)
  checkDirection p (deliver p (if bad then becomeBad l s else s))

/-- RX_GOOD of a port: the logical lanes that its receive lanes carry and that are healthy. -/
def rxGood (s : State) (p : Port) : Byte :=
  (lanesOf p).foldl (fun m l =>
    let x := s.lane.lanes[l.val]
    if x.good then m ||| BitVec.ofNat 8 (1 <<< x.llane.toNat) else m) 0

/-! ### A superframe received (R224, R226, R227, R231, R260) -/

/-- Lowest set bit of a lane set. -/
def lowestLane (m : Byte) : Option Nat := (List.range 8).find? (fun i => m.getLsbD i)

/-- What an info word that passes tells the port: ACTIVE, the peer's RX_GOOD, IDLE_NEXT. -/
def takeInfo (l : LaneId) (w : BitVec 128) (s : State) : State :=
  let p := portOfLane l
  let act := infoActive w
  let s := modLane l (fun x => { x with llane := infoLlane w, known := true, idleNext := infoIdleNext w }) s
  let good := infoRxGood w
  modLanePort p (fun x => { x with
    rxActive := if act = 0 ∨ act.getLsbD (infoLlane w).toNat = true then act else x.rxActive
    peerAt := if x.peerGood = good then x.peerAt else s.time
    peerGood := good
    rxIdle := x.rxIdle || infoIdleNext w }) s

/-- The superframe record of R260: SFC and the tick at which M0 arrived on the lowest active logical lane, whose own info word need not
have passed (DEDUCED, log 56, log 93). -/
def noteM0 (p : Port) (llane : BitVec 3) (active : Byte) (sfc : BitVec 16) (tick : W64) : State → State :=
  modLanePort p (fun x => if lowestLane active = some llane.toNat then { x with rxLog := (sfc, tick) :: x.rxLog.take 63 } else x)

/-- A lane's part of a superframe joins those of the port's other lanes with the same SFC; the earliest M0 is the skew's origin. The eight
newest superframes are kept. -/
def joinSf (l : LaneId) (llane : BitVec 3) (sfc : BitVec 16) (tick : W64) (active : Option Byte) (cells : List RxCell) (s : State) : State :=
  let part := (l, llane, cells)
  let join (x : RxSf) : RxSf :=
    if x.sfc = sfc then
      { x with first := if (tick - x.first).slt 0 then tick else x.first, active := x.active <|> active, lanes := x.lanes ++ [part] }
    else x
  modLanePort (portOfLane l) (fun y =>
    let found := y.rxSf.any (fun x => decide (x.sfc = sfc))
    let fresh : RxSf := { sfc := sfc, first := tick, active := active, lanes := [part] }
    { y with rxSf := if found then y.rxSf.map join else y.rxSf.drop (y.rxSf.length - 7) ++ [fresh] }) s

/-- Ticks that a lane's M0 lies behind the earliest of its superframe (R227). -/
def skewOf (s : State) (l : LaneId) (sfc : BitVec 16) (tick : W64) : Nat :=
  match (s.lane.ports[(portOfLane l).val]).rxSf.find? (fun x => decide (x.sfc = sfc)) with
  | some x => (tick - x.first).toNat
  | none => 0

def badWordCount (words : List (Option Nat)) : Nat := words.countP (·.isNone)
def correctedCount (words : List (Option Nat)) : Nat := words.foldl (fun a w => a + w.getD 0) 0

/-- Counters of one superframe's codewords and lane cells, and the running window of R231. -/
def countWords (l : LaneId) (f : LineFrame) (pattern skew : Nat) (s : State) : State :=
  let limit := max 1 (fld (s.lane.ports[(portOfLane l).val]).ctrl 7 4)
  let bad := badWordCount f.words
  laneSticky l ((if pattern > 0 then 0x20 else 0) ||| (if skew > 192 then 0x10 else 0)) <| modLane l (fun x =>
    let first := decide (x.winPos = 0)
    { x with
      uncorr := satAdd 0xFFFF x.uncorr bad, corr := satAdd 0xFFFF_FFFF x.corr (correctedCount f.words)
      pattern := satAdd 0xFFFF x.pattern pattern
      skew := min 255 skew
      badMarks := if f.m0 > 8 ∨ f.m1 > 8 then x.badMarks + 1 else 0
      winLimit := if first then limit else x.winLimit
      winUncorr := if first then bad else x.winUncorr + bad
      winPos := (x.winPos + 1) % 1024 }) s

/-- Another MARKED lane of the port that carries the same LLANE. -/
def twinLane (s : State) (l : LaneId) : Option LaneId :=
  if !(s.lane.lanes[l.val]).known then none
  else (lanesOf (portOfLane l)).find? (fun m => decide (m ≠ l) && (s.lane.lanes[m.val]).known && decide ((s.lane.lanes[m.val]).lock = .marked) &&
    decide ((s.lane.lanes[m.val]).llane = (s.lane.lanes[l.val]).llane))

/-- Judge a lane's health after a superframe (R231). A lane whose LLANE is not known yet has no distinct one and counts no clean
superframe. A lane leaves BAD when it enters RX_GOOD (DEDUCED, log 56; DESIGN CHOICE, log 83). -/
def judgeLane (l : LaneId) (bad skew : Nat) (s : State) : State :=
  let x := s.lane.lanes[l.val]
  match twinLane s l with
  | some m => becomeBad l (becomeBad m s)
  | none =>
    if skew > 192 ∨ (bad > 0 ∧ x.winUncorr ≥ x.winLimit) then becomeBad l s
    else if bad > 0 ∨ !x.known then modLane l (fun x => { x with goodSf := 0 }) s
    else modLane l (fun x =>
      let n := satAdd 0xFFFF x.goodSf 1
      { x with goodSf := n, good := x.good || decide (n ≥ 1024), bad := x.bad && decide (n < 1024) }) s

/-- The end of a superframe that carries IDLE_NEXT, on the lanes of the port that have ended it (R235). -/
def dropIdle (p : Port) (sfc : BitVec 16) (s : State) : State :=
  if (s.lane.ports[p.val]).rxIdle then
    let s := (lanesOf p).foldl (fun s l =>
      modLane l (fun x => if x.lock = .marked ∧ x.sfc = sfc then { x with lock := .idle } else x) s) s
    pauseTimer p s
  else s

/-- A superframe of a MARKED lane: its codewords decoded, its info word read, its lane cells compared, its data cells handed on, and its
health judged. Without an info word the lane goes by the LLANE, the SFC and the ACTIVE it knows; before it knows them its cells are LOST
(DEDUCED, log 93). -/
def takeSuperframe (l : LaneId) (rx : SuperframeRx) (s : State) : State :=
  let x := s.lane.lanes[l.val]
  let p := portOfLane l
  let f := readLine (x.entry.getLsbD 25) rx.line
  let tick := s.stg.now - BitVec.ofNat 64 rx.age
  let llane := (f.info.map infoLlane).getD x.llane
  let sfc := (f.info.map infoSfc).getD (x.sfc + 1)
  let named := f.info.isSome || x.known
  let cells := frameCells f llane sfc
  let data := if named then frameData f cells else List.replicate 325 none
  let known := (s.lane.ports[p.val]).rxActive
  let fill := (f.info.map infoFill).getD (!known.getLsbD llane.toNat)
  let pat := if named then checkPattern f fill 0 cells x.prbsRx else (0, none)
  let active := f.info.bind (fun w => if (infoActive w).getLsbD llane.toNat ∨ infoActive w = 0 then some (infoActive w) else none)
  let s := modLane l (fun y => { y with sfc := sfc, prbsRx := pat.2 }) s
  let s := match f.info with
    | some w => takeInfo l w s
    | none => s
  let s := if named then noteM0 p llane ((f.info.map infoActive).getD known) sfc tick s else s
  let s := joinSf l llane sfc tick active data s
  let skew := skewOf s l sfc tick
  let s := judgeLane l (badWordCount f.words) skew (countWords l f pat.1 skew s)
  dropIdle p sfc (deliver p s)

/-! ### Gaits and sending (R219, R228, R232, R233) -/

/-- The active set that the transmitter chooses: the g lowest lanes of S. -/
def chooseActive (s : State) (p : Port) : Byte :=
  let x := s.lane.ports[p.val]
  let set := (List.range 8).filter (fun i => x.peerGood.getLsbD i && !laneDisabled s (laneAt p i) && portEnabled s p)
  let g := ([8, 4, 2, 1].find? (fun g => decide (g ≤ set.length) && decide (g ≤ 8 >>> fld x.ctrl 3 2))).getD 0
  (set.take g).foldl (fun m i => m ||| BitVec.ofNat 8 (1 <<< i)) 0

/-- The cell that fills a data slot with no frame to carry: a LINK cell (R239, R246, R256) (DESIGN CHOICE, log 82). -/
def fillerCell (l : LinkPort) : List Byte := if l.state = .down then Config.idleCell.toList else linkCellBytes l

/-- Data cells of the lane with rank k among g active lanes: port cells k, k + g, k + 2g, … (R228). -/
def laneCells (cells : List (List Byte)) (filler : List Byte) (g k : Nat) : List (List Byte) :=
  (List.range 325).map (fun d => cells.getD (g * d + k) filler)

/-- The symbols of one lane's superframe, and its generator after it. A lane outside ACTIVE sends a FILL superframe. -/
def laneLine (s : State) (p : Port) (f : InfoFix) (cells : List (List Byte)) (i : Nat) : List Level × BitVec 31 :=
  let x := s.lane.lanes[(laneAt p i).val]
  let ls := lanesIn f.active
  let fill := !f.active.getLsbD i
  let data := laneCells cells (fillerCell s.link[p.val]) ls.length (ls.idxOf (BitVec.ofNat 3 i))
  let m := messageCells fill 341 0 data x.prbsTx
  let info := infoWord fill f.idleNext f.rxGood f.active (BitVec.ofNat 3 i) f.sfc
  ((superframeBlocks info m.1).flatMap (blockLine (x.entry.getLsbD 24)), m.2)

/-- Every lane that can be driven sends its superframe; the port's cells that it carries leave the queue. A direction with no lane
carries none. -/
def sendSuperframe (p : Port) (f : InfoFix) (s : State) : State :=
  let cells := (s.lane.ports[p.val]).txCells
  let driven := (List.range 8).filter (fun i => !laneDisabled s (laneAt p i))
  let lines := driven.map (fun i => (i, laneLine s p f cells i))
  let s := lines.foldl (fun s x => modLane (laneAt p x.1) (fun y => { y with prbsTx := x.2.2 }) s) s
  let s := modLanePort p (fun y => { y with
    txCells := cells.drop (325 * (lanesIn f.active).length) }) s
  emit (.superframe p f.active f.rxGood f.idleNext f.sfc (lines.map (fun x => (laneAt p x.1, x.2.1)))) s

/-- What one lane sends in an exit, in its own polarity: the wake burst, and the train block. -/
def wakeLine (s : State) (l : LaneId) : LaneId × List Level × List Level :=
  let inv := ((s.lane.lanes[l.val]).entry).getLsbD 24
  (l, wakeBurst.map (polar inv), blockLine inv trainBlock)

/-- The driver comes on 20 ticks after `t`: the wake burst, and at 148 the train blocks up to boundary B (R236, Table Lanes-6). -/
def sendWake (p : Port) (t : Nat) (s : State) : State :=
  let driven := (lanesOf p).filter (fun l => !laneDisabled s l)
  emit (.wake p (t + 20) (t + 148) (driven.map (wakeLine s))) s

end Sys2Proof.Machine
end

