-- ==== Sys2Proof/Machine/Harness.lean ====
section
/-! DEFINITION. Meanings of the harness rows (03_harnesses.md). -/

namespace Sys2Proof.Machine

/-- Has the slot of (head, segment) received member m? -/
def gotMember (s : State) (h seg m : Nat) : Bool := ((slotOf s h seg).map (fun x => x.received.getLsbD m)).getD false

/-- The first forward of a step that a seeding receiver accepts after the header's LASTSTEP advances AGE, P1 and P2
(Table Groom-9, R145). `t` is the state before. -/
def seedForward (pk : Packet) (t s : State) : State :=
  match headIdx s (pHid pk) with
  | none => s
  | some h => match shardOf s (pHid pk), slotOf s h (pSeg pk), reducerWord s h, s.cue.sheet with
    | some r, some x, some (c, w), some img =>
      let held := (s.grm.seedIn.map (fun y => decide (y.hid = pHid pk))).getD false
      let later := decide ((r.last + 1).toNat ≤ x.step)
      if decide (r.role = roleSeeding) && held && later && gotMember s h (pSeg pk) (pMslot pk) && !gotMember t h (pSeg pk) (pMslot pk) then
        match img.psets[cPset w]? with
        | some p => advanceAge (pHid pk) x.step c p s
        | none => s
      else s
    | _, _, _, _ => s

/-- CONTRIB: a contribution reaches harness intake (R70, R71). -/
def execContrib (p : Port) (pk : Packet) (err : HarnErr) (s : State) : Host.Outcome State Fault Refusal :=
  if pk.kind = kContrib ∧ lengthOk pk then .next (arrive p pk err s) else .next s

/-- PARTIAL: a child's partial or an owner's forward reaches harness intake (R70, R151). -/
def execPartial (p : Port) (pk : Packet) (err : HarnErr) (s : State) : Host.Outcome State Fault Refusal :=
  if pk.kind = kPartial ∧ lengthOk pk then .next (seedForward pk s (arrive p pk err s)) else .next s

/-- INTAKE_RESUME: a contribution waiting in the intake queue enters the tests, after the older ones of its key (R77, R79, R85,
R86, R88, R117). -/
def execIntakeResume (k : Nat) (err : HarnErr) (s : State) : Host.Outcome State Fault Refusal :=
  match s.harn.intake[k]? with
  | none => .next s
  | some w =>
    let r := intake w.packet err s
    if behind s w.packet (s.harn.intake.take k) then .next s
    else if r.2 then .next r.1
    else
      let t := { r.1 with harn := { r.1.harn with intake := r.1.harn.intake.eraseIdx k } }
      .next (if w.packet.kind = kPartial then seedForward w.packet s t else t)

/-- SPILL_DONE: the store is read, with what its check reports, and the image of an evicted slot is written; with ZERO = 1 the
sum has no image (R69, R89, R90, R92) (DEDUCED, log 52). -/
def execSpillDone (idx : Fin 32768) (err : HarnErr) (s : State) : Host.Outcome State Fault Refusal :=
  match s.harn.slots.find? (fun x => decide (x.index = idx.val) && decide (x.st = .spilling)) with
  | none => .next s
  | some x =>
    if !carriageTurn s 2 x.issue then .next s else
    let s := slotError x.head x.seg err s
    match slotOf s x.head x.seg with
    | none => .next s
    | some y =>
      if y.st = .fenced then .next (moveSlots s)
      else
        let s := if y.zero then s else { s with dram := memWrite s.dram (spillAddr y.image) (imageBytes y) }
        .next (moveSlots (modSlot x.head x.seg (fun z => { z with st := .spilled, index := residents + z.image, acc := [] })
          { s with harn := { s.harn with spills := satAdd 0xFFFF_FFFF s.harn.spills 1 } }))

/-- RELOAD_DONE: an image is read back, with what its accesses and the check of the descriptor report; the slot is FILLING, FIRED if
it meets the fire rule, or FENCED (R69, R90, R92) (DEDUCED, log 52). -/
def execReloadDone (idx : Fin 32768) (err : ReloadErr) (s : State) : Host.Outcome State Fault Refusal :=
  match s.harn.slots.find? (fun x => decide (x.index = idx.val) && decide (x.st = .reloading)) with
  | none => .next s
  | some x =>
    if !carriageTurn s 2 x.issue then .next s else
    let s := slotError x.head x.seg err.harn (if x.zero then s else readErrors (spillAddr x.image) 3072 err.dram s)
    let back (y : Slot) : Slot := { y with
      st := .filling
      acc := if y.zero then List.replicate y.seglen 0
        else (imageAcc s.dram y y.image).zipIdx.map (fun a => if y.void.getLsbD a.2 then 0 else a.1) }
    if (slotOf s x.head x.seg).any (fun y => decide (y.st = .fenced)) then .next (settle (moveSlots s)) else
    .next (settle (moveSlots (testFire x.head x.seg (modSlot x.head x.seg back s))))

/-- SCALE_WINDOW_FILL: an entry of the scale window is filled from LPDDR6 (R85). -/
def execScaleWindowFill (head : Fin 4096) (seg : BitVec 24) (errs : List AccErr) (s : State) : Host.Outcome State Fault Refusal :=
  if mayFill s head.val seg.toNat ∧ carriageClear s 2 then match s.harn.heads[head.val]? with
    | some hd => .next (fillEntry head.val seg.toNat (readErrors (scaleAddr hd seg.toNat 0) 4 errs s))
    | none => .next s
  else .next s

/-- Is a fired slot at a seeding receiver released without update (Table Groom-9)? -/
def seedDrops (sh : SheetHead) (x : Slot) : Bool := sh.root && x.hasFired && x.dropped

/-- The stages that hold a slot have ended (R82, R151): at a forwarding module the parent's acceptance and the IN digest; at a
root multicast and digest; at an owner the partner's acceptance too. -/
def slotReady (s : State) (h seg : Nat) : Bool := match sheetHead s h, slotOf s h seg with
  | some sh, some x =>
    let mirrored := (shardOf s sh.hid).any (fun r => decide (r.role = roleOwner) && decide (r.partner ≠ 0))
    if !x.hasFired then false
    else if !sh.root then x.accepted && x.inDigest && (!mirrored || x.fwdAccepted)
    else if seedDrops sh x then x.inDigest
    else
      let stages :=
        if ((reducerWord s h).map (fun w => cKind w.2)).getD 0 = cProject then
          -- a PROJECT's slot is read no more once its C and e1, or its cast, are there (R166, R170)
          x.inDigest && s.prj.bands.any (fun b => decide (b.head = h) && decide (b.step = x.step) && b.staged.contains seg)
        else match s.harn.jobs.find? (fun j => decide (j.head = h) && decide (j.seg = seg) && !j.bcast && !j.band && decide (j.step = x.step)) with
          | some j => jobOver s j
          | none => false
      stages && (!mirrored || x.fwdAccepted)
  | _, _ => false

/-- SLOT_RELEASE: a slot that no later stage reads any more is released, BASE advances and is advertised, and the head's step
may advance (R26, R82, R92). -/
def execSlotRelease (head : Fin 4096) (seg : BitVec 24) (err : HarnErr) (s : State) : Host.Outcome State Fault Refusal :=
  let h := head.val
  let g := seg.toNat
  let s1 := endJobs h g (slotError h g err s)
  if slotReady s1 h g then
    let n := ((slotOf s1 h g).map (·.step)).getD 0
    let mine (j : Job) : Bool := decide (j.head = h) && decide (j.seg = g) && !j.bcast && !j.band && decide (j.step = n)
    let s2 := { s1 with harn := { s1.harn with jobs :=
      (s1.harn.jobs.filter (fun j => !(mine j && j.writesDone))).map (fun j => if mine j then { j with released := true } else j) } }
    .next (releaseSlot h g s2)
  else .next (settle s1)

/-- Has a peer's WINDOW shown segment `seg` of step `n` accepted (R74)? -/
def covers (step : BitVec 32) (base n seg : Nat) : Bool :=
  let d := signed 32 (step - BitVec.ofNat 32 n).toNat
  decide (d > 0) || (decide (d = 0) && decide (seg < base))

/-- WINDOW: the parent or the partner advertises a head's step and BASE; what it covers is accepted (R74, R82, R151). -/
def execWindow (p : Port) (pk : Packet) (s : State) : Host.Outcome State Fault Refusal :=
  if pk.kind = kWindow ∧ lengthOk pk then
    let s := takeHanded p pk s
    let step := pStep pk
    let base := pSeg pk
    match headIdx s (pHid pk) with
    | none => .next s
    | some h => match sheetHead s h with
      | none => .next s
      | some sh =>
        let fromPartner := (shardOf s sh.hid).any (fun r => decide (r.role = roleOwner) && addrOf s r.partner == some pk.src)
        let rest := s.harn.peers.filter (fun x => !(x.1 == pHid pk && decide (x.2.1 = p)))
        .next { s with harn := { s.harn with
          peers := rest ++ [(pHid pk, p, step, base)]
          slots := s.harn.slots.map (fun x =>
            if x.head = h ∧ covers step base x.step x.seg then
              (if sh.root || fromPartner then { x with fwdAccepted := x.forwarded || x.fwdAccepted } else { x with accepted := x.sentUp || x.accepted })
            else x) } }
  else .next s

end Sys2Proof.Machine
end

