-- ==== Sys2Proof/Machine/Stages.lean ====
section
/-! DEFINITION. Meanings of the update, multicast and digest stages, of MCAST, and of BROADCAST and MOVE
(05_groom_and_master_state.md, 08 R205 to R207). -/

namespace Sys2Proof.Machine

/-- The reducing job of a segment. -/
def jobOf (s : State) (h seg n : Nat) : Option Job := s.harn.jobs.find? (isJob h seg n false false)

/-- Does a seeding receiver apply the forward of a segment (Table Groom-9)? -/
def seedApplies (s : State) (hid : BitVec 16) (seg : Nat) : Bool := match s.grm.seedIn with
  | some x => x.hid == hid && x.map.contains seg
  | none => false

/-- An update that may be issued but for leave and the clipping factor (R149): its sheet head, slot, cue, shard and parameters. -/
structure Update where
  sh   : SheetHead
  x    : Slot
  cue  : Nat
  word : CueWord
  r    : Shard
  p    : PSet
  seed : W64
  deriving DecidableEq, Repr

/-- Are state writes of a segment still queued? The reads of its next update are served after them (R134). -/
def writesQueued (s : State) (h g : Nat) : Bool :=
  s.harn.jobs.any (fun j => decide (j.head = h) && decide (j.seg = g) && !j.bcast && !j.band && j.wReady && !j.writesDone)

/-- The update of a fired segment, with permission, nothing of R145, R150 and R318 in its way, and its unit at hand. -/
def updateDue (s : State) (h g : Nat) : Option Update :=
  match sheetHead s h, firedSlot s h g, reducerWord s h, s.cue.sheet with
  | some sh, some x, some (c, w), some img =>
    match shardOf s sh.hid, img.psets[cPset w]? with
    | some r, some p =>
      let n := x.step
      if !sh.root ∨ cKind w ≠ cReduceUpdate ∨ (jobOf s h g n).isSome ∨ writesQueued s h g ∨ !permitted s n c ∨ filling s sh.hid ∨
          unitHeld s unitGroom ∨ zeroPending s sh.hid n c ∨ resumeDone s sh.hid n g then none
      else some ⟨sh, x, c, w, r, p, img.seed⟩
    | _, _ => none
  | _, _, _, _ => none

/-- At a seeding receiver, a forward that is not applied is released without update (Table Groom-9). -/
def seedSkips (s : State) (u : Update) : Bool := decide (u.r.role = roleSeeding) && !seedApplies s u.sh.hid u.x.seg

/-- The clipping factor and the grant of an update that may be issued now (R142, R149). -/
def updateTokens (s : State) (u : Update) : Option (ZF × Grant) :=
  if seedSkips s u then none
  else match clipFactor s u.x.step u.word u.p, grantFor s u.x.step u.cue u.word with
    | some cf, some gr => if mayIssueGroom s gr then some (cf, gr) else none
    | _, _ => none

/-- The launched instance of a cue, not ended, and its word, where the cue is of a kind. -/
def running (s : State) (n c k : Nat) : Option (Inst × CueWord) := match instOf s n c, cueWord s c with
  | some i, some w =>
    if i.launched && decide (i.st ≠ .done) && decide (i.st ≠ .failed) && decide (cKind w = k) then some (i, w) else none
  | _, _ => none

/-- A BROADCAST's next segment, where its read may be issued now (R134, R148): head, sheet head, shard and segment. -/
def readDue (s : State) (n c : Nat) : Option (Nat × SheetHead × Shard × Nat) :=
  match running s n c cBroadcast with
  | none => none
  | some (i, w) => match headIdx s (cHid w), shardOf s (cHid w) with
    | some h, some r => match sheetHead s h with
      | none => none
      | some sh =>
        if i.nextSeg ≥ segsOf sh.len ∨ filling s sh.hid ∨ unitHeld s unitGroom ∨ !carriageClear s 1 then none
        else some (h, sh, r, i.nextSeg)
    | _, _ => none

/-- May the residual of a band be computed now (R114, R134, R169)? -/
def residualDue (s : State) (b : Band) : Bool :=
  decide (b.st = .residual) && !unitHeld s unitGroom && permitted s b.step b.cue && carriageClear s 3

/-- The instances that could use the Groom engine now; the residuals of a PROJECT run on its datapath (Table Projection-3). -/
def groomReady (s : State) : List (Nat × Nat) :=
  (s.prj.bands.filter (residualDue s)).map (fun b => (b.step, b.cue)) ++
  s.harn.slots.filterMap (fun x => (updateDue s x.head x.seg).bind (fun u => (updateTokens s u).map (fun _ => (x.step, u.cue)))) ++
  (launchedInsts s).filterMap (fun i => (readDue s i.1 i.2.1).map (fun _ => (i.1, i.2.1)))

/-- The update of a segment runs: its state words are read, with what the check reports, and its new words are formed (R142 to
R146). -/
def runUpdate (h : Nat) (u : Update) (cf : ZF) (gr : Grant) (errs : List AccErr) (err : HarnErr) (s : State) : State :=
  let g := u.x.seg
  let n := u.x.step
  let s := slotError h g err (advanceAge u.sh.hid n u.cue u.p (readErrors (stateAddr u.r (256 * g)) (8 * u.x.seglen) errs s))
  let x := (slotOf s h g).getD u.x
  let r := (shardOf s u.sh.hid).getD u.r
  let words := readWords s r (256 * g) x.seglen
  let outs := (List.range x.seglen).map (fun i =>
    groomElem u.p r.p1 r.p2 (words.getD i 0) (slotGrad x i) cf
      (fun site => srDraw u.seed (BitVec.ofNat 64 n) u.sh.hid site (BitVec.ofNat 32 (256 * g + i))))
  let fl := outs.foldl (fun a o => a ||| o.flags) 0
  let s := noteFlags n u.cue fl (grmFlags fl (startIssue gr.id s))
  let s := snoop h g n 3 s
  let s := modSamples h g n (fun y => { y with
    ready := y.ready ++ [4, 6], drift := some (driftOf ((outs.drop (64 * y.block)).take 64)) }) s
  let s := modSlot h g drainingNow s
  let s := { s with grm := { s.grm with segCount := s.grm.segCount + 1 } }
  let s := modHStep n h (fun y => { y with updated := true }) s
  addJob { head := h, seg := g, step := n, cue := u.cue, bcast := false, wReady := true, issue := s.issued, grant := gr.id
           w := outs.map (fun o => wordW o.word), state := outs.map (·.word) } { s with issued := s.issued + 1 }

/-- GROOM_ISSUE: the update of a fired segment starts: fire token, leave, permission and clipping factor held, and its cue first in
sheet order (R114, R142 to R146, R149, R150). At a seeding receiver a forward that is not applied is set to be released
(Table Groom-9) (DESIGN CHOICE, log 11). -/
def execGroomIssue (head : Fin 4096) (seg : BitVec 24) (errs : List AccErr) (err : HarnErr) (s : State) :
    Host.Outcome State Fault Refusal :=
  let h := head.val
  match updateDue s h seg.toNat with
  | none => .next s
  | some u =>
    if seedSkips s u then .next (modSlot h seg.toNat (fun y => { drainingNow y with dropped := true }) s)
    else match updateTokens s u with
      | some (cf, gr) => if sheetFirst s u.x.step u.cue (groomReady s) then .next (runUpdate h u cf gr errs err s) else .next s
      | none => .next s

/-- GROOM_WRITES_DONE: the state writes of a segment are done, in the Carriage's order (R134); LASTSTEP follows the step's last (R145, R149) (DEDUCED, log 63). -/
def execGroomWritesDone (head : Fin 4096) (seg : BitVec 24) (s : State) : Host.Outcome State Fault Refusal :=
  let h := head.val
  let g := seg.toNat
  match sheetHead s h, s.harn.jobs.find? (fun j => decide (j.head = h) && decide (j.seg = g) && !j.bcast && !j.band && !j.writesDone && j.wReady) with
  | some sh, some j =>
    if !carriageTurn s 1 j.issue then .next s else
    let s := match shardOf s sh.hid with
      | some r => writeWords r (256 * g) j.state s
      | none => s
    let s := endIssue j.grant s
    let s := if j.released then dropJob h g j.step false false s
      else modJob h g j.step false false (fun y => { y with writesDone := true, state := [] }) s
    -- a seeding receiver casts nothing: its applied segment goes on when its writes are done
    let s := if shardRole s sh.hid = roleSeeding then modSlot h g (fun y => { y with dropped := true }) (dropJob h g j.step false false s) else s
    .next (settle (checkLast h j.step s))
  | _, _ => .next s

/-- May a cast job be sent now: compared at an understudy, or with egress credit for all its copies (R25, R152)? -/
def mcastDue (s : State) (j : Job) : Bool := match sheetHead s j.head with
  | some sh =>
    let pk := jobPacket s sh (castDst s j.cue) j
    j.cast && !j.sent && (decide (shardRole s sh.hid = roleUnderstudy) || decide (copiesOf (mcastWait j.head sh pk s) = 0) || localReady s (pkCells pk))
  | none => false

/-- The job that is sent next for a segment: one that may be sent, first in sheet order (R114, R115). -/
def unsentJob (s : State) (h g : Nat) : Option Job :=
  s.harn.jobs.find? (fun j => decide (j.head = h) && decide (j.seg = g) && mcastDue s j &&
    sheetFirst s j.step j.cue ((s.harn.jobs.filter (mcastDue s)).map (fun k => (k.step, k.cue))))

/-- A job that no slot waits for ends with its last stage. -/
def endJob (j : Job) (s : State) : State := if j.bcast || j.band then settle (endJobs j.head j.seg s) else s

/-- MULTICAST: a cast segment is multicast to the head's group with egress credit held for all its copies, or compared at an
understudy, in sheet order (R25, R114, R147, R148, R152, R282). -/
def execMulticast (head : Fin 4096) (seg : BitVec 24) (s : State) : Host.Outcome State Fault Refusal :=
  let h := head.val
  let g := seg.toNat
  match sheetHead s h, unsentJob s h g with
  | some sh, some j =>
    let pk := jobPacket s sh (castDst s j.cue) j
    let w := mcastWait h sh pk s
    let sent (bufs : List Nat) (s : State) : State :=
      modJob h g j.step j.bcast j.band (fun y => { y with sent := true, bufs := y.bufs ++ bufs }) s
    if shardRole s sh.hid = roleUnderstudy then
      .next (endJob j (compareEntry sh.hid (BitVec.ofNat 32 j.step) g true (compareBytes pk) (sent [] s)))
    else if copiesOf w = 0 then .next (endJob j (sent [] s))
    else .next (endJob j (enterLocal w (sent [s.swc.nextBuf] s)))
  | _, _ => .next s

/-- The instance of a fired slot whose input digest is made without a job: at a forwarding module, for a forward that is dropped, and for
a PROJECT (R205). -/
def inputDue (s : State) (x : Slot) : Option (Nat × Nat) := match sheetHead s x.head, reducerWord s x.head with
  | some sh, some (c, w) =>
    if x.hasFired ∧ !x.inDigest ∧ (!sh.root ∨ x.dropped ∨ cKind w = cProject) then some (x.step, c) else none
  | _, _ => none

/-- The instances that could use the Digest engine now. -/
def digestReady (s : State) : List (Nat × Nat) :=
  (s.harn.jobs.filter (fun j => j.cast && !j.digest)).map (fun j => (j.step, j.cue)) ++ s.harn.slots.filterMap (inputDue s)

/-- Does the Digest engine serve this instance now (R114, R115)? -/
def digestTurn (s : State) (n c : Nat) : Bool := sheetFirst s n c (digestReady s)

/-- DIGEST_DONE: the segment digests of a segment are in the buffer, in sheet order; `err` is what the check of the harness store
reports as the accumulators are read (R92, R114, R205, R207). -/
def execDigestDone (head : Fin 4096) (seg : BitVec 24) (err : HarnErr) (s : State) : Host.Outcome State Fault Refusal :=
  let h := head.val
  let g := seg.toNat
  match sheetHead s h with
  | none => .next s
  | some sh =>
    if unitHeld s unitDigest ∨ !digRoom s then .next s
    else match s.harn.jobs.find? (fun j => decide (j.head = h) && decide (j.seg = g) && j.cast && !j.digest && digestTurn s j.step j.cue) with
      | some j =>
        let s := modJob h g j.step j.bcast j.band (fun y => { y with digest := true }) s
        let dst := castDst s j.cue
        if j.bcast then .next (endJob j (addDig sh.hid j.step 4 g (digOut 4 dst sh.hid j) s))
        else if j.band then .next (endJob j (addDig sh.hid j.step 2 g (digOut 2 dst sh.hid j) s))
        else
          let s := inputDigest h g sh err s
          let s := addDig sh.hid j.step 2 g (digOut 2 dst sh.hid j) s
          .next (if j.wReady then addDig sh.hid j.step 3 g (digW sh.hid j.step g j.w) s else s)
      | none => match (slotOf s h g).bind (inputDue s) with
        | some (n, c) => if digestTurn s n c then .next (inputDigest h g sh err s) else .next s
        | none => .next s
where
  inputDigest (h g : Nat) (sh : SheetHead) (err : HarnErr) (s : State) : State :=
    let s := slotError h g err s
    match slotOf s h g with
    | some x => modSlot h g (fun y => { y with inDigest := true }) (addDig sh.hid x.step 1 g (digIn sh x) s)
    | none => s

def partCode : DigestPart → Nat
  | .inp => 1 | .out => 2 | .w => 3 | .bcast => 4

/-- HEAD_DIGEST_FOLD: the segment digests of a part are folded in segment order (R206). Of a head that two BROADCAST cues of one step name,
the one BCAST digest covers what stands in the buffer when the fold comes (DESIGN CHOICE, log 101). -/
def execHeadDigestFold (head : Fin 4096) (step : Nat) (part : DigestPart) (s : State) : Host.Outcome State Fault Refusal :=
  match sheetHead s head.val, openStep s step with
  | some sh, some _ =>
    let pc := partCode part
    let mine := s.dig.buffer.filter (fun d => d.hid == sh.hid && decide (d.step = step) && decide (d.part = pc))
    let segs := segsOf sh.len
    if unitHeld s unitDigest ∨ mine.length < segs then .next s
    else
      let sorted := sortBy (fun a b => decide (a.seg ≤ b.seg)) mine
      let dst := match part with
        | .inp => wantedFmt sh true
        | .w => 5
        | .out => ((reducer s head.val).map (castDst s)).getD 0
        | .bcast => ((s.cue.sheet.bind (fun i => i.cues.find? (fun c => decide (cKind c = cBroadcast) && cHid c == sh.hid))).map (fun c => (cConv c).dst)).getD 0
      let hash := sha3 (digHeader (pc + 0x80) dst sh.hid 0 step segs ++ sorted.flatMap (·.hash))
      let rest := s.dig.buffer.filter (fun d => !(d.hid == sh.hid && decide (d.step = step) && decide (d.part = pc)))
      let s := { s with dig := { s.dig with buffer := rest } }
      .next (modHStep step head.val (fun y => { y with digests := y.digests ++ [(pc, hash)] }) s)
  | _, _ => .next s

/-! ### MCAST -/

/-- Is a head the upper head of a PROJECT at a root of this module (R163)? -/
def isUpper (s : State) (hid : BitVec 16) : Bool := match s.cue.sheet with
  | some sh => sh.cues.any (fun c => decide (cKind c = cProject) && cUhid c == hid && ((findHead sh (cHid c)).map (fun x => x.2.root)).getD false)
  | none => false

/-- Take next scale bytes into SCALES, count those with OVF, and mark the segment's multicast as passed (R84, R85, R203). -/
def takeScales (h g : Nat) (sh : SheetHead) (pk : Packet) (s : State) : State := match s.harn.heads[h]? with
  | none => s
  | some hd =>
    let d := signed 32 (pStep pk - BitVec.ofNat 32 hd.step).toNat
    let blocks := (segLen sh g + 63) / 64
    let again := if d = 0 then hd.passedNow.contains g else hd.passed.contains g
    let next := (List.range blocks).map (fun b => byteAt pk.bytes (16 + b))
    let s := if headScaled sh then writeScales h g blocks (next.map scaleExp) s else s
    let s := if headScaled sh ∧ !again then countHead ((hd.step : Int) + d).toNat h (next.countP (·.getLsbD 6)) 0 false s else s
    if d = 0 then modHead h (fun x => { x with passedNow := x.passedNow ++ [g] }) s
    else if d = -1 then modHead h (fun x => { x with passed := x.passed ++ [g] }) s
    else s

/-- A segment of S for the PROJECT cues over an upper head; a format the arrays cannot take is void (R171). -/
def takeUpper (h g : Nat) (sh : SheetHead) (pk : Packet) (s : State) : State :=
  let n := segLen sh g
  let ranked := match s.cue.sheet with
    | some i => i.cues.any (fun c => decide (cKind c = cProject) && cUhid c == sh.hid && decide (cRank c ≠ 0))
    | none => false
  let bad := ranked && decide (pFmt pk ≥ 3)
  let s := if bad then prjFlags 0x80 s else s
  let codes := match fmtOf (pFmt pk) with
    | some f => (unpackCodes f n (pk.bytes.drop 32)).map (BitVec.ofNat 32)
    | none => []
  let scales := if bad then List.replicate 4 0x80 else (pk.bytes.drop 12).take 4
  let fmt := BitVec.ofNat 4 (if bad then 2 else pFmt pk)
  let rest := s.prj.upper.filter (fun u => !(decide (u.head = h) && u.step == pStep pk && decide (u.seg = g)))
  { s with prj := { s.prj with upper := rest ++ [⟨h, pStep pk, g, fmt, codes, scales⟩] } }

/-- Does a multicast find its own cast missing at an understudy, and no room in the compare buffer to be kept there? -/
def compareFull (s : State) (pk : Packet) : Bool := match headIdx s (pHid pk) with
  | some h => (sheetHead s h).any (fun sh => sh.root && decide (shardRole s sh.hid = roleUnderstudy) && decide (pSeg pk < segsOf sh.len) &&
      decide (pCount pk = segLen sh (pSeg pk))) && !meets s (pHid pk) (pStep pk) (pSeg pk) false && !compareRoom s (compareBytes pk).length
  | none => false

/-- MCAST: at a forwarding module its next scales are taken in and it is passed on to the group, and kept as S where the head
is an upper head; at an understudy it is compared, once the compare buffer has room for it (R84, R152, R165, R282). -/
def execMcast (p : Port) (pk : Packet) (s : State) : Host.Outcome State Fault Refusal :=
  if pk.kind = kMcast ∧ lengthOk pk ∧ !compareFull s pk then
    let s := takeHanded p pk s
    let bcast := (byteAt pk.bytes 3).getLsbD 0
    match headIdx s (pHid pk) with
    | none => .next s
    | some h => match sheetHead s h with
      | none => .next s
      | some sh =>
        let g := pSeg pk
        if g ≥ segsOf sh.len ∨ pCount pk ≠ segLen sh g then .next s
        else if sh.root then
          (if shardRole s sh.hid = roleUnderstudy then
            .next (compareEntry sh.hid (pStep pk) g false (compareBytes pk) s)
          else .next s)
        else
          let s := if bcast then s else takeScales h g sh pk s
          let s := if isUpper s sh.hid ∧ !bcast then takeUpper h g sh pk s else s
          .next (originate (harnPort sh.hid) { pk with dest := 0xFFFF, src := srcAddr s, resend := false } (group s h) s)
  else .next s

/-! ### BROADCAST and MOVE -/

/-- BROADCAST_READ: the state words of the next segment are read, the cue first in sheet order; its W is in working space (R114,
R134, R148). -/
def execBroadcastRead (step cue : Nat) (errs : List AccErr) (s : State) : Host.Outcome State Fault Refusal :=
  match readDue s step cue with
  | none => .next s
  | some (h, sh, r, g) =>
    if !sheetFirst s step cue (groomReady s) then .next s
    else
      let n := segLen sh g
      let s := readErrors (stateAddr r (256 * g)) (8 * n) errs s
      let ws := (readWords s r (256 * g) n).map wordW
      let s := modInst step cue (fun i => { i with nextSeg := g + 1, finished := decide (g + 1 = segsOf sh.len) }) s
      .next (addJob { head := h, seg := g, step := step, cue := cue, bcast := true, wReady := true, writesDone := true, w := ws } s)

/-- A move starts: its first access sets FIRST_AT, and it takes an issue number at the Carriage (R134, R464). -/
def startMove (n c : Nat) (s : State) : State :=
  noteFirst n c (modInst n c (fun i => { i with started := true, issue := s.issued }) { s with issued := s.issued + 1 })

/-- A MOVE that may start now: launched, not started, and for ZERO_MOMENTS the updates launched before it done (R150). -/
def moveDue (s : State) (n c : Nat) : Option CueWord := match running s n c cMove with
  | some (i, w) =>
    if i.started then none
    else if cMoveOp w ≠ 2 then some w
    else match shardOf s (cZeroHid w) with
      | some r => if updatePending s r.hid n c ∨ filling s r.hid then none else some w
      | none => none
  | none => none

/-- Moves start in launch order, and in sheet order within one tick (R114, R134): no MOVE that may start now comes before this one. -/
def moveFirst (s : State) (n c : Nat) : Bool :=
  (launchedInsts s).all (fun x => (moveDue s x.1 x.2.1).isNone || !before s x.1 x.2.1 n c)

/-- The MOVE of an instance, where it is one of an operation and its turn. -/
def moveTurn (s : State) (n c op : Nat) : Option CueWord :=
  (moveDue s n c).filter (fun w => decide (cMoveOp w = op) && moveFirst s n c)

/-- LOAD: scratch pages are copied into working space (R141). -/
def execLoad (step cue : Nat) (errs : List AccErr) (s : State) : Host.Outcome State Fault Refusal :=
  match moveTurn s step cue 0 with
  | some w =>
    let n := 4096 * cPages w
    let a := scratchBase + 4096 * cPage w
    let s := readErrors a n errs s
    .next (startMove step cue { s with ws := memWrite s.ws (64 * cWsoff w) (memRead s.dram a n) })
  | none => .next s

/-- STORE: working space is copied into scratch pages (R141). -/
def execStore (step cue : Nat) (s : State) : Host.Outcome State Fault Refusal :=
  match moveTurn s step cue 1 with
  | some w =>
    .next (startMove step cue { s with dram := memWrite s.dram (scratchBase + 4096 * cPage w) (memRead s.ws (64 * cWsoff w) (4096 * cPages w)) })
  | none => .next s

/-- State words with their moments zero. -/
def zeroMoments (n : Nat) (r : Shard) (s : State) : State :=
  (List.range n).foldl (fun s e => { s with dram := memClear s.dram (stateAddr r e + 4) 4 }) s

/-- ZERO_MOMENTS: M and V of a shard become zero, AGE 0, P1 and P2 one, after the updates launched before it; it reads the state
words whose W it keeps (R141, R150). -/
def execZeroMoments (step cue : Nat) (errs : List AccErr) (s : State) : Host.Outcome State Fault Refusal :=
  match moveTurn s step cue 2 with
  | some w => match shardOf s (cZeroHid w) with
    | none => .next s
    | some r =>
      let s := zeroMoments r.len r (readErrors (stateAddr r 0) (8 * r.len) errs s)
      .next (startMove step cue (modShard r.hid (fun r => { r with age := 0, p1 := zOne, p2 := zOne }) s))
  | none => .next s

/-- MOVE_DONE: the accesses of a move are done, in the Carriage's order (R134). -/
def execMoveDone (step cue : Nat) (s : State) : Host.Outcome State Fault Refusal :=
  match running s step cue cMove with
  | some (i, _) =>
    if i.started ∧ !i.finished ∧ carriageTurn s 3 i.issue then .next (settle (modInst step cue (fun i => { i with finished := true }) s))
    else .next s
  | none => .next s

/-- PATROL_SCRUB: one access is scrubbed, when no request waits at the Carriage (R133, R134) (DEDUCED, log 65). -/
def execPatrolScrub (access : Nat) (err : Option AccErrKind) (s : State) : Host.Outcome State Fault Refusal :=
  if access ≥ dataSpaceAccesses then .fault .outsideDataSpace
  else if !carriageClear s 6 then .next s
  else match err with
    | none => .next s
    | some k => .next (accessError access k s)

end Sys2Proof.Machine
end

