-- ==== Sys2Proof/Machine/Project.lean ====
section
/-! DEFINITION. The projection path: the bands of a PROJECT at a root and the passes of the arrays
(06_projection_and_upper_levels.md R158 to R175). -/

namespace Sys2Proof.Machine

/-! ### Shape of a band -/

/-- First segment and number of segments of a band of a head of `len` elements; one segment for RANK 0b00. -/
def bandSegs (w : CueWord) (len k : Nat) : Nat × Nat :=
  if cRank w = 0 then (k, 1)
  else
    let per := cCols w / 256
    let rows := len / cCols w
    (k * cBandrows w * per, (min (cBandrows w) (rows - k * cBandrows w)) * per)

/-- The band of a segment. -/
def bandOf (w : CueWord) (seg : Nat) : Nat := if cRank w = 0 then seg else seg / (cCols w / 256) / cBandrows w

/-- Rows of a band: the first, and how many. -/
def bandRows (w : CueWord) (len k : Nat) : Nat × Nat :=
  (k * cBandrows w, min (cBandrows w) (len / cCols w - k * cBandrows w))

/-- Staging a band takes: 3 bytes an element, and a scale byte a block (R166) (DEDUCED, log 62). -/
def bandStaging (w : CueWord) (len k : Nat) : Nat × Nat :=
  if cRank w = 0 then (0, 0) else let n := 256 * (bandSegs w len k).2; (3 * n, n / 64)

/-- Does a band hold staging? -/
def stagingHeld (b : Band) : Bool := match b.st with
  | .form | .project | .send | .local | .residual => true
  | _ => false

def bandWord (s : State) (b : Band) : Option (SheetHead × CueWord) :=
  (sheetHead s b.head).bind (fun sh => (cueWord s b.cue).map (fun w => (sh, w)))

/-- Staging in use: elements' bytes, and scale bytes. -/
def stagingUsed (s : State) : Nat × Nat :=
  s.prj.bands.foldl (fun a b => match bandWord s b with
    | some (sh, w) => if stagingHeld b then let x := bandStaging w sh.len b.band; (a.1 + x.1, a.2 + x.2) else a
    | none => a) (0, 0)

/-- Is there room for a band in the 12 MiB and the 64 KiB of scale bytes (R166)? -/
def stagingFits (s : State) (w : CueWord) (len k : Nat) : Bool :=
  let u := stagingUsed s
  let x := bandStaging w len k
  decide (u.1 + x.1 ≤ 12582912) && decide (u.2 + x.2 ≤ 65536)

def isBand (h n k : Nat) (b : Band) : Bool := decide (b.head = h) && decide (b.step = n) && decide (b.band = k)
def findBand (s : State) (h n k : Nat) : Option Band := s.prj.bands.find? (isBand h n k)
def modBand (h n k : Nat) (f : Band → Band) (s : State) : State :=
  { s with prj := { s.prj with bands := modFirst (isBand h n k) f s.prj.bands } }

/-- Oldest band k of head h in a stage. -/
def bandIn (s : State) (h k : Nat) (p : Band → Bool) : Option Band :=
  s.prj.bands.find? (fun b => decide (b.head = h) && decide (b.band = k) && p b)

/-! ### Form and stage (R166, R170) -/

/-- Do residuals read as zero: in the first instance after acceptance, and under RZERO (R172)? -/
def residualZero (s : State) (n : Nat) (w : CueWord) : Bool :=
  cRzero w || ((s.cue.sheet.map (fun i => decide (i.firstStep = n))).getD true)

/-- The Z16 residual of an element, widened. -/
def residual (s : State) (hd : Head) (n : Nat) (w : CueWord) (e : Nat) : ZF :=
  if residualZero s n w then ⟨0, 0⟩
  else zField .z16 (memLe s.dram (hd.resAt + 2 * e) 2)

/-- The fired slot of a PROJECT at a root, with its cue, where its instance holds permission. -/
def projectSlot (s : State) (h g : Nat) : Option (SheetHead × Slot × Nat × CueWord) :=
  match sheetHead s h, firedSlot s h g, reducerWord s h with
  | some sh, some x, some (c, w) => if sh.root && decide (cKind w = cProject) && permitted s x.step c then some (sh, x, c, w) else none
  | _, _, _ => none

/-- A segment of a PROJECT that may be formed: fired, its band not formed or staged so far and with staging, and the residual of the
step before written (R166, R173). -/
def mayForm (s : State) (h g : Nat) : Bool := match projectSlot s h g with
  | some (sh, x, _, w) =>
    let n := x.step
    let k := bandOf w g
    let b := findBand s h n k
    !s.prj.bands.any (fun b => decide (b.head = h) && decide (b.step < n) && decide (b.band = k) && stagingHeld b) &&
      !teamOut s (slotTeam s x) && !b.any (fun b => b.formed.any (fun y => decide (y.1 = g)) || b.staged.contains g) &&
      (b.isSome || stagingFits s w sh.len k) && carriageClear s 3
  | none => false

/-- The instances with a segment that a Team engine could form now. -/
def formReady (s : State) (team : Nat) : List (Nat × Nat) :=
  ((s.harn.slots.filter (fun y => decide (slotTeam s y = team) && mayForm s y.head y.seg)).filterMap
    (fun y => projectSlot s y.head y.seg)).map (fun p => (p.2.1.step, p.2.2.1))

/-- G' = G + R of a segment, with the flags of Table Formats-7 (R166). -/
def gradResidual (s : State) (hd : Head) (w : CueWord) (x : Slot) : List ZF :=
  (slotGrads x).zipIdx.map (fun z => zAdd z.1 (residual s hd x.step w (256 * x.seg + z.2)))

/-- BAND_FORM: G' = G + R of a fired segment, in sheet order at its Team engine; the slot is DRAINING from then on (R69, R114, R166, R173). `errs` are errors of the
residual's accesses, `err` is what the check of the harness store, or of the engine's add, reports (R92, R133, R411) (DEDUCED, log 62). -/
def execBandForm (head : Fin 4096) (seg : BitVec 24) (errs : List AccErr) (err : HarnErr) (s : State) :
    Host.Outcome State Fault Refusal :=
  let h := head.val
  let g := seg.toNat
  match projectSlot s h g, s.harn.heads[h]? with
  | some (_, x, c, w), some hd =>
    if !mayForm s h g ∨ !sheetFirst s x.step c (formReady s (slotTeam s x)) then .next s
    else if err = .residue then .next (raise { src := srcTeam, index := BitVec.ofNat 4 (slotTeam s x) } s)
    else
      let n := x.step
      let k := bandOf w g
      let s := slotError h g err s
      let s := if residualZero s n w then s else readErrors (hd.resAt + 512 * g) (2 * x.seglen) errs s
      let s := if (findBand s h n k).isSome then s else
        { s with prj := { s.prj with bands := s.prj.bands ++ [{ head := h, cue := c, step := n, band := k }] } }
      let x := (slotOf s h g).getD x
      let out := gradResidual s hd w x
      let fl := out.foldl (fun a z => a ||| z.f) 0
      let s := modSlot h g drainingNow (noteFlags n c fl (prjFlags (fl.setWidth 8) s))
      .next (modBand h n k (fun b => { b with formed := b.formed ++ [(g, out.map (·.v))], info := b.info ++ [(g, x.scale, x.blkovf)] }) s)
  | _, _ => .next s

/-- Round a Z48 result to Z16 with RNE and SAT. -/
def toZ16 (z : ZF) : Nat × Flags := match zVal z.v with
  | none => (fmtVoid .z16, z.f ||| fVoidIn)
  | some d => let r := roundTo .z16 d .rne false 0; (r.1, z.f ||| r.2)

/-- Value of element i of a block of codes under its scale byte; void where the block or the element is. -/
def blockVal (f : SFmt) (codes : List (BitVec 32)) (scale : Byte) (i : Nat) : Val :=
  if scale.getLsbD 7 then none else scaleVal (decodeVal f (codes.getD i 0).toNat) (scaleExp scale)

/-- The upper head of a PROJECT with its index, where its open step is n. -/
def upperOpen (s : State) (w : CueWord) (n : Nat) : Option (Nat × SheetHead × Head) :=
  match headIdx s (cUhid w) with
  | none => none
  | some u => match sheetHead s u, s.harn.heads[u]? with
    | some sh, some hd => if hd.step = n then some (u, sh, hd) else none
    | _, _ => none

/-- Cast one block of values into the upper head's format under its scale in force (R168, R170). -/
def upperCast (s : State) (w : CueWord) (sh : SheetHead) (n blk : Nat) (scale : BitVec 24) (vs : List Val) : CastOut :=
  castSeg ⟨1, 6, sh.fmt.toNat, cPrnd w, cPovf w, 1⟩ vs (fun _ => entryExp scale (blk % 4))
    (fun i => srDraw ((s.cue.sheet.map (·.seed)).getD 0) (BitVec.ofNat 64 n) (cUhid w) 0x22 (BitVec.ofNat 32 (64 * blk + i)))

/-- Blocks of a list of values. -/
def inBlocks (vs : List Val) : List (Nat × List Val) :=
  (List.range ((vs.length + 63) / 64)).map (fun b => (b, (vs.drop (64 * b)).take 64))

/-- A slot whose stages are done is released at once; one that waits for its digest is released by SLOT_RELEASE. -/
def releaseReady (h g : Nat) (s : State) : State := if slotReady s h g then releaseSlot h g s else s

/-! ### Passes (R158 to R161, R165, R167) -/

/-- Is Q[k][j] −1 (R167)? -/
def basisNeg (seed step : W64) (uhid : BitVec 16) (k j : Nat) : Bool :=
  (srDraw seed step uhid 0x20 (BitVec.ofNat 32 (k * 256 + j))).getLsbD 31

/-- One cell: chunks of operand A in ascending order against ±1 (R159, R160). Each chunk is 64 codes and a scale byte; `neg k`
is the sign of B[j][k]. -/
def cell (f : SFmt) (a : List (List (BitVec 32) × Byte)) (neg : Nat → Bool) : ZF :=
  let bad := a.any (fun x => x.2.getLsbD 7 || x.1.any (fun c => decide (c.toNat = fmtVoid f)))
  if bad then ⟨zVoid, fVoidIn⟩
  else
    (a.zipIdx).foldl (fun acc x =>
      let sum : Int := (x.1.1.zipIdx).foldl (fun t c => match decodeVal f c.1.toNat with
        | none => t
        | some d =>
          let u : Int := d.m * 2 ^ (d.q - fmtUnit f).toNat
          if d.neg != neg (64 * x.2 + c.2) then t - u else t + u) 0
      zAdd acc (zRound ⟨decide (sum < 0), sum.natAbs, fmtUnit f + scaleExp x.1.2⟩ 0)) ⟨0, 0⟩

/-- z · 2^−n: a change of exponent (R167). -/
def zShift (n : Nat) (z : ZF) : ZF := match zVal z.v with
  | none => z
  | some d => zRound { d with q := d.q - n } z.f

/-- Stages that passes run in, their rank on an array, and whether a band is in one. -/
def passRank : BandSt → Option Nat
  | .project => some 0
  | .local => some 1
  | .globalRestore => some 2
  | _ => none

/-- Tiles of a band's stage. -/
def tiles (w : CueWord) (len : Nat) (b : Band) : Nat :=
  let rt := ((bandRows w len b.band).2 + 255) / 256
  if b.st = .project then rt else rt * (cCols w / 256)

/-- Inner length K of the stage's passes. -/
def passK (w : CueWord) (b : Band) : Nat := if b.st = .project then cCols w else cRank w

/-- The upper head's result segment g for step n. -/
def upperSeg (s : State) (w : CueWord) (n g : Nat) : Option UpperSeg := match headIdx s (cUhid w) with
  | some u => s.prj.upper.find? (fun x => decide (x.head = u) && x.step == BitVec.ofNat 32 n && decide (x.seg = g))
  | none => none

/-- Have the segments of S that hold elements a to a + m − 1 arrived (R165)? -/
def upperHas (s : State) (w : CueWord) (n a m : Nat) : Bool :=
  (List.range ((a + m + 255) / 256 - a / 256)).all (fun i => (upperSeg s w n (a / 256 + i)).isSome)

/-- Do the operands of a band's stage stand in working space? -/
def operandsThere (s : State) (w : CueWord) (len : Nat) (b : Band) : Bool :=
  if b.st = .globalRestore then
    let r := bandRows w len b.band
    upperHas s w b.step (r.1 * cRank w) (r.2 * cRank w)
  else true

/-- Array that tile t goes to: t mod 4, or the next one in service (R165, R429, Table Faults-4). -/
def tileArray (s : State) (t : Nat) : Nat := takeOver 4 (t % 4) (arrayOut s)

/-- Operand block `i` of row `row`: of C, of the cast P, or of S. -/
def operandBlock (s : State) (w : CueWord) (b : Band) (row i : Nat) : List (BitVec 32) × Byte :=
  let find (l : List (Nat × List (BitVec 32) × Byte)) (j : Nat) := ((l.find? (fun x => decide (x.1 = j))).map (·.2)).getD ([], 0x80)
  match b.st with
  | .project => find b.cCodes (row * (cCols w / 64) + i)
  | .local => find b.pCast (row * (cRank w / 64) + i)
  | _ =>
    let j := row * (cRank w / 64) + i
    match upperSeg s w b.step (j / 4) with
    | some u => ((u.codes.drop (64 * (j % 4))).take 64, u.scales.getD (j % 4) 0x80)
    | none => ([], 0x80)

/-- Format of operand A. -/
def operandFmt (s : State) (w : CueWord) (b : Band) : SFmt := match b.st with
  | .project => .z8e
  | .local => ((headIdx s (cUhid w)).bind (fun u => (sheetHead s u).bind (fun sh => fmtOf sh.fmt.toNat))).getD .z8e
  | _ => ((upperSeg s w b.step ((bandRows w 0 b.band).1 * cRank w / 256)).bind (fun u => fmtOf u.fmt.toNat)).getD .z8m

/-- Codes with the elements of failed words void: word k of the operand holds codes from 64k/width on (R160). -/
def spoil (f : SFmt) (bad : List Nat) (first : Nat) (codes : List (BitVec 32)) : List (BitVec 32) :=
  codes.zipIdx.map (fun c => if bad.contains ((first + c.2) * fmtWidth f / 64) then BitVec.ofNat 32 (fmtVoid f) else c.1)

/-- Rows of a tile: the first, and how many. -/
def tileRows (sh : SheetHead) (w : CueWord) (b : Band) (tile : Nat) : Nat × Nat :=
  let rows := bandRows w sh.len b.band
  let r0 := 256 * (tile / (if b.st = .project then 1 else cCols w / 256))
  (rows.1 + r0, min 256 (rows.2 - r0))

/-- Operand A of a tile, row by row in blocks, with the elements of failed words void. -/
def tileOperand (s : State) (sh : SheetHead) (w : CueWord) (b : Band) (tile : Nat) (bad : List Nat) :
    List (List (List (BitVec 32) × Byte)) :=
  let r := tileRows sh w b tile
  let K := passK w b
  (List.range r.2).map (fun i => (List.range (K / 64)).map (fun c =>
    let o := operandBlock s w b (r.1 + i) c
    (spoil (operandFmt s w b) bad (i * K + 64 * c) o.1, o.2)))

/-- The Wardrobe expands a Z4 operand to Z8m on its way into the array: the elements count, and the void among them (R48, R58, R61,
R158). -/
def expandZ4 (n c : Nat) (f : SFmt) (rows : List (List (List (BitVec 32) × Byte))) (s : State) : State :=
  if f = .z4 then
    let voids := (rows.flatten.map (fun b => if b.2.getLsbD 7 then 64 else b.1.countP (fun c => decide (c.toNat = fmtVoid f)))).sum
    let fl : Flags := if voids = 0 then 0 else fVoidIn
    noteFlags n c fl (noteCast ⟨[], [], [], fl, 0, voids, 64 * rows.flatten.length⟩ s)
  else s

/-- Is tile t of band b ready to issue on its array, apart from the array itself? -/
def tileReady (s : State) (b : Band) (t : Nat) : Bool := match bandWord s b with
  | some (sh, w) => (passRank b.st).isSome && decide (t < tiles w sh.len b) && !b.issued.contains t && permitted s b.step b.cue &&
      operandsThere s w sh.len b && !(operandFmt s w b == .z4 && unitHeld s unitWardrobe)
  | none => false

/-- Is a pass of band b ready for array a under its leave? -/
def passReady (s : State) (a : Fin 4) (b : Band) : Bool := match bandWord s b with
  | some (sh, w) => (List.range (tiles w sh.len b)).any (fun t => decide (tileArray s t = a.val) && tileReady s b t) &&
      (grantFor s b.step b.cue w).any (fun g => mayIssuePass s g a)
  | none => false

/-- Does a pass of an earlier stage wait, ready, for array a? -/
def outranked (s : State) (a : Fin 4) (rank : Nat) : Bool :=
  s.prj.bands.any (fun b => (passRank b.st).any (fun k => decide (k < rank)) && passReady s a b)

/-- The instances with a pass of a stage ready for array a. -/
def arrayReady (s : State) (a : Fin 4) (st : BandSt) : List (Nat × Nat) :=
  (s.prj.bands.filter (fun b => decide (b.st = st) && passReady s a b)).map (fun b => (b.step, b.cue))

/-- Have max(K, 256) arena cycles passed since the array's last pass started (R161)? An arena cycle is 300/141 ticks. -/
def arrayFree (s : State) (a : Fin 4) : Bool := match s.prj.started.find? (fun x => decide (x.1 = a)) with
  | some (_, t, k) => decide ((s.time - t) * 141 ≥ max k 256 * 300)
  | none => true

/-- PASS_ISSUE: a pass of tile t issues on its array with permission, leave and operands held, by stage and then in sheet order;
`bad` are 64-bit words of operand A that fail their check (R114, R160, R161, R165, R175) (DESIGN CHOICE, log 11). -/
def execPassIssue (array : Fin 4) (head : Fin 4096) (band tile : Nat) (bad : List Nat) (s : State) : Host.Outcome State Fault Refusal :=
  match bandIn s head.val band (fun b => tileReady s b tile) with
  | none => .next s
  | some b => match bandWord s b, passRank b.st with
    | some (sh, w), some rank => match grantFor s b.step b.cue w with
      | none => .next s
      | some g =>
        if tileArray s tile ≠ array.val ∨ arrayOut s array.val ∨ !arrayFree s array ∨ !mayIssuePass s g array ∨ outranked s array rank ∨
            !sheetFirst s b.step b.cue (arrayReady s array b.st) then .next s
        else
          let s := expandZ4 b.step b.cue (operandFmt s w b) (tileOperand s sh w b tile bad) (startIssue g.id s)
          let s := if bad.isEmpty then s else
            noteFlags b.step b.cue fVoidIn (prjFlags 2 (raise { src := srcArenaUncorr, sticky := s.prj.sticky.setWidth 64 } s))
          let s := modBand b.head b.step b.band (fun y => { y with issued := y.issued ++ [tile] }) s
          .next { s with prj := { s.prj with
            running := s.prj.running ++ [{ array := array, head := b.head, step := b.step, band := b.band, tile := tile, grant := g.id, bad := bad }]
            started := s.prj.started.filter (fun x => !decide (x.1 = array)) ++ [(array, s.time, passK w b)] } }
    | _, _ => .next s

/-- Results of a tile, row by row: the row, and its cells. -/
def tileCells (s : State) (img : Sheet) (sh : SheetHead) (w : CueWord) (b : Band) (x : Pass) : List (Nat × List ZF) :=
  let c0 := 256 * (x.tile % (if b.st = .project then 1 else cCols w / 256))
  let f := operandFmt s w b
  let step := BitVec.ofNat 64 b.step
  (tileOperand s sh w b x.tile x.bad).zipIdx.map (fun a =>
    ((tileRows sh w b x.tile).1 + a.2,
      if b.st = .project then
        (List.range (cRank w)).map (fun j => cell f a.1 (fun k => basisNeg img.seed step (cUhid w) k j))
      else
        (List.range 256).map (fun j =>
          zShift (Nat.log2 (cRank w)) (cell f a.1 (fun k => basisNeg img.seed step (cUhid w) (c0 + j) k)))))

/-- Keep a tile's results; the stage ends with its last tile. -/
def keepTile (w : CueWord) (len : Nat) (x : Pass) (res : List (Nat × List ZF)) (b : Band) : Band :=
  let seg (row : Nat) : Nat := row * (cCols w / 256) + x.tile % (cCols w / 256)
  let bySeg : List (Nat × List (BitVec 48)) := res.map (fun (r : Nat × List ZF) => (seg r.1, r.2.map ZF.v))
  let b := match b.st with
    | .project => { b with p := b.p ++ res.map (fun (r : Nat × List ZF) => (r.1, r.2.map ZF.v)) }
    | .local => { b with l := b.l ++ bySeg }
    | _ => { b with ghat := b.ghat ++ bySeg }
  let b := { b with passed := b.passed ++ [x.tile] }
  if b.passed.length = tiles w len b then
    { b with issued := [], passed := []
             st := match b.st with
               | .project => .send
               | .local => .residual
               | _ => .out }
  else b

/-- PASS_DONE: the oldest pass of an array writes its Z48 results; one whose checksum fails is discarded and issued again
(R161, R410, R411). -/
def execPassDone (array : Fin 4) (checksumOk : Bool) (s : State) : Host.Outcome State Fault Refusal :=
  match s.prj.running.find? (fun x => decide (x.array = array)) with
  | none => .next s
  | some x =>
    let s := { s with prj := { s.prj with running := dropFirst (fun y => decide (y.array = array)) s.prj.running } }
    let s := endIssue x.grant s
    if !checksumOk then
      let s := modBand x.head x.step x.band (fun b => { b with issued := b.issued.filter (fun t => !decide (t = x.tile)) }) s
      .next (raise { src := srcArray, index := BitVec.ofNat 4 array.val } s)
    else
      let s := { s with prj := { s.prj with passes := s.prj.passes + 1 } }
      match findBand s x.head x.step x.band, s.cue.sheet with
      | some b, some img => match bandWord s b with
        | some (sh, w) =>
          let res := tileCells s img sh w b x
          let fl := res.foldl (fun a r => r.2.foldl (fun a z => a ||| z.f) a) 0
          .next (modBand x.head x.step x.band (keepTile w sh.len x res) (noteFlags x.step b.cue fl (prjFlags (fl.setWidth 8) s)))
        | none => .next s
      | _, _ => .next s

/-! ### Residual (R169, R170) -/

/-- R_new of an element: its code, the flags of its operations and rounding, and whether it was out of range or void (R169). -/
def newResidual (z : ZF) : Nat × Flags × Bool × Bool :=
  let r := toZ16 ⟨z.v, 0⟩
  let void := decide (r.1 = fmtVoid .z16)
  (if void then 0 else r.1, z.f ||| r.2, r.2.getLsbD 0, void)

/-- Results of stage 6 for a segment of a band. -/
def residualsOf (s : State) (w : CueWord) (b : Band) (g : Nat) : List (ZF) :=
  let look (l : List (Nat × List (BitVec 48))) : List (BitVec 48) := ((l.find? (fun x => decide (x.1 = g))).map (·.2)).getD []
  let blk (l : List (Nat × List (BitVec 32) × Byte)) (f : SFmt) (i : Nat) : ZF :=
    match l.find? (fun x => decide (x.1 = 4 * g + i / 64)) with
    | some x => zIn (blockVal f x.2.1 x.2.2 (i % 64))
    | none => ⟨zVoid, fVoidIn⟩
  if cRank w = 0 then
    let f := ((headIdx s (cUhid w)).bind (fun u => (sheetHead s u).bind (fun sh => fmtOf sh.fmt.toNat))).getD .z8e
    let zs := look b.formed
    (List.range zs.length).map (fun i => zSub (zRead (zs.getD i 0)) (blk b.pCast f i))
  else
    let e := ((b.e1.find? (fun x => decide (x.1 = g))).map (·.2)).getD []
    let l := look b.l
    (List.range e.length).map (fun i =>
      zAdd (zField .z16 (e.getD i 0).toNat) (zSub (blk b.cCodes .z8e i) (zRead (l.getD i zVoid))))

/-- RESIDUAL_WRITE: R_new of a band is computed and written, in sheet order at the Groom datapath and in the Carriage's order, and its
staging freed (R114, R134, R169, R170, R172). -/
def execResidualWrite (head : Fin 4096) (band : Nat) (s : State) : Host.Outcome State Fault Refusal :=
  let h := head.val
  match bandIn s h band (fun b => b.st == .residual) with
  | none => .next s
  | some b => match bandWord s b, s.harn.heads[h]? with
    | some (sh, w), some hd =>
      if !residualDue s b ∨ !sheetFirst s b.step b.cue (groomReady s) then .next s
      else
        let r := bandSegs w sh.len band
        let s := (List.range r.2).foldl (fun t i =>
          let g := r.1 + i
          let out := (residualsOf s w b g).map newResidual
          let fl := out.foldl (fun a o => a ||| o.2.1) 0
          let bits : BitVec 8 := fl.setWidth 8 ||| (if out.any (·.2.2.1) then 0x40 else 0) ||| (if out.any (·.2.2.2) then 0x20 else 0)
          let t := noteFlags b.step b.cue fl (prjFlags bits t)
          { t with dram := memWrite t.dram (hd.resAt + 512 * g) (out.flatMap (fun o => leBytes 2 o.1)) }) s
        .next (modBand h b.step band (fun y => { y with
          st := if cRank w = 0 then .out else .globalRestore, formed := [], cCodes := [], e1 := [], l := [] }) s)
    | _, _ => .next s

end Sys2Proof.Machine
end

