-- ==== Sys2Proof/Machine/RegRead.lean ====
section
/-! DEFINITION. Where the registers sit, and the value each holds when it is read (18_registers.md R442, R443, R448 and the field
tables of every register map). -/

namespace Sys2Proof.Machine

/-! ### The map (Table Registers-2 and the register maps) -/

/-- Registers of a block, in order of offset, 8 bytes each. -/
def blockRegs : Nat → List Reg
  | 0 => [.mbxStatus, .mbxSticky, .mbxDropCount]
  | 1 => [.stgNow, .stgCtrl, .stgEpoch, .stgStatus, .stgWall, .stgSticky]
  | 2 => [.cueLoad, .cueRun, .cueStep, .cueSticky, .cueSel, .cueStatus, .cueTiming, .cueMlate]
  | 3 => [.harnStatus, .harnSticky, .harnSpillCount, .harnMbrSel, .harnMbrCnt, .harnDescSel, .harnDescData]
  | 4 => [.wdrSticky, .wdrOvfCount, .wdrVoidCount, .wdrElemCount]
  | 5 => [.grmStatus, .grmSticky, .grmSegCount, .grmSeedIn, .grmSeedOut, .grmMismatch]
  | 6 => [.prjStatus, .prjSticky, .prjPassCount, .prjResUsed]
  | 7 => [.callStatus, .callSticky, .callSel, .callResult]
  | 8 => [.outrCtrl, .outrSticky, .outrSamples, .outrEvents, .outrMiss, .outrSel, .outrHead]
  | 9 => [.digCtrl, .digStatus, .digSticky, .digAudit]
  | 10 => [.laneSel, .laneStatus, .laneEq, .laneErrCount, .laneSticky, .lanePortCtrl, .lanePortStatus, .laneEqStatus]
  | 11 => [.linkSel, .linkCtrl, .linkStatus, .linkPeer, .linkPeerPos, .linkErrCount, .linkSticky]
  | 12 => [.swcCtrl, .swcStatus, .swcSticky, .swcDropCount, .swcCreditLo, .swcCreditHi, .swcRtSel, .swcRtStatic] ++
      [.swcRtSpray, .swcAdapt, .swcMirror, .swcMirrorFlow]
  | 13 => [.schedSel, .schedQuantum, .schedShaper, .schedPolicer, .schedQnow, .schedQstat, .schedSample]
  | 14 => [.leaveCtrl, .leaveStatus, .leaveSticky]
  | 15 => [.boxStatus, .boxSeq, .boxSticky]
  | 16 => [.fltCtrl, .fltStatus, .fltSel, .fltSrcCtrl, .fltSrcStatus, .fltFirst, .fltBeat, .fltSdoor, .fltFence, .fltQueue]
  | 17 => [.rstCtrl, .rstStatus, .rstCause, .rstSticky, .rstBlock]
  | _ => []

/-- The register at a window OFFSET that is a multiple of 8 (R442, R447); none in reserved space. -/
def regAt (off : Nat) : Option Reg :=
  let o := off % 0x10000
  if off = 0x100 then some .mbxViol
  else if off / 0x10000 = 17 ∧ 0x40 ≤ o ∧ o < 0xC0 then some (.rstBackup (Fin.ofNat 16 ((o - 0x40) / 8)))
  else (blockRegs (off / 0x10000))[o / 8]?

/-- Offset of a register within the window span. -/
def regOffset : Reg → Nat
  | .mbxViol => 0x100
  | .rstBackup n => 0x11_0040 + 8 * n.val
  | r => ((List.range 18).findSome? (fun b => ((blockRegs b).findIdx? (fun x => decide (x = r))).map (fun i => 0x10000 * b + 8 * i))).getD 0

/-- Marks of Table Registers-3. -/
inductive RegMark where
  | all | d | p | v | x
  deriving DecidableEq, Repr

def regMark : Reg → RegMark
  | .harnDescSel | .harnDescData => .d
  | .swcRtStatic | .swcRtSpray | .swcAdapt | .leaveCtrl | .fltCtrl | .fltSrcCtrl | .rstCtrl | .rstBlock => .p
  | .rstBackup _ | .mbxViol => .v
  | .fltBeat => .x
  | _ => .all

/-! ### Selections (R448) -/

def selLane (sel : Selectors) : LaneId := Fin.ofNat 512 (fld sel.lane 8 0)
/-- The lane registers that act on a port act on that of the selected lane (R238). -/
def selLanePort (sel : Selectors) : Port := portOfLane (selLane sel)
def selLink (sel : Selectors) : Port := Fin.ofNat 64 (fld sel.link 5 0)
def selRoute (sel : Selectors) : Fin 512 := Fin.ofNat 512 (fld sel.swcRt 40 32)
def selAdapt (sel : Selectors) : Port := Fin.ofNat 64 (fld sel.swcRt 5 0)
def selSwPort (sel : Selectors) : SwPort := Fin.ofNat 128 (fld sel.sched 10 4)
def selClass (sel : Selectors) : Class := Fin.ofNat 8 (fld sel.sched 2 0)
/-- The selected fabric port, where the selection is one. -/
def selFabric (sel : Selectors) : Option Port := if (selSwPort sel).val < 64 then some (Fin.ofNat 64 (selSwPort sel).val) else none
/-- The policer a selection names: TC0 or TC1 of a fabric port (R291, R296). -/
def selPolicer (sel : Selectors) : Option (Port × Fin 2) :=
  if (selClass sel).val < 2 then (selFabric sel).map (fun p => (p, Fin.ofNat 2 (selClass sel).val)) else none
/-- The class whose quantum a selection names (R296). -/
def selQuantum (sel : Selectors) : Option (Fin 5) :=
  if (selClass sel).val < 5 then some (Fin.ofNat 5 (selClass sel).val) else none
/-- The selected source; none for a reserved one (R422). -/
def selSource (sel : Selectors) : Option SrcId := if fld sel.flt 4 0 < 23 then some (Fin.ofNat 23 (fld sel.flt 4 0)) else none
/-- The selected member slot; values above 64 select none (Table Harness-13). -/
def selMember (sel : Selectors) : Option (Fin 65) := if fld sel.harnMbr 6 0 < 65 then some (Fin.ofNat 65 (fld sel.harnMbr 6 0)) else none

/-! ### Values -/

/-- Descriptor state code (Table Harness-4). -/
def descCode : DescSt → Nat
  | .free => 0 | .armed => 1 | .filling => 2 | .spilling => 3 | .spilled => 4 | .reloading => 5 | .fired => 6 | .draining => 7
  | .fenced => 8

/-- Word w of a descriptor (Table Harness-2). -/
def descWord (x : Slot) : Nat → W64
  | 0 => put (descCode x.st) 4 60 ||| put x.head 12 48 ||| put x.seg 24 24 ||| put x.fmt.toNat 4 20 ||| put x.blkovf.toNat 4 16 |||
      put (x.seglen - 1) 8 8 ||| putB x.zero 7 ||| putB (x.expected.getLsbD 64) 6 ||| putB (x.received.getLsbD 64) 5
  | 1 => put x.step 32 32 ||| put x.parked.length 7 25 ||| put x.scale.toNat 24 0
  | 2 => x.expected.setWidth 64
  | 3 => x.received.setWidth 64
  | w => if 4 ≤ w ∧ w < 8 then (x.void >>> (64 * (w - 4))).setWidth 64 else 0

/-- The most recent launched instance of a cue, with its step (R129). -/
def recentInst (s : State) (c : Nat) : Option (Nat × Inst) :=
  let opens := match s.cue.run with
    | some r => r.steps.reverse.filterMap (fun o => (o.insts.find? (fun i => decide (i.cue = c) && i.launched)).map (fun i => (o.step, i)))
    | none => []
  (opens ++ s.cue.last.filter (fun x => decide (x.2.cue = c))).head?

/-- Gait of an active set, encoded as MAX_GAIT (Table Lanes-14). -/
def gaitCode (m : Byte) : Nat := if popcount m ≥ 8 then 0 else if popcount m ≥ 4 then 1 else if popcount m ≥ 2 then 2 else 3

/-- Lock code (Table Lanes-9). -/
def lockCode : Lock → Nat
  | .off => 0 | .hunt => 1 | .locked => 2 | .marked => 3 | .idle => 4

def doorCode : DoorSt → Nat
  | .off => 0 | .booting => 1 | .running => 2 | .restarting => 3 | .givenUp => 4

def srcCode : SrcSt → Nat
  | .ok => 0 | .active => 1 | .quiet => 2

/-- A shaper or policer as written (Table Switch-21). -/
def bucketWord (b : Bucket) : W64 := put b.rate.toNat 18 46 ||| put b.burst.toNat 16 30 ||| put b.init.toNat 16 14

/-- FLT_STATUS.NOT_OK. -/
def notOk (s : State) : W64 :=
  (List.finRange 23).foldl (fun a i => if (s.flt.sources[i.val]).st = .ok then a else a ||| putB true i.val) 0

/-- Units the stage door, reactions and host writes hold (Table Reset-12). -/
def blockWord (s : State) : W64 :=
  (s.rst.block ||| s.rst.reactBlock).setWidth 64 ||| putB (decide (s.door.st = .restarting) || decide (s.door.st = .givenUp)) 19

/-- How many shard records have a role. -/
def countRole (s : State) (role : Nat) : Nat := (shardIndexes s).countP (fun i => decide ((readShard s i).role = role))

/-- A first gait field that is not valid while its active set is empty: 0 while the lanes have not started, and open after
(DESIGN CHOICE, log 50). -/
def gaitField (started : Bool) (m : Byte) (f : BitVec 512) (lo : Nat) : Nat :=
  if m ≠ 0 then gaitCode m else if started then (f >>> lo).toNat % 4 else 0

/-- Does a read show a field that the spec calls not valid now (DESIGN CHOICE, log 50)? -/
def readsOpen (sel : Selectors) (s : State) : Reg → Bool
  | .cueStep => s.cue.run.isNone && decide (s.cue.stepNow ≠ 0)
  | .lanePortStatus => let x := s.lane.ports[(selLanePort sel).val]; x.started && (x.txActive == 0 || x.rxActive == 0)
  | _ => false

/-- The value of a register as the requester with these selectors sees it (R9, R10, R13) (DESIGN CHOICE, log 50). -/
def regValue (sel : Selectors) (s : State) : Reg → W64
  | .mbxStatus => put s.prm.operators.length 5 32 ||| put (s.host.mboxes.toList.countP (fun m => m.owner.isSome)) 7 16 |||
      put s.host.sessions.length 4 0
  | .mbxSticky => s.host.sticky.setWidth 64
  | .mbxDropCount => put s.host.dropped 16 48 ||| put s.host.authFail 16 32 ||| put s.host.overrun 16 16 ||| put s.host.evLost 16 0
  | .mbxViol => put s.flt.violCount 32 32 ||| s.flt.violLast.setWidth 64
  | .stgNow => s.stg.now
  | .stgCtrl => s.stg.ctrl
  | .stgEpoch => s.stg.epochReg
  | .stgStatus => put (clockCode s.stg.st) 4 60 |||
      put (if s.stg.inForce.getLsbD 6 then twos 12 (max (-2047) (min 2047 s.stg.theta)) else 0) 12 48 |||
      put (if s.stg.st = .holdover then min 0xFFFF ((s.time - s.stg.holdAt) / ms) else 0) 16 32 ||| put s.stg.grid.toNat 32 0
  | .stgWall => s.stg.wall
  | .stgSticky => s.stg.sticky.setWidth 64
  | .cueLoad => put s.cue.reason.toNat 8 56 ||| put s.cue.whereAt 48 0
  | .cueRun => putB s.cue.sheet.isSome 4 ||| putB ((s.cue.sheet.map (·.liberty)).getD false) 3 ||| putB s.cue.run.isSome 2 |||
      put ((s.cue.run.map (·.steps.length)).getD 0) 2 0
  | .cueStep => if s.cue.run.isNone ∧ s.cue.stepNow ≠ 0 then (freeNow s).setWidth 64 else put s.cue.stepNow 64 0
  | .cueSticky => s.cue.sticky.setWidth 64
  | .cueSel => sel.cue
  | .cueStatus => match recentInst s (fld sel.cue 63 48) with
    | some x => cueStatus x.1 x.2
    | none => 0
  | .cueTiming => match recentInst s (fld sel.cue 63 48) with
    | some x => put (x.2.firstAt.getD 0) 32 32 ||| put x.2.doneAt 32 0
    | none => 0
  | .cueMlate =>
    let m := memberCount s (BitVec.ofNat 10 (fld sel.cue 25 16)) (fld sel.cue 6 0)
    putB m.excluded 63 ||| put m.consec.toNat 4 59 ||| put m.missed 16 32 ||| put m.worst 32 0
  | .harnStatus => put (s.harn.slots.countP (fun x => decide (x.index ≥ 16384))) 16 32 |||
      put (s.harn.slots.countP (fun x => decide (x.index < 16384))) 16 16 ||| put s.harn.heads.length 13 0
  | .harnSticky => s.harn.sticky.setWidth 64
  | .harnSpillCount => put s.harn.reloads 32 32 ||| put s.harn.spills 32 0
  | .harnMbrSel => sel.harnMbr
  | .harnMbrCnt => match selMember sel with
    | some m => let c := s.harn.members[m.val]; put c.dup 16 48 ||| put c.stale 16 32 ||| put c.early 16 16 ||| put c.mismatch 16 0
    | none => 0
  | .harnDescSel => sel.harnDesc
  | .harnDescData => match s.harn.slots.find? (fun x => decide (x.index = fld sel.harnDesc 14 0)) with
    | some x => descWord x (fld sel.harnDesc 18 16)
    | none => 0
  | .wdrSticky => s.wdr.sticky
  | .wdrOvfCount => put s.wdr.ovf 48 0
  | .wdrVoidCount => put s.wdr.void 48 0
  | .wdrElemCount => s.wdr.elems
  | .grmStatus => put (countRole s roleOwner) 13 32 ||| put (countRole s roleUnderstudy) 13 16 ||| putB (!s.grm.seedQueue.isEmpty) 1 |||
      putB (decide (countRole s roleSeeding ≠ 0)) 0
  | .grmSticky => s.grm.sticky.setWidth 64
  | .grmSegCount => s.grm.segCount
  | .grmSeedIn => match s.grm.seedIn with
    | some x => put x.hid.toNat 16 48 ||| put x.map.length 25 0
    | none => 0
  | .grmSeedOut => match s.grm.seedQueue.head? with
    | some x => put x.hid.toNat 16 48 ||| put x.done 25 0
    | none => 0
  | .grmMismatch => s.grm.mismatch
  | .prjStatus => put (((stagingUsed s).1 + (stagingUsed s).2 + 1023) / 1024) 24 16 |||
      put ((List.range 4).foldl (fun a k => if s.prj.running.any (fun p => decide (p.array.val = k)) then a + 2 ^ k else a) 0) 4 0
  | .prjSticky => s.prj.sticky.setWidth 64
  | .prjPassCount => s.prj.passes
  | .prjResUsed => put s.prj.resUsed 36 0
  | .callStatus => put (min 511 (s.callb.held.countP (fun h => !h.stopped))) 9 16 ||| put s.callb.ctxs.length 9 0
  | .callSticky => s.callb.sticky.setWidth 64
  | .callSel => sel.call
  | .callResult => match ((cueWord s (fld sel.call 63 48)).bind (fun _ => s.callb.results.find? (fun x => decide (x.1 = fld sel.call 63 48)))).bind (fun x => x.2[fld sel.call 2 0]?) with
    | some z => putB true 63 ||| z.setWidth 64
    | none => 0
  | .outrCtrl => s.outr.ctrl
  | .outrSticky => s.outr.sticky.setWidth 64
  | .outrSamples => s.outr.samples
  | .outrEvents => put s.outr.exact 16 48 ||| put s.outr.growth 16 32 ||| put s.outr.drift 16 16 ||| put s.outr.abandoned 16 0
  | .outrMiss => s.outr.miss
  | .outrSel => sel.outr
  | .outrHead => match s.harn.heads[fld sel.outr 11 0]? with
    | some h => putB (decide (h.baseline.count ≥ 4096)) 63 ||| put h.baseline.count 13 48 ||| put (twos 16 h.baseline.baseD) 16 32 |||
        put (twos 32 h.baseline.baseG) 32 0
    | none => 0
  | .digCtrl => s.dig.ctrl
  | .digStatus => put ((ringUsed s + 1023) / 1024) 21 32 ||| put s.dig.last.toNat 32 0
  | .digSticky => s.dig.sticky.setWidth 64
  | .digAudit => s.dig.audit
  | .laneSel => sel.lane
  | .laneStatus => let x := s.lane.lanes[(selLane sel).val]
    put (lockCode x.lock) 4 60 ||| putB x.good 59 ||| putB x.bad 58 ||| put x.llane.toNat 3 55 ||| put x.skew 8 40 ||| put x.goodSf 16 0
  | .laneEq => ((s.lane.lanes[(selLane sel).val]).entry).setWidth 64
  | .laneErrCount => let x := s.lane.lanes[(selLane sel).val]; put x.uncorr 16 48 ||| put x.corr 32 16 ||| put x.pattern 16 0
  | .laneSticky => ((s.lane.lanes[(selLane sel).val]).sticky).setWidth 64
  | .lanePortCtrl => maskIn (s.lane.ports[(selLanePort sel).val]).ctrl (putB (portEnabled s (selLanePort sel)) 0) (ones 0 0)
  | .lanePortStatus => let x := s.lane.ports[(selLanePort sel).val]
    put x.txActive.toNat 8 56 ||| put x.rxActive.toNat 8 48 ||| put x.goodSent.toNat 8 40 ||| put x.peerGood.toNat 8 32 |||
      put (gaitField x.started x.txActive (freeNow s) 0) 2 30 ||| put (gaitField x.started x.rxActive (freeNow s) 2) 2 28 |||
      putB x.txIdle 27 ||| putB x.rxIdle 26 ||| putB (portUp s (selLanePort sel)) 25
  | .laneEqStatus => putB s.lane.entryBad 2 ||| putB s.lane.useDefault 1 ||| putB s.lane.loaded 0
  | .linkSel => sel.link
  | .linkCtrl => (s.link[(selLink sel).val]).ctrl
  | .linkStatus => let l := s.link[(selLink sel).val]
    put (linkCode l.state) 4 60 ||| put l.verMajor.toNat 4 56 ||| put l.verMinor.toNat 4 52 ||| put l.nextSeq.toNat 12 40 |||
      put l.rxExpect.toNat 12 28 ||| put l.unacked.length 12 16 ||| put (retryCells l) 14 0
  | .linkPeer => match (s.link[(selLink sel).val]).peerRoll with
    | some r => putB true 63 ||| put r.kind.toNat 2 61 ||| put r.port.toNat 6 48 ||| put r.serial.toNat 48 0
    | none => 0
  | .linkPeerPos => match (s.link[(selLink sel).val]).peerRoll with
    | some r => putB (r.modnum.getLsbD 15) 63 ||| put r.modnum.toNat 9 48 ||| put r.coord.toNat 24 24 ||| put r.role.toNat 8 16
    | none => 0
  | .linkErrCount => let l := s.link[(selLink sel).val]
    put l.crcBad 16 48 ||| put l.replays 16 32 ||| put l.naks 16 16 ||| put l.dropped 16 0
  | .linkSticky => ((s.link[(selLink sel).val]).sticky).setWidth 64
  | .swcCtrl => s.swc.ctrl
  | .swcStatus => put (shareUsed s .lossy) 21 43 ||| put (shareUsed s .lossless + shareUsed s .localShare) 21 22 ||| put (retryUsed s) 21 1
  | .swcSticky => s.swc.sticky.setWidth 64
  | .swcDropCount => put s.swc.pushout 16 48 ||| put s.swc.taildrop 16 32 ||| put s.swc.aged 16 16 ||| put s.swc.policed 16 0
  | .swcCreditLo => s.swc.creditLo
  | .swcCreditHi => s.swc.creditHi
  | .swcRtSel => sel.swcRt
  | .swcRtStatic => let e := s.swc.routes[(selRoute sel).val]; putB e.valid 63 ||| put e.static.toNat 6 0
  | .swcRtSpray => (s.swc.routes[(selRoute sel).val]).spray
  | .swcAdapt => put (s.swc.penalty[(selAdapt sel).val]).toNat 16 48 ||| put (s.swc.history[(selAdapt sel).val]).toNat 21 0
  | .swcMirror => s.swc.mirror
  | .swcMirrorFlow => s.swc.mirrorFlow
  | .schedSel => sel.sched
  | .schedQuantum => match selQuantum sel with
    | some k => ((s.sched.drr[(selSwPort sel).val]).quantum[k.val]).setWidth 64
    | none => 0
  | .schedShaper => match selFabric sel with
    | some p => bucketWord ((s.sched.shaper[p.val])[(selClass sel).val])
    | none => 0
  | .schedPolicer => match selPolicer sel with
    | some x => bucketWord ((s.sched.policer[x.1.val])[x.2.val])
    | none => 0
  | .schedQnow => let q := (s.sched.samples[(selSwPort sel).val])[(selClass sel).val]
    put q.depth 21 43 ||| put q.delay 32 0
  | .schedQstat => let q := (s.sched.samples[(selSwPort sel).val])[(selClass sel).val]
    put q.maxDepth 21 43 ||| put q.maxDelay 32 0
  | .schedSample => put s.sched.count.toNat 32 32 ||| put s.sched.intervalNext.toNat 8 0
  | .leaveCtrl => s.rid.ctrl
  | .leaveStatus => put ((capNow s).getD 0) 16 48 ||| put (held s) 16 32 ||| put s.rid.pest.toNat 16 16 ||| put (didtNow s) 8 8 |||
      put s.rid.level 3 0
  | .leaveSticky => s.rid.sticky.setWidth 64
  | .boxStatus => let r := s.boxRx.readings.headD []
    putB s.boxRx.valid 63 ||| putB ((byteAt r 6).getLsbD 0) 62 ||| putB ((byteAt r 6).getLsbD 1) 61 |||
      putB ((byteAt r 6).getLsbD 4) 60 ||| put (leAt r 0x68 2) 16 0
  | .boxSeq => if s.boxRx.valid then BitVec.ofNat 64 (leAt s.boxRx.last 8 8) else 0
  | .boxSticky => s.boxRx.sticky.setWidth 64
  | .fltCtrl => s.flt.ctrl
  | .fltStatus => putB s.flt.reactBad 40 ||| notOk s
  | .fltSel => sel.flt
  | .fltSrcCtrl => match selSource sel with
    | some i => put (s.flt.sources[i.val]).react.toNat 3 0
    | none => 0
  | .fltSrcStatus => match selSource sel with
    | some i => let x := s.flt.sources[i.val]
      put (srcCode x.st) 4 60 ||| put x.index.toNat 4 56 ||| put x.events 16 16 ||| put x.recoveries 16 0
    | none => 0
  | .fltFirst => s.flt.first
  | .fltBeat => put s.door.beat.toNat 16 0
  | .fltSdoor => put (doorCode s.door.st) 4 60 ||| put s.door.cause.toNat 2 58 ||| put s.door.run.toNat 4 52 |||
      put s.door.restarts 16 32 ||| putB s.door.aliveOn 31
  | .fltFence => put s.flt.array.toNat 4 8 ||| put s.flt.team.toNat 8 0
  | .fltQueue => put s.flt.lost 16 48 ||| put s.flt.queue.length 9 0
  | .rstCtrl => 0
  | .rstStatus => put s.rst.exit.toNat 2 62 ||| putB s.rst.ready 61 ||| putB s.rst.memReady 60 ||| putB s.rst.optDone 59 |||
      putB s.rst.ondie 58 ||| putB (s.rst.refLock && decide (s.stg.st ≠ .stopped)) 57 ||| put s.rst.choice.toNat 4 52 ||| put s.rst.code.toNat 6 46 |||
      put s.rst.optRestarts 8 0
  | .rstCause => put s.rst.causeReach.toNat 2 62 ||| put s.rst.causeSeen.toNat 8 48 ||| put s.rst.exits 16 32
  | .rstSticky => s.rst.sticky.setWidth 64
  | .rstBlock => blockWord s
  | .rstBackup n => s.rst.backup[n.val]

/-! ### The start of the arena cycle (R14) -/

/-- Sticky registers, registers that a read clears, and STG_CTRL, whose ARM an edge takes, each with the number of its selected
instances. -/
def cycleRegs : List (Reg × Nat) :=
  [(.mbxSticky, 1), (.mbxDropCount, 1), (.mbxViol, 1), (.stgSticky, 1), (.cueSticky, 1), (.harnSticky, 1), (.harnSpillCount, 1),
   (.harnMbrCnt, 65), (.wdrSticky, 1), (.wdrOvfCount, 1), (.wdrVoidCount, 1), (.grmSticky, 1), (.prjSticky, 1), (.callSticky, 1)] ++
  [(.outrSticky, 1), (.outrEvents, 1), (.digSticky, 1), (.laneErrCount, 512), (.laneSticky, 512), (.linkErrCount, 64),
   (.linkSticky, 64), (.swcSticky, 1), (.swcDropCount, 1), (.schedQstat, 1024), (.leaveSticky, 1), (.boxSticky, 1),
   (.fltFirst, 1), (.rstSticky, 1), (.stgCtrl, 1)]

/-- The instance of a register that a selection names. -/
def selIndex (sel : Selectors) : Reg → Nat
  | .harnMbrCnt => fld sel.harnMbr 6 0
  | .laneErrCount | .laneSticky => (selLane sel).val
  | .linkErrCount | .linkSticky => (selLink sel).val
  | .schedQstat => (selSwPort sel).val * 8 + (selClass sel).val
  | _ => 0

/-- A selection that names instance `k` of a register. -/
def selAt (k : Nat) : Reg → Selectors
  | .harnMbrCnt => { harnMbr := put k 7 0 }
  | .laneErrCount | .laneSticky => { lane := put k 9 0 }
  | .linkErrCount | .linkSticky => { link := put k 6 0 }
  | .schedQstat => { sched := put (k / 8) 7 4 ||| put k 3 0 }
  | _ => {}

/-- The registers of `cycleRegs` as they stand. -/
def latch (s : State) : List (Reg × Nat × W64) :=
  cycleRegs.flatMap (fun x => (List.range x.2).filterMap (fun k =>
    let w := regValue (selAt k x.1) s x.1
    if w = 0 then none else some (x.1, k, w)))

/-- Does an arena cycle, 300/141 ticks, end with this tick? -/
def cycleEnds (t : Nat) : Bool := decide (t * 141 / 300 ≠ (t + 1) * 141 / 300)

/-- Where a tick starts an arena cycle, the sticky and clearing registers as they stand are those that an access of the cycle finds
(R14). -/
def passCycle (s : State) : State := if cycleEnds s.time then { s with cyc := latch s, written := [] } else s

/-- The selected instance of a register as it stood when the arena cycle started. -/
def cycleWord (sel : Selectors) (s : State) (r : Reg) : W64 :=
  ((s.cyc.find? (fun x => decide (x.1 = r) && decide (x.2.1 = selIndex sel r))).map (·.2.2)).getD 0

/-- A register of which an access has taken the bits or the counts of `m`: no later access of the cycle takes them again. -/
def takeCycle (sel : Selectors) (r : Reg) (m : W64) : State → State := fresh r (selIndex sel r) m

/-- The fields that a read clears: width and lowest bit. -/
def rcFields : Reg → List (Nat × Nat)
  | .mbxDropCount | .harnMbrCnt | .outrEvents | .linkErrCount | .swcDropCount => [(16, 48), (16, 32), (16, 16), (16, 0)]
  | .mbxViol => [(32, 32)]
  | .harnSpillCount => [(32, 32), (32, 0)]
  | .wdrOvfCount | .wdrVoidCount => [(48, 0)]
  | .laneErrCount => [(16, 48), (32, 16), (16, 0)]
  | .schedQstat => [(21, 43), (32, 0)]
  | _ => []

/-- The bits of a register that a read clears. -/
def rcMask (r : Reg) : W64 := (rcFields r).foldl (fun a x => a ||| ones (x.1 + x.2 - 1) x.2) 0

/-- The value that a read returns: of a field that the read clears, the value before what hardware has added in this arena cycle;
with a count of violations, the access before those of this cycle (R14, R446). -/
def readValue (sel : Selectors) (s : State) (r : Reg) : W64 :=
  let w := cycleWord sel s r
  let v := if r = .mbxViol then maskIn (regValue sel s r) w (ones 31 0) else regValue sel s r
  (rcFields r).foldl (fun a x => maskIn a (put (min (fld v (x.1 + x.2 - 1) x.2) (fld w (x.1 + x.2 - 1) x.2)) x.1 x.2)
    (ones (x.1 + x.2 - 1) x.2)) v

end Sys2Proof.Machine
end

