-- ==== Sys2Proof/Machine/DgramOps.lean ====
section
/-! DEFINITION. Prompt datagrams: the header, the tests, replies, sessions and mailboxes (13_host_and_prompt_protocol.md R322, R325
to R340). -/

namespace Sys2Proof.Machine

/-! ### The header (Table Host-2, Table Host-3) -/

def hKind (d : Dgram) : Byte := byteAt d.bytes 3
def hSession (d : Dgram) : BitVec 32 := BitVec.ofNat 32 (leAt d.bytes 4 4)
def hSeq (d : Dgram) : BitVec 32 := BitVec.ofNat 32 (leAt d.bytes 8 4)
def hMbx (d : Dgram) : Nat := leAt d.bytes 14 1
def payload (d : Dgram) : List Byte := d.bytes.drop 24

/-- Kinds that the host sends. -/
def fromHost (k : Byte) : Bool := [0x01, 0x03, 0x05, 0x07, 0x10, 0x12, 0x20, 0x22, 0x31].contains k

/-- The frame of a datagram is one that Table Host-1 supports, of at most 9,216 bytes with its headers and FCS (R320). -/
def frameTaken (d : Dgram) : Bool :=
  decide (d.form = .plain) &&
    decide (d.bytes.length + 8 + (if d.peer.addr.length = 4 then 20 else 40) + (if d.vlan.isSome then 4 else 0) + 18 ≤ 9216)

/-- Tests 1 to 5 of Table Host-4: does the datagram pass? -/
def dgramPasses (s : State) (d : Dgram) : Bool :=
  decide (d.bytes.length ≥ 24) && decide (leAt d.bytes 0 2 = 0x505A) && decide (leAt d.bytes 12 2 = d.bytes.length - 24) &&
    fromHost (hKind d) &&
    (if hSession d = 0 then hKind d == 0x01
     else match findSession s (hSession d) with
       | none => false
       | some x => decide (x.peer = d.peer) && (hKind d == 0x01 || byteAt d.bytes 2 == 0x10) &&
           (x.ready || hKind d == 0x01 || hKind d == 0x03))

/-- Drop a datagram (R326). -/
def dropDgram (s : State) : State :=
  fresh .mbxSticky 0 1 { s with host := { s.host with sticky := s.host.sticky ||| 1, dropped := satAdd 0xFFFF s.host.dropped 1 } }

/-- Drop a datagram under test 6. -/
def overrunDgram (s : State) : State :=
  let s := dropDgram s
  fresh .mbxSticky 0 8 { s with host := { s.host with sticky := s.host.sticky ||| 8, overrun := satAdd 0xFFFF s.host.overrun 1 } }

/-- A valid datagram of a session: its time, port and tag are noted (R322, R334). -/
def noteDgram (d : Dgram) (s : State) : State :=
  modSession (hSession d) (fun x => { x with lastAt := s.time, port := d.port, vlan := d.vlan }) s

/-- Reply to a datagram, where it came from (R322). -/
def reply (d : Dgram) (ver kind : Byte) (sid : BitVec 32) (mbx flags : Byte) (status : BitVec 16) (pay : List Byte) (s : State) : State :=
  emit (.datagram d.port d.peer d.vlan (promptBytes ver kind sid (hSeq d) mbx flags status pay)) s

/-- Reply in a session, with no mailbox. -/
def replyIn (d : Dgram) (kind flags : Byte) (status : BitVec 16) (pay : List Byte) (s : State) : State :=
  reply d 0x10 kind (hSession d) 0xFF flags status pay s

/-! ### Sessions (R328 to R334) -/

/-- A session closes: its mailboxes are freed and the results they hold discarded (R328). -/
def closeSession (sid : BitVec 32) (s : State) : State :=
  { s with host := { s.host with
      sessions := s.host.sessions.filter (fun x => !decide (x.id = sid))
      mboxes := s.host.mboxes.map (fun m => if m.owner = some sid then {} else m) } }

/-- The module's Prompt versions, and IFVERS (R4, Table Host-7). -/
def promptVers : List Byte := [1, 0, 0, 0, 0, 0, 0, 0]
def ifVers : List Byte := [1, 0, 1, 0, 1, 0, 1, 0]

/-- Does VERS offer major 1? -/
def offersOne (p : List Byte) : Bool := (List.range 4).any (fun i => decide (leAt p (2 * i) 1 = 1))

/-- Fields of OPEN in range (Table Host-6). -/
def openOk (p : List Byte) : Bool :=
  decide (p.length = 64) && decide (leAt p 8 2 ≠ 0) && decide (1 ≤ leAt p 10 1) && decide (leAt p 10 1 ≤ 64) &&
    decide (4736 ≤ leAt p 12 2) && decide (leAt p 12 2 ≤ 9146) && decide (100 ≤ leAt p 14 2) && decide (leAt p 14 2 ≤ 10000)

/-- First mailbox of the lowest free run of n. -/
def freeRun (s : State) (n : Nat) : Option Nat :=
  findFrom (fun i => decide (i + n ≤ 64) && (List.range n).all (fun k => (s.host.mboxes[(Fin.ofNat 64 (i + k)).val]).owner.isNone)) 64 0

/-- A session ID that is drawn, not 0, and names no session (DESIGN CHOICE, log 4). -/
def newSid (s : State) : BitVec 32 :=
  let base := (freeNow s).setWidth 32
  BitVec.ofNat 32 ((findFrom (fun i => let x := base + BitVec.ofNat 32 i; decide (x ≠ 0) && (findSession s x).isNone) 16 0).getD 0) + base

/-- Is OPEN under lockout (R333)? -/
def lockedOut (s : State) : Bool := match s.host.lockUntil with
  | some t => decide (s.time < t)
  | none => false

/-- An OPEN that makes no session; the fields that R329 does not give are open (DESIGN CHOICE, log 47) (DEDUCED, log 26). -/
def refuseOpen (d : Dgram) (status : BitVec 16) (s : State) : State :=
  if status = 0x0010 then reply d 0 0x02 0 0xFF 0 status (promptVers ++ zeros 64) s
  else drawn (reply d 0 0x02 0 0xFF 0 status (promptVers ++ freeBytes s 64) s)

/-- PRIV that OPEN_R shows: INSTALL with an empty table, the entry's PRIV for an OPID in the table, and open otherwise (DEDUCED, log 26). -/
def openPriv (s : State) (opid : BitVec 16) : Nat :=
  if s.prm.operators.isEmpty then 3
  else match s.prm.operators.find? (fun o => o.opid == opid) with
    | some o => o.priv
    | none => (freeNow s >>> 288).toNat % 4

/-- Payload of an OPEN_R that makes a session. -/
def openReply (s : State) (opid : BitVec 16) (first count : Nat) : List Byte :=
  promptVers ++ ([1, 0] : List Byte) ++ leBytes 1 first ++ leBytes 1 count ++ leBytes 1 (openPriv s opid) ++ zeros 3 ++
    leBytes 8 s.fuses.serial.toNat ++ zeros 8 ++ leBytes 32 (freeNow s >>> 32).toNat ++ ifVers

/-- OPEN (R328, R329, R332, R333) (DEDUCED, log 26). -/
def actOpen (d : Dgram) (s : State) : State :=
  let p := payload d
  if lockedOut s then refuseOpen d 0x0014 s
  else match s.host.sessions.find? (fun x => decide (x.peer = d.peer) && decide ((x.openPay.drop 0x20).take 32 = (p.drop 0x20).take 32)) with
  | some x => reply d 0 0x02 x.id 0xFF 1 0 x.openRPay s
  | none =>
    if !offersOne p then refuseOpen d 0x0010 s
    else if !openOk p then refuseOpen d 0x0023 s
    else if s.host.sessions.length ≥ 8 then refuseOpen d 0x0012 s
    else
      let n := leAt p 10 1
      match freeRun s n with
      | none => refuseOpen d 0x0013 s
      | some first =>
        let sid := newSid s
        let opid := BitVec.ofNat 16 (leAt p 8 2)
        let r := openReply s opid first n
        let ready := s.prm.operators.isEmpty
        let x : Session :=
          { id := sid, peer := d.peer, port := d.port, vlan := d.vlan, ready := ready, opid := opid, priv := openPriv s opid
            mbxFirst := first, mbxCount := n, maxdg := leAt p 12 2, keepMs := leAt p 14 2, evmask := BitVec.ofNat 32 (leAt p 16 4)
            openPay := p, openRPay := r, lastAt := s.time, openedAt := s.time }
        let s := { s with host := { s.host with
          sessions := s.host.sessions ++ [x], installed := s.host.installed.filter (fun y => !decide (y = sid))
          mboxes := Vector.ofFn (fun i => if first ≤ i.val ∧ i.val < first + n then { owner := some sid } else s.host.mboxes[i.val]) } }
        drawn (reply d 0 0x02 sid 0xFF 0 0 r s)

/-- What AUTH signs (R331). -/
def authMessage (x : Session) : List Byte :=
  sha3 ([0x5A, 0x50, 0x41, 0x55] ++ x.openPay ++ x.openRPay ++ leBytes 4 x.id.toNat)

/-- Does an AUTH signature verify, and with which privilege? -/
def authPriv (s : State) (x : Session) (sig : List Byte) : Option Nat :=
  match s.prm.operators.find? (fun o => o.opid == x.opid) with
  | some o => if sig.length = 4627 ∧ mldsaVerify o.key (authMessage x) sig then some o.priv else none
  | none => none

/-- A failed AUTH: the session closes; 8 failures within 60 s lock OPEN out for the next 60 s (R331, R333). -/
def failAuth (d : Dgram) (x : Session) (s : State) : State :=
  let s := drawn (replyIn d 0x04 0 0x0011 (freeBytes s 1) s)
  let s := closeSession x.id s
  let fails := (s.host.authFails ++ [s.time]).filter (fun t => decide (s.time < t + 60000 * ms))
  let lock := decide (fails.length ≥ 8)
  fresh .mbxSticky 0 (if lock then 6 else 2) { s with host := { s.host with
      sticky := s.host.sticky ||| 2 ||| (if lock then 4 else 0), authFail := satAdd 0xFFFF s.host.authFail 1, authFails := fails
      lockUntil := if lock then some (s.time + 60000 * ms) else s.host.lockUntil } }

/-- AUTH (R331). -/
def actAuth (d : Dgram) (s : State) : State := match findSession s (hSession d) with
  | none => s
  | some x =>
    if x.ready then replyIn d 0x04 1 0 (leBytes 1 x.priv) s
    else match authPriv s x (payload d) with
      | some p => replyIn d 0x04 0 0 (leBytes 1 p) (modSession x.id (fun y => { y with ready := true, priv := p }) s)
      | none => failAuth d x s

/-- CLOSE (R328). -/
def actClose (d : Dgram) (s : State) : State := closeSession (hSession d) (replyIn d 0x06 0 0 [] s)

/-- Payload of KEEP_R (Table Host-3). -/
def keepReply (s : State) : List Byte :=
  leBytes 8 s.stg.now.toNat ++ leBytes 8 (regValue {} s .cueRun).toNat ++ leBytes 8 (regValue {} s .cueStep).toNat ++
    leBytes 1 (clockCode s.stg.st)

/-- KEEP (R334). -/
def actKeep (d : Dgram) (s : State) : State :=
  let t := replyIn d 0x08 0 0 (keepReply s) s
  if readsOpen {} s .cueStep then drawn t else t

/-! ### Mailboxes (R335 to R339) -/

/-- The mailbox a datagram names, where the session owns it. -/
def ownMbx (s : State) (d : Dgram) : Option (Fin 64) :=
  if hMbx d < 64 then
    let m := Fin.ofNat 64 (hMbx d)
    if (s.host.mboxes[m.val]).owner = some (hSession d) then some m else none
  else none

/-- PRIV and argument length of each command (Table Host-9, Table Prompter-9, Table Leave-6, Table Faults-8). A PRIV of 0 stands for
the register commands, whose window decides, and of 4 for ENROLL. -/
def cmdTable : List (Nat × Nat × Nat) :=
  [(0x01, 0, 0), (0x10, 1, 8), (0x11, 1, 0), (0x12, 1, 1), (0x13, 1, 3), (0x14, 0, 2), (0x15, 1, 8), (0x20, 2, 4), (0x21, 2, 85)] ++
  [(0x22, 2, 6), (0x23, 2, 2), (0x30, 1, 10), (0x31, 1, 2), (0x32, 1, 2), (0x40, 0, 9), (0x41, 0, 17), (0x50, 4, 3), (0x51, 2, 2)] ++
  [(0x60, 0, 4), (0x61, 0, 36), (0x62, 2, 4), (0x63, 2, 4), (0x64, 2, 0), (0x65, 2, 1), (0x66, 0, 0), (0x67, 2, 1)] ++
  [(0x70, 0, 0), (0x71, 0, 0), (0x72, 0, 16), (0x80, 0, 0), (0x81, 2, 2), (0x82, 2, 2)]

/-- Does a level allow a command (R330)? -/
def privAllows (need priv : Nat) : Bool :=
  if need = 4 then decide (priv = 2) || decide (priv = 3) else if priv = 3 then decide (need = 0) else decide (need ≤ priv)

/-- The end of a command that never acts: a reserved CODE, a wrong length, or a level that does not allow it (R330, R338) (DESIGN CHOICE, log 17). -/
def cmdRefused (pay : List Byte) (priv : Nat) : Option (BitVec 16) :=
  if pay.length < 8 then some stBadCmd
  else match cmdTable.find? (fun x => decide (x.1 = leAt pay 0 2)) with
    | none => some stBadCmd
    | some x => if pay.length ≠ 8 + x.2.2 then some stBadCmd else if !privAllows x.2.1 priv then some stPrivilege else none

/-- Prompter cycles passed at a time: 1.2 GHz against the tick of 0.5 ns (R12) (DESIGN CHOICE, log 2). -/
def prompterCycle (t : Nat) : Nat := 141 * t / 235

/-- Where a command goes among those accepted: of two POSTs of one Prompter cycle that of port 0 is first (R339). -/
def insertCmd (c : Cmd) (l : List Cmd) : List Cmd :=
  let later (x : Cmd) : Bool := decide (c.port = 0) && decide (x.port = 1) && decide (x.cycle = c.cycle) && !x.acted
  l.filter (fun x => !later x) ++ c :: l.filter later

/-- Accept a POST: its command starts (R336, R338) (DESIGN CHOICE, log 17). -/
def acceptPost (d : Dgram) (m : Fin 64) (priv : Nat) (s : State) : State :=
  let pay := payload d
  let s := modMbx m (fun x => { x with st := .busy, cseq := hSeq d, payload := pay, status := 0, result := [], read := false }) s
  let out := (cmdRefused pay priv).map (fun st => (st, ([] : List Byte)))
  let c : Cmd :=
    { id := s.host.nextCmd, session := hSession d, mbx := m, seq := hSeq d, code := BitVec.ofNat 16 (leAt pay 0 2)
      args := pay.drop 8, priv := priv, acted := out.isSome, port := d.port, cycle := prompterCycle s.time, out := out }
  { s with host := { s.host with cmds := insertCmd c s.host.cmds, nextCmd := s.host.nextCmd + 1 } }

/-- Reply that names a mailbox. -/
def replyMbx (d : Dgram) (kind flags : Byte) (status : BitVec 16) (pay : List Byte) (s : State) : State :=
  reply d 0x10 kind (hSession d) (byteAt d.bytes 14) flags status pay s

/-- POST (R335, R336). -/
def actPost (d : Dgram) (s : State) : State := match ownMbx s d with
  | none => replyMbx d 0x11 0 stNotOwner [] s
  | some m =>
    let x := s.host.mboxes[m.val]
    if hSeq d = x.cseq + 1 ∧ x.st ≠ .busy then
      acceptPost d m (((findSession s (hSession d)).map (·.priv)).getD 0) (replyMbx d 0x11 0 stOk [] s)
    else if hSeq d = x.cseq ∧ x.st ≠ .empty ∧ x.payload = payload d then replyMbx d 0x11 1 stOk [] s
    else replyMbx d 0x11 0 stBadSeq [] (fresh .mbxSticky 0 0x40 { s with host := { s.host with sticky := s.host.sticky ||| 0x40 } })

/-- READ (R337). -/
def actRead (d : Dgram) (s : State) : State := match ownMbx s d with
  | none => replyMbx d 0x13 0 stNotOwner [] s
  | some m =>
    let x := s.host.mboxes[m.val]
    if hSeq d = x.cseq ∧ x.st = .busy then replyMbx d 0x13 0 0x0001 [] s
    else if hSeq d = x.cseq ∧ x.st = .done then
      replyMbx d 0x13 (if x.read then 1 else 0) x.status x.result (modMbx m (fun y => { y with read := true }) s)
    else replyMbx d 0x13 0 0x0003 [] s

/-- EVACK: every event up to SEQ is acknowledged (R351). -/
def actEvack (d : Dgram) (s : State) : State :=
  modSession (hSession d) (fun x => { x with events := x.events.filter (fun e => decide (hSeq d < e.eseq)) }) s

end Sys2Proof.Machine
end

