-- ==== Sys2Proof/Machine/BulkOps.lean ====
section
/-! DEFINITION. The bulk windows (13_host_and_prompt_protocol.md R345 to R348, 14_prompter_boot_identity.md R371). -/

namespace Sys2Proof.Machine

/-- A bulk request: its subheader and data (R345). -/
structure Bulk where
  win    : Nat
  sel    : BitVec 16
  count  : Nat
  offset : Nat
  data   : List Byte
  deriving DecidableEq, Repr

def readBulk (p : List Byte) : Bulk :=
  { win := leAt p 0 1, sel := BitVec.ofNat 16 (leAt p 2 2), count := leAt p 4 4, offset := leAt p 8 8, data := p.drop 16 }

/-- A window of Table Host-11: lowest PRIV to read and to write, none where the access does not exist (DEDUCED, log 27). -/
def winPriv : Nat → Option (Option Nat × Option Nat)
  | 0x01 => some (none, some 1) | 0x02 => some (none, some 2) | 0x03 => some (none, some 2) | 0x04 => some (some 0, none)
  | 0x05 => some (some 0, some 1) | 0x06 => some (some 0, some 1) | 0x07 => some (some 0, some 1) | 0x08 => some (some 0, none)
  | 0x09 => some (some 0, none) | 0x0A => some (none, some 4) | 0x0B => some (none, some 2)
  | _ => none

/-- Index of the PROJECT head with a HID, and its residual range (R172). -/
def residOf (s : State) (hid : BitVec 16) : Option (Nat × Nat) :=
  match s.cue.sheet, headIdx s hid with
  | some sh, some h => match sh.heads[h]?, s.harn.heads[h]? with
    | some x, some y => if residSize sh x > 0 then some (y.resAt, residSize sh x) else none
    | _, _ => none
  | _, _ => none

/-- First byte and length of a window that lands in the data space (Table Host-11). -/
def winRange (s : State) (b : Bulk) : Option (Nat × Nat) := match b.win with
  | 0x01 => some (scratchBase, 939524096)
  | 0x02 => some (scratchBase + 0x3800_0000, 1048576)
  | 0x03 => some (scratchBase + 0x3810_0000, 133169152)
  | 0x05 => (shardOf s b.sel).map (fun r => (r.base, 8 * r.len))
  | 0x06 => residOf s b.sel
  | 0x07 => some (scratchBase, scratchBytes)
  | 0x08 => some (ringBase, ringBytes)
  | 0x09 => some (logBase, logBytes)
  | 0x0B => some (scratchBase + 0x3000_0000, 8388608)
  | _ => none

/-- A row of the placement result (R314). -/
def placeRowBytes (r : PlaceRow) : List Byte :=
  leBytes 2 r.hid.toNat ++ [r.flags, r.parent, r.pslot] ++ zeros 3 ++ leBytes 8 r.expected.toNat ++ leBytes 8 r.leads.toNat ++ zeros 8

/-- The PRESULT image (R348). -/
def presultBytes (s : State) : List Byte :=
  leBytes 4 s.topo.rows.length ++ zeros 4 ++ leBytes 8 s.topo.stgCtrl.toNat ++ zeros 0x30 ++ padTo 64 s.topo.placeDigest ++
    s.topo.rows.flatMap placeRowBytes

/-- Window length: PRESULT and KEY lie outside the data space. -/
def winBytes (s : State) (b : Bulk) : Option Nat :=
  if b.win = 0x04 then some (128 + 32 * s.topo.rows.length)
  else if b.win = 0x0A then some 2592
  else (winRange s b).map (·.2)

/-- The window that an accepted Q command reads (R341, R344, R371). -/
def winOfCmd (code : Nat) : Nat := match code with
  | 0x10 => 0x01 | 0x11 => 0x01 | 0x20 => 0x02 | 0x22 => 0x03 | 0x50 => 0x0A | 0x62 => 0x0B | 0x63 => 0x0B
  | _ => 0
def winTaken (s : State) (win : Nat) : Bool :=
  s.host.cmds.any (fun c => c.out.isNone && decide (winOfCmd c.code.toNat = win))

/-- Does a range of scratch bytes overlap the image of the loaded sheet (R347)? -/
def overSheet (s : State) (off n : Nat) : Bool := match s.cue.sheet with
  | some sh => overlaps off n 0 sh.length
  | none => false

/-- Is a bulk write refused, by the window's own rules? Statuses in the order range, run, queued command, loaded image. -/
def writeRefused (s : State) (b : Bulk) : Option (BitVec 16) :=
  let run := s.cue.run.isSome
  if run && [0x01, 0x02, 0x03, 0x07, 0x0B].contains b.win then some stBusy
  else if decide (b.win = 0x05) && runNames s b.sel then some stBusy
  else if run && decide (b.win = 0x06) then some stBusy
  else if winTaken s b.win then some stBusy
  else if decide (b.win = 0x07) && overSheet s b.offset b.count then some stRange
  else if decide (b.win = 0x0B) && overSheet s (0x3000_0000 + b.offset) b.count then some stRange
  else none

/-- Status of a bulk request that is refused; none where it is carried out. A COUNT that does not fit the datagram or the session
has no stated status: its status is open (DESIGN CHOICE, log 47). -/
def bulkRefused (s : State) (x : Session) (write : Bool) (len : Nat) (b : Bulk) : Option (BitVec 16) :=
  match winPriv b.win with
  | none => some stBadWindow
  | some p =>
    let need := if write then p.2 else p.1
    if !(need.map (fun n => privAllows n x.priv)).getD false then some stPrivilege
    else if len < 16 ∨ b.count = 0 ∨ b.count > x.maxdg - 40 ∨ (write ∧ b.data.length ≠ b.count) then some ((freeNow s).setWidth 16)
    else match winBytes s b with
      | none => some stNotFound
      | some n =>
        if b.offset + b.count > n then some stRange
        else if write then writeRefused s b
        else if decide (b.win = 0x05) && runNames s b.sel then some stBusy else none

/-- A write to SHEET over the loaded image unloads the sheet (R347). -/
def unloadSheet (s : State) : State :=
  { s with
    cue := { s.cue with sheet := none, program := [] }
    harn := { s.harn with heads := [], slots := [], jobs := [], intake := [] } }

/-- Carry out a bulk write. -/
def bulkStore (s : State) (b : Bulk) : State :=
  if b.win = 0x0A then
    let k := padTo 2592 s.host.key
    { s with host := { s.host with key := k.take b.offset ++ b.data ++ k.drop (b.offset + b.count) } }
  else match winRange s b with
  | some r =>
    let s := if b.win = 0x01 ∧ overSheet s b.offset b.count then unloadSheet s else s
    { s with dram := memWrite s.dram (r.1 + b.offset) b.data }
  | none => s

/-- Bytes that a bulk read returns; `r` is the range of a window in the data space, as the request found it. -/
def bulkLoad (s : State) (b : Bulk) (r : Option (Nat × Nat)) : List Byte :=
  if b.win = 0x04 then ((presultBytes s).drop b.offset).take b.count
  else match r with
  | some r => memRead s.dram (r.1 + b.offset) b.count
  | none => []

/-- Does a bulk request wait: one that reaches LPDDR6 for MEM_READY (R437), one of state words for the shard's zero fill (R137)? -/
def bulkWaits (s : State) (d : Dgram) : Bool :=
  let b := readBulk (payload d)
  (!s.rst.memReady && decide (b.win ≠ 0x04) && decide (b.win ≠ 0x0A)) || (decide (b.win = 0x05) && filling s b.sel)

/-- The status of a malformed request was drawn. -/
def drewStatus (x : Session) (write : Bool) (len : Nat) (b : Bulk) : Bool :=
  decide (len < 16) || decide (b.count = 0) || decide (b.count > x.maxdg - 40) || (write && decide (b.data.length ≠ b.count))

/-- BULK_W (R346, R347). -/
def actBulkW (d : Dgram) (s : State) : State := match findSession s (hSession d) with
  | none => s
  | some x =>
    let p := payload d
    let b := readBulk p
    match bulkRefused s x true p.length b with
    | some st =>
      let t := replyIn d 0x21 0 st (p.take 16) s
      if drewStatus x true p.length b then drawn t else t
    | none => replyIn d 0x21 0 stOk (p.take 16) (bulkStore s b)

/-- Errors of the accesses that a bulk read makes (R132, R133). -/
def bulkErrors (b : Bulk) (r : Option (Nat × Nat)) (errs : List AccErr) (s : State) : State :=
  if b.win = 0x04 then s
  else match r with
  | some r => readErrors (r.1 + b.offset) b.count errs s
  | none => s

/-- BULK_R (R345, R346). -/
def actBulkR (errs : List AccErr) (d : Dgram) (s : State) : State := match findSession s (hSession d) with
  | none => s
  | some x =>
    let p := payload d
    let b := readBulk p
    match bulkRefused s x false p.length b with
    | some st =>
      let t := replyIn d 0x23 0 st (p.take 16) s
      if drewStatus x false p.length b then drawn t else t
    | none =>
      let r := winRange s b
      let s := bulkErrors b r errs s
      replyIn d 0x23 0 stOk (p.take 16 ++ bulkLoad s b r) s

end Sys2Proof.Machine
end

