-- ==== Sys2Proof/Machine/Firmware.lean ====
section
/-! DEFINITION. Meanings of the rows for the Prompter's boot, identity, attestation and firmware commands
(14_prompter_boot_identity.md R358, R365 to R375). -/

namespace Sys2Proof.Machine

/-- PROMPTER_RELEASE: the Prompter is out of reset, and the ROM boots an image or halts (R365). `tiles` are the lane tiles that
answer, `writesOk` whether flash writes succeed. An image that starts queues a boot record (Table Faults-7). -/
def execPrompterRelease (tiles : BitVec 8) (writesOk : Bool) (s : State) : Host.Outcome State Fault Refusal :=
  if s.door.st = .booting ∧ !s.prm.running ∧ !s.prm.halted then
    let s := romBoot tiles writesOk s
    .next (if s.prm.running then queueLog 0x06 0 0 0 0 0 s else s)
  else .next s

/-! ### Commands that write to scratch (R370) -/

/-- May `n` bytes be written from a page on? -/
def pageOk (s : State) (page n : Nat) : Bool :=
  decide (page < 262144) && decide (4096 * page + n ≤ scratchBytes) && !overSheet s (4096 * page) n

/-- Write output to scratch from a page on. -/
def writePage (page : Nat) (l : List Byte) (s : State) : State := { s with dram := memWrite s.dram (scratchBase + 4096 * page) l }

/-- The stored endorsement, where it still verifies (R358, R370). -/
def endorsement (s : State) : Option (List Byte) :=
  let b := flashAt s.flash.endorse 0 7227
  if endorseOk s b then some b else none

/-- IDENT (R370). -/
def execIdent (id : Nat) (s : State) : Host.Outcome State Fault Refusal := match cmdReady s id 0x0060 with
  | none => .next s
  | some c =>
    let out := idRecord s ++ (endorsement s).getD []
    if pageOk s (arg c 0 4) out.length then
      .next (endCmd id stOk (leBytes 4 out.length ++ leBytes 1 (endorsement s).isSome.toNat) (writePage (arg c 0 4) out s))
    else .next (endCmd id stRange [] s)

/-- The attestation report before its signature (Table Prompter-11). With no valid operator table copy, OPTAB is open (DESIGN CHOICE, log 47). -/
def attestBody (s : State) (nonce : List Byte) : List Byte :=
  leBytes 4 0x5254415A ++ [0, 1] ++ zeros 2 ++ leBytes 8 s.fuses.serial.toNat ++ leBytes 8 s.stg.now.toNat ++
    leBytes 4 s.prm.fwver.toNat ++ leBytes 1 s.prm.svn ++ leBytes 1 s.fuses.minSvn.val ++ leBytes 1 s.fuses.fwRevoke.toNat ++
    leBytes 1 (bootByte s).toNat ++ padTo 32 nonce ++ leBytes 64 s.fuses.romDigest.toNat ++ padTo 64 s.prm.digest ++
    sha3 (idRecord s) ++ ((opCopyBytes s).map sha3).getD (freeBytes s 64) ++ padTo 64 s.cue.program ++
    leBytes 8 ((s.topo.plan.map (fun p => p.id)).getD (0 : W64)).toNat ++ zeros 56

/-- ATTEST (R372): it waits for a playbill signature in progress. -/
def execAttest (id : Nat) (s : State) : Host.Outcome State Fault Refusal := match cmdReady s id 0x0061 with
  | none => .next s
  | some c =>
    if s.dig.signing.isSome then .next s
    else if pageOk s (arg c 32 4) 5120 then
      let body := attestBody s (c.args.take 32)
      let s := drawn s
      let sig := mldsaSign s.prm.keymem body ((freeNow s).setWidth 256)
      .next (endCmd id stOk (leBytes 4 5120) (drawn (writePage (arg c 32 4) (body ++ sig ++ zeros 45) s)))
    else .next (endCmd id stRange [] s)

/-! ### Endorsement, update and rollback (R358, R373 to R375) -/

/-- The FIRMWARE window and its first LEN bytes (R371). -/
def fwBase : Nat := scratchBase + 0x3000_0000
def fwWindow (s : State) (off n : Nat) : List Byte := memRead s.dram (fwBase + off) n

/-- A refusal with a REASON of Table Prompter-7 and no further result field. -/
def refuseFw (id reason : Nat) (s : State) : State := endCmd id stRefused (leBytes 1 reason) s

/-- A refused FW_STAGE: SLOT, SVN and the digest are open (DESIGN CHOICE, log 47); the 5 bytes between are reserved and 0
(R10, Table Prompter-9). -/
def refuseStage (id reason : Nat) (s : State) : State :=
  drawn (endCmd id stRefused (leBytes 1 reason ++ freeBytes s 2 ++ zeros 5 ++ leBytes 64 ((freeNow s).toNat / 65536)) s)

/-- A refusal whose further result field, MIN_SVN or FWREVOKE, is that of the fuses (Table Prompter-9). -/
def refuseFuse (id reason field : Nat) (s : State) : State := endCmd id stRefused (leBytes 1 reason ++ leBytes 1 field) s

/-- ENDORSE (R358). Where the program or read-back fails, what the flash then holds of the blob is open (Table Prompter-7)
(DESIGN CHOICE, log 9). -/
def execEndorse (m : MemCmd) (flashOk : Bool) (s : State) : Host.Outcome State Fault Refusal := match cmdReady s m.id 0x0062 with
  | none => .next s
  | some c => readThen m 0x0062 fwBase 7227 s (fun s =>
    let b := fwWindow s 0 7227
    if arg c 0 4 = 7227 ∧ endorseOk s b then
      if flashOk then .next (endCmd m.id stOk [0] { s with flash := { s.flash with endorse := b } })
      else .next (refuseFw m.id 0x07 (drawn { s with flash := { s.flash with endorse := freeBytes s 64 } }))
    else .next (refuseFw m.id 0x0B s))

/-- Put an image into a slot. -/
def setSlot (k : Nat) (b : List Byte) (s : State) : State :=
  if k = 0 then { s with flash := { s.flash with slot0 := b } } else { s with flash := { s.flash with slot1 := b } }

/-- The image in the FIRMWARE window is checked, programmed into the other slot and set to be tried (R373). -/
def stageImage (id len : Nat) (flashOk ctlOk : Bool) (s : State) : State :=
  let r := checkFirmware s.fuses (fwWindow s) (fun n => decide (n = len))
  if r ≠ 0 then refuseStage id r s
  else
    let k := 1 - s.prm.slot
    if !flashOk then refuseStage id 0x07 (setSlot k [] s)
    else
      let img := fwWindow s 0 len
      let s := writeCtl ctlOk { ctlNow s with try_ := k, tried := 0 } (setSlot k img s)
      if !ctlOk then refuseStage id 0x07 s
      else endCmd id stOk ([0] ++ leBytes 1 k ++ leBytes 1 (imgSvn img) ++ zeros 5 ++ sha3 img) s

/-- FW_STAGE (R373). A failed program or read-back of the image leaves the slot invalid; one of the control block leaves the copy in
force. A LEN that no image has is a LAYOUT refusal in its turn (Table Prompter-7). -/
def execFwStage (m : MemCmd) (flashOk ctlOk : Bool) (s : State) : Host.Outcome State Fault Refusal := match cmdReady s m.id 0x0063 with
  | none => .next s
  | some c =>
    let len := arg c 0 4
    if s.cue.run.isSome then .next (endCmd m.id stBusy [] s)
    else if (ctlNow s).try_ ≠ 0xFF ∨ s.prm.trial then .next (refuseStage m.id 0x08 s)
    else readThen m 0x0063 fwBase (min len 8388608) s (fun s => .next (stageImage m.id len flashOk ctlOk s))

/-- FW_ACTIVATE (R374): the Prompter is reset, every session closes, and the ROM boots the trial (DEDUCED, log 28). -/
def execFwActivate (id : Nat) (s : State) : Host.Outcome State Fault Refusal := match cmdReady s id 0x0064 with
  | none => .next s
  | some _ =>
    if s.cue.run.isSome then .next (endCmd id stBusy [] s)
    else if (ctlNow s).try_ = 0xFF then .next (endCmd id stRefused [0x09] s)
    else .next (checkAlive (resetPrompter { s with door := { s.door with st := .booting, bootAt := s.time } }))

/-- MIN_SVN after a raise to the running image's SVN: fuse bits only go from 0 to 1 (R355), and a write past 64 is refused (R359). -/
def raiseSvn (s : State) : Fin 65 := if s.prm.svn ≤ 64 then Fin.ofNat 65 (max s.fuses.minSvn.val s.prm.svn) else s.fuses.minSvn

/-- FW_COMMIT (R374). -/
def execFwCommit (id : Nat) (flashOk : Bool) (s : State) : Host.Outcome State Fault Refusal := match cmdReady s id 0x0065 with
  | none => .next s
  | some c =>
    if !s.prm.trial then .next (refuseFuse id 0x09 s.fuses.minSvn.val s)
    else if !flashOk then
      .next (refuseFuse id 0x07 s.fuses.minSvn.val (writeCtl false { gen := 0, active := s.prm.slot, try_ := 0xFF, tried := 0 } s))
    else
      let s := writeCtl true { gen := 0, active := s.prm.slot, try_ := 0xFF, tried := 0 } s
      let s := { s with
        prm := { s.prm with trial := false }
        fuses := { s.fuses with minSvn := if arg c 0 1 = 1 then raiseSvn s else s.fuses.minSvn } }
      .next (endCmd id stOk ([0] ++ leBytes 1 s.fuses.minSvn.val) s)

/-- The FW_STATUS entry of one slot: SVN, FWVER and the digest of any image whose header can be read; of a slot without one, only VALID is
stated (Table Prompter-10) (DESIGN CHOICE, log 47). -/
def slotStatus (s : State) (k : Nat) : List Byte :=
  if checkSlot s k ≠ 1 ∧ checkSlot s k ≠ 2 then
    let h := flashAt (slotBytes s k) 0 8192
    leBytes 1 (decide (checkSlot s k = 0)).toNat ++ leBytes 1 (imgSvn h) ++ zeros 2 ++ leBytes 4 (imgVer h).toNat ++ slotDigest s k (imgLen h)
  else
    let f := (Config.free (s.draws + 2 * k)).toNat
    [0] ++ leBytes 1 f ++ zeros 2 ++ leBytes 4 (f / 256) ++ leBytes 64 (Config.free (s.draws + 2 * k + 1)).toNat

/-- FW_STATUS (Table Prompter-10). -/
def execFwStatus (id : Nat) (s : State) : Host.Outcome State Fault Refusal := match cmdReady s id 0x0066 with
  | none => .next s
  | some _ =>
    let cb := ctlNow s
    .next (endCmd id stOk (leBytes 1 cb.active ++ leBytes 1 s.prm.slot ++ leBytes 1 cb.try_ ++ leBytes 1 cb.tried ++ [bootByte s] ++
      leBytes 1 s.fuses.minSvn.val ++ leBytes 1 s.fuses.fwRevoke.toNat ++ [0] ++ slotStatus s 0 ++ slotStatus s 1)
      { s with draws := s.draws + 4 })

/-- Is a key the only one that is not revoked? -/
def onlyKey (s : State) (k : Nat) : Bool :=
  !s.fuses.fwRevoke.getLsbD k && (List.range 4).all (fun i => decide (i = k) || s.fuses.fwRevoke.getLsbD i)

/-- KEY_REVOKE (R375). -/
def execKeyRevoke (id : Nat) (s : State) : Host.Outcome State Fault Refusal := match cmdReady s id 0x0067 with
  | none => .next s
  | some c =>
    let k := arg c 0 1
    if k > 3 then .next (endOpen id s)
    else if k = s.prm.keyIdx ∨ onlyKey s k then .next (refuseFuse id 0x0A s.fuses.fwRevoke.toNat s)
    else
      let s := { s with fuses := { s.fuses with fwRevoke := s.fuses.fwRevoke ||| BitVec.ofNat 4 (1 <<< k) } }
      .next (endCmd id stOk ([0] ++ leBytes 1 s.fuses.fwRevoke.toNat) s)

end Sys2Proof.Machine
end

