-- ==== Sys2Proof/Machine/BoxOffice.lean ====
section
/-! DEFINITION. Meanings of the box office's rows: its receiver on the core die, the die itself and its SPI port, and the
host's box office commands (15_leave_and_box_office.md R385, R388 to R400). -/

namespace Sys2Proof.Machine

/-! ### The receiver (R396) -/

def boxSticky (bits : BitVec 5) (s : State) : State :=
  fresh .boxSticky 0 (bits.setWidth 64) { s with boxRx := { s.boxRx with sticky := s.boxRx.sticky ||| bits } }

def readingMagic : Nat := 0x5258425A
def ckptMagic : Nat := 0x4358425A
def identMagic : Nat := 0x4958425A

/-- CHAIN of a reading (Table Leave-4), and the CHAIN that follows on from another (R392). -/
def chainOf (r : List Byte) : List Byte := (r.drop 0x78).take 64
def nextChain (prev body : List Byte) : List Byte := sha3 (prev ++ body.take 0x78)

/-- Flags of a reading that arrives: FORMAT, and SEQ_GAP and CHAIN_BAD against the last reading held (DEDUCED, log 30). -/
def readingFlags (held : List (List Byte)) (bytes : List Byte) (ok : Bool) : BitVec 5 :=
  (if ok then 0 else 1) ||| (match held with
    | [] => 0
    | p :: _ => (if leAt bytes 8 8 = (leAt p 8 8 + 1) % 2 ^ 64 then 0 else 4) |||
        (if chainOf bytes = nextChain (chainOf p) bytes then 0 else 2)) |||
    (if ok ∧ (byteAt bytes 6).getLsbD 2 then 16 else 0)

/-- A valid reading brings BOARD_CAP and DIDT to the riding master, once that is released (R378, R383, R385) (DEDUCED, log 30). -/
def takeBoard (bytes : List Byte) (s : State) : State :=
  if s.rid.released then
    capChanged { s with rid := { s.rid with board := some (leAt bytes 0x20 2, leAt bytes 0x22 2), lastAt := s.time, lost := false } }
  else s

/-- Is the CRC-32 that frames a record right (R396) (PRESUMED, log 7)? -/
def crcOk (bytes : List Byte) (crc : BitVec 32) : Bool := decide (crc = crc32 bytes)

/-- BOX_READING, in its frame (R378, R383, R396) (DEDUCED, log 30). -/
def execBoxReading (bytes : List Byte) (crc : BitVec 32) (s : State) : Host.Outcome State Fault Refusal :=
  let ok := crcOk bytes crc && decide (leAt bytes 0 4 = readingMagic)
  let s := boxSticky (readingFlags s.boxRx.readings bytes ok) s
  let s := { s with boxRx := { s.boxRx with readings := (bytes :: s.boxRx.readings).take 4096 } }
  if ok then .next (takeBoard bytes { s with boxRx := { s.boxRx with valid := true, last := bytes } }) else .next s

/-- BOX_RECORD: a checkpoint, an identity block or a log record, known by MAGIC; a record of any other MAGIC fails the check and
is kept with the log records (R396) (DESIGN CHOICE, log 31). -/
def execBoxRecord (bytes : List Byte) (crc : BitVec 32) (s : State) : Host.Outcome State Fault Refusal :=
  let m := leAt bytes 0 4
  let known := decide (m = ckptMagic) || decide (m = identMagic) || decide (m = Config.boxLogMagic.toNat)
  let s := if crcOk bytes crc && known then s else boxSticky 1 s
  .next { s with boxRx :=
    if m = ckptMagic then { s.boxRx with ckpts := (bytes :: s.boxRx.ckpts).take 4 }
    else if m = identMagic then { s.boxRx with ident := bytes }
    else { s.boxRx with logs := (bytes :: s.boxRx.logs).take 4 } }

/-- BOX_LOST: 10 ms with no reading (R385). The last BOARD_CAP and DIDT stay (DEDUCED, log 35). -/
def execBoxLost (s : State) : Host.Outcome State Fault Refusal :=
  if s.rid.released ∧ !s.rid.lost ∧ s.rid.lastAt + 10 * ms ≤ s.time then
    let s := boxSticky 8 (rideSticky 4 { s with rid := { s.rid with lost := true } })
    .next (raise { src := srcBox, sticky := s.boxRx.sticky.setWidth 64 } s)
  else .next s

/-! ### The die (R388 to R395) -/

/-- The calibration record as bytes, and its check: its key is the fused metrology key and its signature stands (R391). -/
def calBytes (c : CalRecord) : List Byte := Config.calBody c.gain c.offset c.instrument c.date ++ c.key ++ c.sig
def calOk (b : BoxDie) (c : CalRecord) : Bool :=
  decide (sha3 c.key = leBytes 64 b.metroKey.toNat) && mldsaVerify c.key (Config.calBody c.gain c.offset c.instrument c.date) c.sig

/-- The record that the box office uses: only the LCM build has one, and only one whose signature verifies is used (R391). -/
def calUsed (b : BoxDie) : Option CalRecord := if b.lcm then b.cal.filter (calOk b) else none

/-- A record in its frame on the serial path: its CRC-32 follows it (R396) (PRESUMED, log 7). -/
def framed (rec' : List Byte) : Out := .boxPath (rec' ++ crc32Bytes rec')

/-- POWER of a channel: the mean over the 1 ms interval of the energy that it adds to its counter, in 0.1 W, as the operand rounds
it; an operand that is neither of the two roundings counts as the lower one (R392) (DESIGN CHOICE, log 114). -/
def meanPower (energy : W64) (power : BitVec 16) : Nat :=
  let e := energy.toNat
  if power.toNat = (e + 99) / 100 then power.toNat else min 0xFFFF (e / 100)

/-- A reading (Table Leave-4). -/
def readingBody (b : BoxDie) (power : Vector Nat 8) : List Byte :=
  let flags := (if b.lcm then 1 else 0) + (if b.unsealed then 0 else 2) + (if b.sealEvent then 4 else 0) +
    (if b.mainOff then 8 else 0) + (if (calUsed b).isSome then 16 else 0)
  leBytes 4 readingMagic ++ [0, 1] ++ leBytes 2 flags ++ leBytes 8 b.seq.toNat ++ leBytes 8 b.slow.toNat ++ leBytes 4 b.boot.toNat ++
    leBytes 4 b.sealCnt.toNat ++ leBytes 2 b.cap ++ leBytes 2 b.didt ++ leBytes 4 b.fwver.toNat ++
    b.energy.toList.flatMap (fun e => leBytes 8 e.toNat) ++ power.toList.flatMap (leBytes 2)

/-- At an interval's end a stored SET_CAP and a committed image take effect (R398, R399). -/
def boxBoundary (b : BoxDie) : BoxDie :=
  let b := match b.capNext with
    | some c => { b with cap := c.1, didt := c.2, capNext := none }
    | none => b
  match b.switchTo with
  | some v => { b with fwver := v, minSvn := if (v.setWidth 8).toNat > b.minSvn.toNat then v.setWidth 8 else b.minSvn
                       switchTo := none, staged := none, logDue := b.logDue ++ [.firmware] }
  | none => b

/-- Energy counters never go backward (R389). -/
def addEnergy (a d : Vector W64 8) : Vector W64 8 :=
  Vector.ofFn (fun i => BitVec.ofNat 64 (min (2 ^ 64 - 1) (a[i].toNat + d[i].toNat)))

/-- SLOW counts in a minute and in an hour. -/
def slowMinute : Nat := 32768 * 60
def slowHour : Nat := 60 * slowMinute

/-- A minute that has passed by the SLOW count keeps what each channel drew in it (R395) (DESIGN CHOICE, log 114). -/
def takeMinute (b : BoxDie) : BoxDie :=
  if b.minuteSlow.toNat + slowMinute ≤ b.slow.toNat then
    { b with
      minutes := b.minutes ++ [(Vector.ofFn (fun (i : Fin 8) => b.energy[i] - b.minuteEnergy[i])).toList]
      minuteSlow := BitVec.ofNat 64 (b.minuteSlow.toNat + slowMinute), minuteEnergy := b.energy }
  else b

/-- The box office closes and sends a reading: `energy` is what each channel drew in the interval, `slow` the SLOW count. -/
def closeReading (energy : Vector W64 8) (power : Vector (BitVec 16) 8) (slow : W64) (b : BoxDie) : BoxDie :=
  let b := boxBoundary (takeMinute { b with energy := addEnergy b.energy energy, slow := slow })
  let body := readingBody b (Vector.ofFn (fun i => meanPower energy[i] power[i]))
  let chain := nextChain b.chain body
  { b with
    last := body ++ chain ++ zeros 8, chain := chain, seq := b.seq + 1
    ckptDue := if b.seq.toNat % 1024 = 1023 then some (b.seq, chain) else b.ckptDue
    unsealed := b.sealOpen, sealEvent := false, mainOff := b.mainLow, closeAt := b.closeAt + ms }

/-- Is the checkpoint that is due 500 ms late: no reading closes before it (R393, R394) (DESIGN CHOICE, log 32)? -/
def ckptLate (b : BoxDie) : Bool := b.ckptDue.any (fun c => decide (c.1.toNat + 500 < b.seq.toNat))

/-- READING_CLOSE (R392) (DESIGN CHOICE, log 32). -/
def execReadingClose (energy : Vector W64 8) (power : Vector (BitVec 16) 8) (slow : W64) (s : State) : Host.Outcome State Fault Refusal :=
  if s.boxDie.powered ∧ s.boxDie.closeAt ≤ s.time ∧ !ckptLate s.boxDie then
    let b := closeReading energy power slow s.boxDie
    .next (emit (framed b.last) { s with boxDie := b })
  else .next s

/-- Sign with the box office key (R388). -/
def boxSign (s : State) (body : List Byte) : List Byte :=
  mldsaSign (mldsaPrivate s.boxDie.seed) body ((freeNow s).setWidth 256)

/-- The identity block (R393): MAGIC, 4 reserved bytes, die identity word, public key, calibration record digest (DESIGN CHOICE, log 31). -/
def boxIdBlock (b : BoxDie) : List Byte :=
  leBytes 4 identMagic ++ zeros 4 ++ leBytes 8 b.ident.toNat ++ mldsaPublic b.seed ++
    (match calUsed b with
      | some c => sha3 (calBytes c)
      | none => zeros 64)

/-- Bytes 0x000 to 0x07F of a checkpoint (R393, Table Audit-8). -/
def ckptHead (s : State) (seq : W64) (chain : List Byte) : List Byte :=
  leBytes 4 ckptMagic ++ [0, 1, 0, 0] ++ leBytes 8 seq.toNat ++ leBytes 8 s.boxDie.ident.toNat ++ leBytes 8 s.fuses.serial.toNat ++
    zeros 32 ++ padTo 64 chain

/-- CHECKPOINT: the checkpoint and the identity block are sent, and energy, CHAIN and a SEQ ceiling are stored (R393, R394) (DESIGN CHOICE, log 32). -/
def execCheckpoint (s : State) : Host.Outcome State Fault Refusal := match s.boxDie.ckptDue with
  | none => .next s
  | some (seq, chain) =>
    if !s.boxDie.powered then .next s
    else
      let head := ckptHead s seq chain
      let rec' := head ++ boxSign s head ++ zeros 45
      let block := boxIdBlock s.boxDie
      let b := { s.boxDie with
        ckptDue := none, ckpt := rec', idBlock := block
        stored := some (s.boxDie.energy, s.boxDie.chain, s.boxDie.seq - 1 + 2048) }
      .next (emit (framed block) (emit (framed rec') (drawn { s with boxDie := b })))

/-- Is a log record of a cause due: the hourly one by the SLOW count? -/
def logIsDue (b : BoxDie) (c : LogCause) : Bool :=
  if c = .hourly then decide (b.hourSlow.toNat + slowHour ≤ b.slow.toNat) else b.logDue.contains c

/-- The record of a cause before its signature: the hourly one has the energy of its 60 minutes (R395) (DESIGN CHOICE, log 31). -/
def logBody (b : BoxDie) (c : LogCause) : List Byte :=
  Config.boxLogBody c (if c = .hourly then b.minutes.take 60 else []) b.hourSeq (b.seq - 1)

/-- The die after its record of a cause: an hourly one begins the next hour (R395). -/
def loggedDie (rec' : List Byte) (c : LogCause) (b : BoxDie) : BoxDie :=
  let b := { b with logs := (rec' :: b.logs).take 7000 }
  if c = .hourly then
    { b with hourSlow := BitVec.ofNat 64 (b.hourSlow.toNat + slowHour), hourSeq := b.seq, minutes := b.minutes.drop 60 }
  else { b with logDue := b.logDue.erase c }

/-- LOG_RECORD: a signed record that is due is written to the box office flash and sent (R395, R396) (DESIGN CHOICE, log 32). -/
def execLogRecord (cause : LogCause) (s : State) : Host.Outcome State Fault Refusal :=
  if s.boxDie.powered ∧ logIsDue s.boxDie cause then
    let body := logBody s.boxDie cause
    let rec' := body ++ boxSign s body
    .next (emit (framed rec') (drawn { s with boxDie := loggedDie rec' cause s.boxDie }))
  else .next s

/-- The die after a power-up, whose first interval starts at a time. It stores the ceiling of the SEQ values that it may now use, so
that none is used twice (R394) (DESIGN CHOICE, log 32). -/
def boxStart (start : Nat) (b : BoxDie) : BoxDie :=
  let boot := b.boot + 1
  let base := match b.stored with
    | some (e, c, q) => (e, c, q)
    | none => (Vector.replicate 8 0, zeros 64, 0)
  let b := match b.capNext with
    | some c => { b with cap := c.1, didt := c.2, capNext := none }
    | none => b
  { b with
    powered := true, boot := boot, energy := base.1, seq := base.2.2, chain := sha3 (base.2.1 ++ leBytes 4 boot.toNat)
    ckptDue := none, unsealed := b.sealOpen, sealEvent := false, mainOff := b.mainLow, logDue := b.logDue ++ [.powerUp]
    stored := some (base.1, base.2.1, base.2.2 + 2048), minutes := [], minuteSlow := b.slow, minuteEnergy := base.1
    hourSeq := base.2.2, closeAt := start + ms }

/-- BOX_POWER_UP: 3.3 V standby has been in range for 2 ms; the first interval starts as STANDBY_POR releases (R394). -/
def execBoxPowerUp (s : State) : Host.Outcome State Fault Refusal :=
  if s.boxDie.powered ∨ s.rst.asserted.getLsbD 0 then .next s
  else .next { s with boxDie := boxStart s.rst.porAt s.boxDie }

/-- The seal after METER_SEAL_N goes to a level: one that closes discards the staged image, in an unpowered die too (R399) (DEDUCED,
log 115). -/
def moveSeal (high : Bool) (b : BoxDie) : BoxDie :=
  if b.sealOpen = high then b
  else
    let b := if b.powered then
        { b with sealEvent := true, unsealed := true, logDue := b.logDue ++ [.sealChange]
                 sealCnt := if high then b.sealCnt + 1 else b.sealCnt }
      else b
    let b := { b with sealOpen := high }
    if high then b else { b with staged := none, switchTo := none }

/-- SEAL_CHANGE. -/
def execSealChange (high : Bool) (s : State) : Host.Outcome State Fault Refusal := .next { s with boxDie := moveSeal high s.boxDie }

/-! ### The SPI port (R397 to R399) -/

/-- The command that a frame of BOX_CS_N picks: an opcode, its arguments, little-endian (R9), and a dummy byte; the returned bytes
follow it (Table Leave-5). A frame of another opcode or without its dummy byte picks none (DESIGN CHOICE, log 116). -/
def portCommand (frame : List Byte) : Option Instr :=
  let args := frame.tail
  let whole (n : Nat) (i : Instr) : Option Instr := if args.length > n then some i else none
  match frame.head? with
  | some 0x01 => whole 0 .readLast
  | some 0x02 => whole 0 .readId
  | some 0x03 => whole 0 .readCkpt
  | some 0x04 => whole 4 (.readLog (BitVec.ofNat 32 (leAt args 0 4)))
  | some 0x05 => whole 0 .status
  | some 0x10 => whole 4 (.setCap (BitVec.ofNat 16 (leAt args 0 2)) (BitVec.ofNat 16 (leAt args 2 2)))
  | some 0x20 => whole 260 (.fwWrite (BitVec.ofNat 32 (leAt args 0 4)) ((args.drop 4).take 256))
  | some 0x21 => whole 4 (.boxFwCommit (BitVec.ofNat 32 (leAt args 0 4)))
  | _ => none

/-- A frame on the port puts the command that it picks into the queue. -/
def State.withPortFrame (s : State) (frame : List Byte) : State :=
  { s with pending := s.pending ++ (portCommand frame).toList }

/-- Answer on the port while the die is powered. -/
def portAnswer (l : List Byte) (s : State) : State := if s.boxDie.powered then emit (.boxPort l) s else s

/-- Answer with a record, or with open bytes where none is held yet (DESIGN CHOICE, log 47). -/
def portRecord (l : List Byte) (s : State) : State := if l.isEmpty then drawn (portAnswer (freeBytes s 64) s) else portAnswer l s

/-- READ_LAST, READ_ID, READ_CKPT, READ_LOG. -/
def execReadLast (s : State) : Host.Outcome State Fault Refusal := .next (portRecord s.boxDie.last s)
def execReadId (s : State) : Host.Outcome State Fault Refusal := .next (portAnswer (boxIdBlock s.boxDie) s)
def execReadCkpt (s : State) : Host.Outcome State Fault Refusal := .next (portRecord s.boxDie.ckpt s)
def execReadLog (index : BitVec 32) (s : State) : Host.Outcome State Fault Refusal := .next (portRecord (s.boxDie.logs.getD index.toNat []) s)

/-- STATUS: BUSY while a committed image waits for its switch; LAST_OK of the last SET_CAP, FW_WRITE or FW_COMMIT. -/
def execStatus (s : State) : Host.Outcome State Fault Refusal :=
  .next (portAnswer (leBytes 1 ((if s.boxDie.switchTo.isSome then 1 else 0) + (if s.boxDie.lastOk then 2 else 0))) s)

/-- SET_CAP (R398). -/
def execSetCap (cap didt : BitVec 16) (s : State) : Host.Outcome State Fault Refusal :=
  if !s.boxDie.powered then .next s
  else if 600 ≤ cap.toNat ∧ cap.toNat ≤ 950 ∧ 10 ≤ didt.toNat ∧ didt.toNat ≤ 200 then
    .next { s with boxDie := { s.boxDie with capNext := some (cap.toNat, didt.toNat), lastOk := true } }
  else .next { s with boxDie := { s.boxDie with lastOk := false } }

/-- FW_WRITE (R399). -/
def execFwWrite (offset : BitVec 32) (data : List Byte) (s : State) : Host.Outcome State Fault Refusal :=
  if !s.boxDie.powered then .next s
  else if !s.boxDie.sealOpen then .next { s with boxDie := { s.boxDie with lastOk := false } }
  else
    let new := data.zipIdx.map (fun x => (offset.toNat + x.2, x.1))
    let old := (s.boxDie.staged.getD []).filter (fun c => !(decide (offset.toNat ≤ c.1) && decide (c.1 < offset.toNat + data.length)))
    .next { s with boxDie := { s.boxDie with staged := some (old ++ new), lastOk := true } }

/-- The staged image: a byte that nothing has written is open (DESIGN CHOICE, log 33). -/
def stagedImage (s : State) (n : Nat) : List Byte :=
  (List.range n).map (fun i => match (s.boxDie.staged.getD []).find? (fun c => decide (c.1 = i)) with
    | some c => c.2
    | none => (Config.free (s.draws + i)).setWidth 8)

/-- Does a staged image verify: its key is the metrology key of the fuses, its signature stands, and its SVN is allowed (R399)? -/
def boxImageOk (b : BoxDie) (img : List Byte × List Byte × List Byte × BitVec 32) : Bool :=
  decide (sha3 img.1 = leBytes 64 b.metroKey.toNat) && mldsaVerify img.1 img.2.1 img.2.2.1 &&
    decide ((img.2.2.2.setWidth 8 : Byte).toNat ≥ b.minSvn.toNat)

/-- FW_COMMIT of the box office port (R399) (DESIGN CHOICE, log 33). -/
def execBoxFwCommit (len : BitVec 32) (s : State) : Host.Outcome State Fault Refusal :=
  if !s.boxDie.powered then .next s
  else
    let img := Config.boxImage (stagedImage s len.toNat)
    if s.boxDie.sealOpen ∧ s.boxDie.staged.isSome ∧ boxImageOk s.boxDie img then
      .next { s with draws := s.draws + len.toNat, boxDie := { s.boxDie with switchTo := some img.2.2.2, lastOk := true } }
    else .next { s with draws := s.draws + len.toNat, boxDie := { s.boxDie with lastOk := false } }

/-! ### Host commands (R400) -/

/-- BOX_LAST: where no reading is held its bytes are open (DESIGN CHOICE, log 47). -/
def execBoxLast (id : Nat) (s : State) : Host.Outcome State Fault Refusal := match cmdReady s id 0x0071 with
  | none => .next s
  | some _ => match s.boxRx.readings with
    | r :: _ => .next (endCmd id stOk (r.take 192) s)
    | [] => .next (drawn (drawn (drawn (endCmd id stOk (freeBytes s 64 ++ freeBytes (drawn s) 64 ++ freeBytes (drawn (drawn s)) 64) s))))

/-- BOX_COPY: held readings from FROM on, oldest first, then what else the receiver holds. -/
def execBoxCopy (id : Nat) (s : State) : Host.Outcome State Fault Refusal := match cmdReady s id 0x0072 with
  | none => .next s
  | some c =>
    let rs := (s.boxRx.readings.reverse.filter (fun r => decide (arg c 0 8 ≤ leAt r 8 8))).take (arg c 8 4)
    let out := rs.flatten ++ s.boxRx.ckpts.reverse.flatten ++ s.boxRx.ident ++ s.boxRx.logs.reverse.flatten
    if pageOk s (arg c 12 4) out.length then
      let first := match rs with
        | r :: _ => leBytes 8 (leAt r 8 8)
        | [] => freeBytes s 8
      .next (drawn (endCmd id stOk (first ++ leBytes 4 rs.length) (writePage (arg c 12 4) out s)))
    else .next (endCmd id stRange [] s)

end Sys2Proof.Machine
end

