-- ==== Sys2Proof/Machine/Bringup.lean ====
section
/-! DEFINITION. Meanings of the reset sources, warm entry and bring-up rows (17_reset_and_bringup.md R423 to R438, 09 R229,
R230, 19 R456). -/

namespace Sys2Proof.Machine

/-! ### Sources (R423, R425 to R427) -/

/-- A source is released. -/
def releaseBit (b : Fin 7) (s : State) : State :=
  { s with rst := { s.rst with asserted := s.rst.asserted &&& ~~~BitVec.ofNat 7 (1 <<< b.val) } }

/-- A COLD or POWER source, and a WARM source, is asserted or released; one that already is stays so. -/
def wideSource (b : Fin 7) (on : Bool) (s : State) : State :=
  if on = s.rst.asserted.getLsbD b.val then s else if on then assertWide b s else releaseBit b s
def warmSource (b : Fin 7) (on : Bool) (s : State) : State :=
  if on = s.rst.asserted.getLsbD b.val then s else if on then assertWarm b s else releaseBit b s

/-- STANDBY_POR: every rail that the module makes is turned off, so that MAIN_POR is asserted too, and the regulators start after its
release (R457). Without standby the box office has no supply either (R388). Toggle points are counted from its release. -/
def execStandbyPor (assert : Bool) (s : State) : Host.Outcome State Fault Refusal :=
  if assert = s.rst.asserted.getLsbD 0 then .next s
  else if assert then
    .next (assertWide 0 (markSource 1 (emit (.rails false) { s with boxDie := { s.boxDie with powered := false } })))
  else .next (emit (.rails true) (releaseBit 0 { s with rst := { s.rst with porAt := s.time } }))

/-- A rail is out of its range (R456). -/
def railOut (rail : Fin 8) (s : State) : State :=
  { s with rst := { s.rst with rails := s.rst.rails.filter (fun x => !decide (x.1 = rail)) ++ [(rail, none)] } }

/-- MAIN_POR: a rail from 12 V main that falls also raises SUPPLY, which is counted and logged without its reaction (R456). The
box office sees 12 V main itself. It is released 1 ms after every such rail is in range, and not before STANDBY_POR is (R423, R457). -/
def execMainPor (assert : Bool) (rail : Fin 8) (s : State) : Host.Outcome State Fault Refusal :=
  if rail.val = 7 then .next s
  else if assert then
    let s := if rail.val = 0 then { s with boxDie := { s.boxDie with mainLow := true, mainOff := true } } else s
    .next (wideSource 1 true (countRaise 0x01 { src := srcSupply, index := BitVec.ofNat 4 rail.val } 0 (railOut rail s)).1)
  else if s.rst.asserted.getLsbD 0 then .next s
  else .next (wideSource 1 false { s with
    boxDie := { s.boxDie with mainLow := false }
    rst := { s.rst with rails := s.rst.rails.filter (fun x => decide (x.1 = 7)) } })

/-- RESET_N and WARM_N. -/
def execResetN (assert : Bool) (s : State) : Host.Outcome State Fault Refusal := .next (wideSource 2 assert s)
def execWarmN (assert : Bool) (s : State) : Host.Outcome State Fault Refusal := .next (warmSource 3 assert s)

/-- End of the 1 ms of a source. -/
def timerEnd (s : State) (b : Fin 7) : Nat := if b.val = 4 then s.rst.end4 else if b.val = 5 then s.rst.end5 else s.rst.end6

/-- SOFTWARE_RESET_END: the 1 ms of SW_COLD, SW_WARM or FAULT_WARM ends; a WARM one has not started before warm entry ends. -/
def execSoftwareResetEnd (src : Fin 7) (s : State) : Host.Outcome State Fault Refusal :=
  if src.val ≥ 4 ∧ s.rst.asserted.getLsbD src.val ∧ !s.rst.warmFor.getLsbD src.val ∧ timerEnd s src ≤ s.time then
    .next (releaseBit src s)
  else .next s

/-! ### Warm entry (R427) -/

/-- WARM_ENTRY_END, within the 50 µs. -/
def execWarmEntryEnd (s : State) : Host.Outcome State Fault Refusal := match s.rst.warmAt with
  | some t => if s.time < t + 50 * us then .next (takeReach .warm s) else .next s
  | none => .next s

/-- WARM_ENTRY_TIMEOUT. -/
def execWarmEntryTimeout (s : State) : Host.Outcome State Fault Refusal := match s.rst.warmAt with
  | some t =>
    if t + 50 * us ≤ s.time then
      let s := takeReach .cold s
      .next (rstSticky 2 s)
    else .next s
  | none => .next s

/-! ### The exit (R425, R432 to R434, R437) -/

/-- RST_STATUS.EXIT of a reach. -/
def exitCode (r : Reach) : BitVec 2 := BitVec.ofNat 2 (reachRank r)

/-- Do eight converter codes lie in one band, and which (R433)? -/
def strapBand (l : List (BitVec 6)) : Option Nat := match l with
  | [] => none
  | c :: r => if r.all (fun x => decide (x.toNat / 4 = c.toNat / 4)) then some (c.toNat / 4) else none

/-- Read the strap: the first set of eight that agrees; the sets taken up to it. -/
def readStrap : List (List (BitVec 6)) → Option Nat × List (List (BitVec 6))
  | [] => (none, [])
  | l :: r => match strapBand l with
    | some k => (some k, [l])
    | none => let x := readStrap r
              (x.1, l :: x.2)

/-- Choice, code and STRAP_BAD of a strap read. -/
def strapRead (samples : List (List (BitVec 6))) (s : State) : State :=
  let x := readStrap (samples.take 4)
  let code := ((x.2.getLast?).bind List.getLast?).getD s.rst.code
  match x.1 with
  | some k => { s with rst := { s.rst with choice := BitVec.ofNat 4 k, code := code } }
  | none => rstSticky 1 { s with rst := { s.rst with choice := 0, code := code } }

/-- Under LANE_HOLD every port starts with ENABLE = 0 (Table Reset-3). -/
def laneHold (s : State) : State :=
  if s.rst.choice.getLsbD 2 then
    { s with lane := { s.lane with ports := s.lane.ports.map (fun p => { p with ctrl := p.ctrl &&& ~~~1 }) } }
  else s

/-- The EEPROM read starts, unless EQ_SKIP is set (R434, R435). -/
def startTable (s : State) : State := if s.rst.choice.getLsbD 1 then s else setEeprom true s

/-- RESET_EXIT: every source is released, and the exit of the widest reach seen starts; a WARM exit loads no options (DEDUCED, log 38). -/
def execResetExit (samples : List (List (BitVec 6))) (s : State) : Host.Outcome State Fault Refusal :=
  if s.rst.held ∧ s.rst.asserted = 0 ∧ s.rst.warmAt.isNone then
    let s := { s with rst := { s.rst with
      held := false, exiting := true, exitAt := s.time, exit := exitCode s.rst.widest, causeReach := exitCode s.rst.widest
      causeSeen := s.rst.seen, optDone := decide (exitCode s.rst.widest = 1) } }
    .next (laneHold (if s.rst.optDone then s else startTable (strapRead samples s)))
  else .next s

/-- Start the ports that may start. -/
def startPorts (s : State) : State := (List.range 64).foldl (fun s p => applyEnable (Fin.ofNat 64 p) s) s

/-- ONDIE_READY: arena and deck units, Prompter and host MACs are released; the stage door enters BOOTING. -/
def execOndieReady (s : State) : Host.Outcome State Fault Refusal :=
  if !s.rst.exiting ∨ s.rst.ondie then .next s
  else .next (startPorts { s with
    rst := { s.rst with ondie := true }
    door := { s.door with st := .booting, bootAt := s.time }
    rid := { s.rid with released := true, lastAt := s.time, throttleAt := s.time } })

/-- REF_LOCK: the stage clock unit is released in FREE with STG_NOW 0. -/
def execRefLock (s : State) : Host.Outcome State Fault Refusal :=
  if s.rst.held ∨ s.rst.warmAt.isSome ∨ s.rst.refLock then .next s
  else .next (startPorts { s with rst := { s.rst with refLock := true }, stg := { s.stg with released := true } })

/-- REFCLK_LATE (R438). -/
def execRefclkLate (s : State) : Host.Outcome State Fault Refusal :=
  if !s.rst.held ∧ s.rst.warmAt.isNone ∧ !s.rst.refLock ∧ s.rst.exitAt + 10 * ms ≤ s.time then
    .next (rstSticky 8 s)
  else .next s

/-- LPDDR6_TRAINED: in a COLD or POWER exit the data space fill starts. -/
def execLpddr6Trained (s : State) : Host.Outcome State Fault Refusal :=
  if s.rst.exiting ∧ s.rst.ondie ∧ s.rst.exit ≠ 1 then .next { s with rst := { s.rst with trained := true } } else .next s

/-! ### The equalisation table (R229, R230) -/

/-- Is the table valid? -/
def tableOk (b : List Byte) : Bool :=
  decide (leAt b 0 4 = 0x5451455A) && decide (leAt b 4 2 = 0x0100) && decide (leAt b 6 2 = 512) &&
    decide ((b.drop 0x1040).take 4 = crc32Bytes (b.take 0x1040))

/-- The entry of a lane in the table; none where it is invalid on its own. -/
def tableEntry (b : List Byte) (l : Nat) : Option (BitVec 27) :=
  let e := leAt b (0x40 + 8 * l) 8
  if e < 2 ^ 27 ∧ e % 16 + e / 16 % 32 + e / 512 % 32 ≤ 31 then some (BitVec.ofNat 27 e) else none

/-- Every lane takes an entry. -/
def setEntries (f : Nat → BitVec 27) (s : State) : State :=
  { s with lane := { s.lane with lanes := s.lane.lanes.mapFinIdx (fun i x _ => { x with entry := f i }) } }

/-- Default entries for every lane (R230, Table Reset-3) (DEDUCED, log 39). -/
def defaultTable (s : State) : State :=
  let s := setEntries (fun _ => defaultEntry) s
  { s with lane := { s.lane with useDefault := true } }

/-- A valid table is taken entry by entry (DEDUCED, log 39). -/
def takeTable (b : List Byte) (s : State) : State :=
  let bad := (List.range 512).filter (fun l => (tableEntry b l).isNone)
  let s := setEntries (fun l => (tableEntry b l).getD defaultEntry) s
  let s := { s with lane := { s.lane with entryBad := !bad.isEmpty, board := BitVec.ofNat 64 (leAt b 8 8) } }
  raiseAll (bad.map (fun l => ({ src := srcLane, index := BitVec.ofNat 4 (l / 64) } : Raise))) s

/-- The lane tile that a whole table found invalid is reported for: the spec names none (DESIGN CHOICE, log 47) (DEDUCED, log 39). -/
def openTile (s : State) : BitVec 4 := BitVec.ofNat 4 ((freeNow s).toNat % 8)

/-- Have the transfers ended: under EQ_SKIP, with one that did not fail, or after the third that failed (R434)? -/
def readsEnded (s : State) (reads : List (Option (List Byte))) : Bool :=
  s.rst.choice.getLsbD 1 || decide (reads.length = 3) || reads.getLast?.any (·.isSome)

/-- OPT_DONE: the table read ends; `reads` are its transfers in order, none for one that failed. -/
def execOptDone (reads : List (Option (List Byte))) (s : State) : Host.Outcome State Fault Refusal :=
  if s.rst.held ∨ s.rst.optDone ∨ !readsEnded s reads then .next s
  else
    let s := if s.rst.choice.getLsbD 1 then defaultTable s
      else match ((reads.take 3).find? (·.isSome)).bind id with
        | some b =>
          if tableOk b then takeTable b s
          else raise { src := srcLane, index := openTile s } (drawn (defaultTable s))
        | none => raise { src := srcLane, index := openTile s } (drawn (defaultTable s))
    let s := setEeprom false { s with rst := { s.rst with optDone := true }, lane := { s.lane with loaded := true } }
    .next (startPorts s)

/-- MEM_READY: the fill, or the exit from self-refresh, is done; the exit is complete (R425) (DEDUCED, log 38). -/
def execMemReady (s : State) : Host.Outcome State Fault Refusal :=
  if s.rst.exiting ∧ s.rst.ondie ∧ (s.rst.exit = 1 ∨ s.rst.trained) then
    .next { s with rst := { s.rst with
      memReady := true, ready := true, exiting := false, exits := satAdd 0xFFFF s.rst.exits 1, seen := 0, widest := .block
      optRestarts := 0 } }
  else .next s

end Sys2Proof.Machine
end

