-- ==== Sys2Proof/Machine/Clock.lean ====
section
/-! DEFINITION. Meanings of the stage clock's rows (04_cues_and_stage_clock.md R95 to R104) and of the time and notice packets
(10_izano_link.md R260, R261). -/

namespace Sys2Proof.Machine

/-- Ticks of a TMARK period, 1 ms (R96). -/
def tmarkPeriod : Nat := 2000000

/-- ROOT, LEADER, PARENT, RACK and DEPTH in force (Table Cue-13). -/
def stgRoot (s : State) : Bool := s.stg.inForce.getLsbD 7
def stgLeader (s : State) : Bool := s.stg.inForce.getLsbD 6
def stgParent (s : State) : Port := Fin.ofNat 64 (fld s.stg.inForce 5 0)
def stgRack (s : State) : BitVec 10 := BitVec.ofNat 10 (fld s.stg.inForce 25 16)
def stgDepth (s : State) : Nat := fld s.stg.inForce 11 8

/-- The states in which the grid is followed (R100). -/
def tracking (s : State) : Bool := match s.stg.st with
  | .rack | .machine | .holdover => true
  | .free | .stopped => false

/-- Origin of the grid, and grid point G(k): STG_EPOCH counts as it was last loaded (R100) (DESIGN CHOICE, log 80). -/
def gridBase (s : State) : Int := (s.stg.epoch.toNat : Int) + s.stg.grid.toInt
def gridPoint (s : State) (k : Nat) : Int := gridBase s + (k : Int) * tmarkPeriod

/-- The period that STG_NOW is in. -/
def periodNow (s : State) : Nat := (((s.stg.now.toNat : Int) - gridBase s) / (tmarkPeriod : Int)).toNat

/-- The state an epoch load or a good edge enters. -/
def alignedState (s : State) : ClockSt := if stgRoot s then .machine else .rack

/-- The counter follows no grid any more: what was left to slew is dropped. -/
def dropSlew (s : State) : State := { s with stg := { s.stg with slew := 0, sinceSlew := 0, captured := none, missed := 0 } }

/-- The armed load at a TMARK edge; its ARM is cleared already (R99) (DEDUCED, log 57). -/
def epochLoad (s : State) : State :=
  { s with stg := { s.stg with
    now := s.stg.epochReg, epoch := s.stg.epochReg, grid := 0, wall := wallNs s
    st := alignedState s, slew := 0, sinceSlew := 0, nextK := 1, captured := none, missed := 0, noticeAt := s.time, usableAt := s.time, notices := [] } }

/-- An edge captured against the nearest grid point, within 16 ticks of it (R100). -/
def captureEdge (s : State) : State :=
  let d := (s.stg.now.toNat : Int) - gridBase s
  let k := (d + 1000000) / (tmarkPeriod : Int)
  let p := d - k * tmarkPeriod
  if tracking s ∧ k = s.stg.nextK ∧ p.natAbs ≤ 16 then { s with stg := { s.stg with captured := some p } } else s

/-- STG_CTRL as an edge of this arena cycle finds it: a write of the cycle is applied after the edge (R14, R99). -/
def ctrlAtEdge (s : State) : W64 :=
  if (lastWrite s .stgCtrl 0).isSome then cycleWord {} s .stgCtrl else s.stg.ctrl

/-- ARM is cleared at an edge; one that a write of this arena cycle has set stays (R14, R99). -/
def clearArm (s : State) : State :=
  if ((lastWrite s .stgCtrl 0).map (·.getLsbD 12)).getD false then s
  else { s with stg := { s.stg with ctrl := s.stg.ctrl &&& ~~~(put 1 1 12) } }

/-- TMARK_EDGE: the fields of STG_CTRL take effect; an armed load happens unless the clock is STOPPED, or is dropped while a run is
active; the edge is captured (R99, R100). -/
def execTmarkEdge (s : State) : Host.Outcome State Fault Refusal :=
  if !s.stg.released then .next s
  else
    let s := { s with stg := { s.stg with
      inForce := ctrlAtEdge s &&& ~~~(put 1 1 12) } }
    if s.stg.st = .stopped then .next s
    else if (ctrlAtEdge s).getLsbD 12 then
      if s.cue.run.isSome then
        .next (captureEdge (stgSticky 3 (clearArm s)))
      else .next (retryHeld (epochLoad (clearArm s)))
    else .next (captureEdge s)

/-- GRID_POINT_JUDGED: STG_NOW has passed G(k) + 16. A captured edge is good and is slewed in; otherwise the edge is missed, and
two missed in a row enter HOLDOVER (R97, R100) (DEDUCED, log 57). -/
def execGridPointJudged (s : State) : Host.Outcome State Fault Refusal :=
  if s.stg.released ∧ tracking s ∧ (s.stg.now.toNat : Int) > gridPoint s s.stg.nextK + 16 then
    let next (c : StageClock) : StageClock := { c with nextK := c.nextK + 1, captured := none }
    match s.stg.captured with
    | some p =>
      .next { s with stg := next { s.stg with
        missed := 0, slew := s.stg.slew - p, sinceSlew := if s.stg.slew = 0 then 0 else s.stg.sinceSlew
        st := if s.stg.st = .holdover then alignedState s else s.stg.st, noticeAt := if s.stg.st = .holdover then s.time else s.stg.noticeAt } }
    | none =>
      let m := s.stg.missed + 1
      let s := stgSticky 0 { s with stg := next { s.stg with missed := m } }
      if m ≥ 2 ∧ s.stg.st ≠ .holdover then
        let s := stgSticky 1 { s with stg := { s.stg with st := .holdover, holdAt := s.time } }
        .next (raise { src := srcStageHold, sticky := s.stg.sticky.setWidth 64 } s)
      else .next s
  else .next s

/-- SLEW_CORRECTION: in one tick of 4,096 the counter adds 2 or 0 in place of 1 (R100). -/
def execSlewCorrection (s : State) : Host.Outcome State Fault Refusal :=
  if s.stg.released ∧ tracking s ∧ s.stg.slew ≠ 0 ∧ s.stg.sinceSlew + 1 ≥ 4096 then
    let up := decide (s.stg.slew > 0)
    .next { passCycle s with
      time := s.time + 1
      stg := { s.stg with
        now := s.stg.now + (if up then 2 else 0), slew := s.stg.slew + (if up then -1 else 1), sinceSlew := 0 } }
  else .next s

/-- HOLDOVER_EXPIRY: 1,000 ms in HOLDOVER (R97, R103). -/
def execHoldoverExpiry (s : State) : Host.Outcome State Fault Refusal :=
  if s.stg.st = .holdover ∧ s.stg.holdAt + 1000 * ms ≤ s.time then
    .next (clockStop (dropSlew { s with stg := { s.stg with st := .free } }))
  else .next s

/-- NOTICE_TIMEOUT: 64 TMARK periods with no time notice (R97). -/
def execNoticeTimeout (s : State) : Host.Outcome State Fault Refusal :=
  if s.stg.st = .machine ∧ !stgRoot s ∧ s.stg.noticeAt + 64 * tmarkPeriod ≤ s.time then .next { s with stg := { s.stg with st := .rack } } else .next s

/-- PLL_UNLOCK: the clock enters STOPPED (R97, R98, R103). -/
def execPllUnlock (s : State) : Host.Outcome State Fault Refusal :=
  if s.stg.released ∧ s.stg.st ≠ .stopped then
    let s := stgSticky 4 (dropSlew { s with stg := { s.stg with st := .stopped } })
    .next (clockStop (raise { src := srcStagePll, sticky := s.stg.sticky.setWidth 64 } s))
  else .next s

/-- PLL_RELOCK: counting resumes from the frozen value in FREE, which a cued run still active cannot go on in; calls that waited go on
(R97, R103, R189). -/
def execPllRelock (s : State) : Host.Outcome State Fault Refusal :=
  if s.stg.st = .stopped then
    .next (settle (retrySums (retryHeld (clockStop { s with stg := { s.stg with st := .free } })))) else .next s

/-! ### The time tree (R101, R260, R261) -/

/-- Send a packet of the clock unit on ports, link-local. -/
def clockSend (ports : List Port) (pk : Packet) : State → State := originate clockPort pk ports

/-- TIME_EXCHANGE_START: once per TMARK period the leader sends a request on PARENT (R101, R260). -/
def execTimeExchangeStart (s : State) : Host.Outcome State Fault Refusal :=
  let p := stgParent s
  let x := s.lane.ports[p.val]
  if s.stg.released ∧ stgLeader s ∧ tracking s ∧ s.stg.exchangeK ≠ some (periodNow s) ∧ isOpen s p ∧ x.startAt.isSome then
    .next (clockSend [p] (timePacket false false false x.startSfc 0 x.startStg 0 0 (srcAddr s)) { s with stg := { s.stg with
      exchange := some (x.startSfc, x.startStg), exchangeK := some (periodNow s) } })
  else .next s

/-- Arrival tick of a superframe of a port, among the last 64 received. -/
def sfcTick (s : State) (p : Port) (sfc : BitVec 16) : Option W64 := ((s.lane.ports[p.val]).rxLog.find? (fun e => e.1 == sfc)).map (·.2)

/-- Mean of the exchanges held, each the doubled θ: a mean between two ticks is either of them (DESIGN CHOICE, log 46). -/
def thetaMean (l : List Int) : Int :=
  let sum := l.foldl (· + ·) 0
  let n := 2 * l.length
  if n = 0 then 0 else if sum % (n : Int) ≠ 0 ∧ Config.thetaUp sum n then sum / (n : Int) + 1 else sum / (n : Int)

/-- A parent's reply to a request; a value of T2 that its lookup does not give is free (R260). -/
def timeReply (p : Port) (pk : Packet) (s : State) : State :=
  let x := s.lane.ports[p.val]
  let sfcA := BitVec.ofNat 16 (leAt pk.bytes 2 2)
  let t1 := BitVec.ofNat 64 (leAt pk.bytes 8 8)
  let found := sfcTick s p sfcA
  let t2 := found.getD ((freeNow s).setWidth 64)
  let s := if found.isSome then s else drawn s
  clockSend [p] (timePacket true (decide (s.stg.st = .machine)) found.isNone sfcA x.startSfc t1 t2 x.startStg (srcAddr s)) s

/-- The leader takes a reply to its open exchange (R101, R260). -/
def timeTake (p : Port) (pk : Packet) (sfcA : BitVec 16) (t1 : W64) (s : State) : State :=
  let fl := (byteAt pk.bytes 0).toNat
  let s := { s with stg := { s.stg with exchange := none } }
  match sfcTick s p (BitVec.ofNat 16 (leAt pk.bytes 4 2)) with
  | none => s
  | some t4 =>
    if fl.testBit 2 ∨ !fl.testBit 1 ∨ leAt pk.bytes 2 2 ≠ sfcA.toNat then s
    else
      let t2 := (leAt pk.bytes 16 8 : Int)
      let t3 := (leAt pk.bytes 24 8 : Int)
      let d := (t2 - t1.toNat) - ((t4.toNat : Int) - t3)
      let l := d :: s.stg.thetas.take 15
      { s with stg := { s.stg with thetas := l, theta := thetaMean l, usableAt := s.time } }

/-- TIME: a request is answered; a leader takes the reply on PARENT (R260). -/
def execTime (p : Port) (pk : Packet) (s : State) : Host.Outcome State Fault Refusal :=
  if pk.kind = kTime ∧ lengthOk pk then
    let s := takeHanded p pk s
    if !s.stg.released then .next s
    else if (byteAt pk.bytes 0).getLsbD 0 then
      match s.stg.exchange with
      | some (sfcA, t1) => if stgLeader s ∧ p = stgParent s then .next (timeTake p pk sfcA t1 s) else .next s
      | none => .next s
    else .next (timeReply p pk s)
  else .next s

/-- OPEN ports whose peer is a module. -/
def modulePorts (s : State) : List Port := (List.finRange 64).filter (fun p => isOpen s p && peerModule s p)

/-- NOTICE_SEND: once per period the leader sends its rack a time notice, at least two periods ahead, and takes it itself (R101) (DEDUCED, log 57). -/
def execNoticeSend (s : State) : Host.Outcome State Fault Refusal :=
  if s.stg.released ∧ stgLeader s ∧ tracking s ∧ s.stg.noticeK ≠ some (periodNow s) then
    let k := BitVec.ofNat 64 (periodNow s + 2 + ((freeNow s).setWidth 32).toNat)
    let hold := decide (s.stg.usableAt + 16 * tmarkPeriod ≤ s.time)
    let machine := !s.stg.thetas.isEmpty && decide (s.stg.theta.natAbs ≤ 10) && decide (stgDepth s ≤ 8)
    let grid := BitVec.ofInt 32 (s.stg.grid.toInt - s.stg.theta)
    let s := if hold then stgSticky 2 s else s
    let s := { drawn s with stg := { s.stg with
      noticeK := some (periodNow s), noticeAt := s.time, seen := (stgRack s, k) :: s.stg.seen.take 3
      notices := s.stg.notices ++ [⟨k, grid, machine, hold⟩] } }
    .next (clockSend (modulePorts s) (noticePacket (stgRack s) machine hold 8 grid k (srcAddr s)) s)
  else .next s

/-- NOTICE: one not seen before is scheduled if it names this rack, and sent on while it has hops left (R261). -/
def execNotice (p : Port) (pk : Packet) (s : State) : Host.Outcome State Fault Refusal :=
  if pk.kind = kNotice ∧ lengthOk pk then
    let s := takeHanded p pk s
    let rack := BitVec.ofNat 10 (leAt pk.bytes 0 2)
    let fl := (byteAt pk.bytes 2).toNat
    let ttl := (byteAt pk.bytes 3).toNat
    let grid := BitVec.ofNat 32 (leAt pk.bytes 4 4)
    let k := BitVec.ofNat 64 (leAt pk.bytes 8 8)
    if !s.stg.released ∨ s.stg.seen.contains (rack, k) then .next s
    else
      let s := { s with stg := { s.stg with seen := (rack, k) :: s.stg.seen.take 3 } }
      let s := if rack = stgRack s then
          { s with stg := { s.stg with noticeAt := s.time, notices := s.stg.notices ++ [⟨k, grid, fl.testBit 0, fl.testBit 1⟩] } }
        else s
      if ttl > 0 then
        .next (clockSend ((modulePorts s).filter (fun q => !decide (q = p)))
          (noticePacket rack (fl.testBit 0) (fl.testBit 1) (ttl - 1) grid k (srcAddr s)) s)
      else .next s
  else .next s

/-- What a notice's flags do to the state (Table Cue-2); one with both flags moves the clock by the row of the state it is in (DESIGN
CHOICE, log 94). -/
def noticeState (s : State) (n : NoticeRec) : ClockSt :=
  if s.stg.st = .machine ∧ !stgRoot s ∧ n.hold then .rack
  else if s.stg.st = .rack ∧ n.machine then .machine
  else s.stg.st

/-- NOTICE_APPLY: at G(k) a notice's GRID is slewed in, or stepped in when the change exceeds 1,000 ticks and no run is active;
during a run such a step is refused (R101). A correction begun while another is unfinished adds to what is left of it, and GRID takes
its new value at once (DESIGN CHOICE, log 95). -/
def execNoticeApply (s : State) : Host.Outcome State Fault Refusal :=
  let due (n : NoticeRec) : Bool := decide (gridPoint s n.k.toNat ≤ (s.stg.now.toNat : Int))
  if s.stg.released ∧ tracking s then
    match s.stg.notices.find? due with
    | none => .next s
    | some n =>
      let s := { s with stg := { s.stg with notices := dropFirst due s.stg.notices } }
      let change := n.grid.toInt - s.stg.grid.toInt
      if change.natAbs ≤ 1000 then
        .next { s with stg := { s.stg with
          grid := n.grid, slew := s.stg.slew + change, sinceSlew := if s.stg.slew = 0 then 0 else s.stg.sinceSlew
          st := noticeState s n, noticeAt := s.time } }
      else if s.cue.run.isNone then
        .next { s with stg := { s.stg with
          grid := n.grid, now := BitVec.ofInt 64 ((s.stg.now.toNat : Int) + change), st := noticeState s n, noticeAt := s.time } }
      else .next (stgSticky 5 s)
  else .next s

end Sys2Proof.Machine
end

