-- ==== Sys2Proof/Machine/Cues.lean ====
section
/-! DEFINITION. Meanings of the rows that open steps, launch cues and apply deadlines (04_cues_and_stage_clock.md R112 to R125),
and of the Callboard's row (07_callboard.md). -/

namespace Sys2Proof.Machine

/-- Does the clock allow steps and launches of the loaded sheet (R103)? -/
def clockRuns (s : State) (sh : Sheet) : Bool :=
  sh.liberty || decide (s.stg.st = .rack) || decide (s.stg.st = .machine) || decide (s.stg.st = .holdover)

/-- Planned tick of step n (R114). -/
def plannedTick (sh : Sheet) (n : Nat) : Nat := sh.baseTick + (n - sh.firstStep) * sh.period

/-- May the next step open (R113 to R115)? -/
def mayOpen (s : State) (sh : Sheet) (r : Run) : Bool :=
  decide (r.ending = .none) && (decide (sh.stepCount = 0) || decide (r.nextStep < sh.firstStep + sh.stepCount)) && clockRuns s sh &&
  (if sh.liberty then r.steps.isEmpty
   else decide (plannedTick sh r.nextStep ≤ s.stg.now.toNat) && decide (r.nextStep < sh.firstStep + r.closed + 2))

/-- What the module keeps of each head for a step that opens. -/
def openHeads (s : State) : List HeadStep :=
  (List.range s.harn.heads.length).map (fun h => { head := h, expected := ((s.harn.heads[h]?).map (·.expected)).getD 0 })

/-- An instance as its step opens: a call that holds an operand already has FIRST_AT 0 (R464). -/
def openInst (s : State) (n c : Nat) : Inst :=
  { cue := c, firstAt := if (callCtx s n c).any (fun x => decide (x.received ≠ 0)) then some 0 else none }

/-- STEP_OPEN: the next step opens at its planned tick, or when the step before allows it (R114, R115). -/
def execStepOpen (s : State) : Host.Outcome State Fault Refusal :=
  match s.cue.sheet, s.cue.run with
  | some sh, some r =>
    if mayOpen s sh r then
      let n := r.nextStep
      let o : OpenStep :=
        { step := n, openAt := s.stg.now, insts := (List.range sh.cues.length).map (openInst s n)
          heads := openHeads s, outrCtrl := s.outr.ctrl, exact := s.outr.carry.1, toler := s.outr.carry.2.1
          samples := s.outr.carry.2.2.1, abandon := s.outr.carry.2.2.2 }
      let s := { s with
        outr := { s.outr with carry := (0, 0, 0, 0) }
        cue := { s.cue with stepNow := n, run := some { r with nextStep := n + 1, steps := r.steps ++ [o] } } }
      let s := if !sh.liberty ∧ s.stg.now.toNat > plannedTick sh n then cueSticky 5 s else s
      .next (settle (retryHeld s))
    else .next s
  | _, _ => .next s

/-- May an instance launch (R114, R115)? -/
def mayLaunch (s : State) (sh : Sheet) (r : Run) (o : OpenStep) (i : Inst) (w : CueWord) : Bool :=
  decide (i.st = .idle) && (decide (r.ending = .none) || decide (r.ending = .stop)) && clockRuns s sh &&
    (sh.liberty || decide (o.openAt.toNat + cOffset w ≤ s.stg.now.toNat))

/-- CUE_LAUNCH: a cue launches, which grants permission (R114 to R116). -/
def execCueLaunch (step cue : Nat) (s : State) : Host.Outcome State Fault Refusal :=
  match s.cue.sheet, s.cue.run, openStep s step, instOf s step cue, cueWord s cue with
  | some sh, some r, some o, some i, some w =>
    if mayLaunch s sh r o i w then
      let s := modInst step cue (fun i => { i with
        st := .running, launched := true, launchAt := s.stg.now.toNat
        firstAt := if cKind w = cNop then some 0 else i.firstAt }) s
      let s := if cKind w = cCall ∨ cKind w = cCurtain then tryComplete step cue (armCtx step cue s) else s
      .next (settle s)
    else .next s
  | _, _, _, _, _ => .next s

/-- Is the tick of an instance's deadline, or action tick, reached (R118, R125)? -/
def tickReached (s : State) (i : Inst) (w : CueWord) (extra : Nat) : Bool :=
  i.launched && decide (i.st ≠ .failed) && decide (cDeadline w ≠ 0) && decide (s.stg.st ≠ .stopped) &&
    !recovering s && decide (i.launchAt + cDeadline w + extra ≤ s.stg.now.toNat)

/-- A running instance at its deadline becomes LATE (R118, R188). -/
def makeLate (step cue : Nat) (s : State) : State := match instOf s step cue, cueWord s cue with
  | some i, some w =>
    if i.st = .running ∧ tickReached s i w 0 then
      let s := cueSticky 0 (modInst step cue (fun i => { i with st := .late, late := true }) s)
      let s := if cKind w = cCall ∨ cKind w = cCurtain then
          let out := slotsOf (callExpected s w &&& ~~~((callCtx s step cue).map (·.received)).getD 0)
          modInst step cue (fun i => { i with laggard := out.head?.getD 127, missing := out.length }) s
        else s
      cueEvent step cue s
    else s
  | _, _ => s

/-- DEADLINE: a cue that is not DONE at its deadline becomes LATE (R118, R188). -/
def execDeadline (step cue : Nat) (s : State) : Host.Outcome State Fault Refusal := .next (makeLate step cue s)

/-- Live slots of a head for a step in which a member is unreceived; a FENCED slot awaits no member (R118). -/
def unreceived (s : State) (h step m : Nat) : Nat :=
  s.harn.slots.countP (fun (x : Slot) => decide (x.head = h) && decide (x.step = step) && decide (x.st ≠ .fenced) &&
    x.expected.getLsbD m && !x.received.getLsbD m)

/-- The company is re-formed without a member (R123), also in a head of the company that has it as a lead (DESIGN CHOICE, log 96). -/
def reform (step : Nat) (co : BitVec 10) (m : Nat) (s : State) : State :=
  let s := cueSticky 2 (modMember co m (fun x => { x with excluded := true }) s)
  let s := hostEvent 0x03 (leBytes 2 co.toNat ++ leBytes 1 m ++ zeros 5 ++ leBytes 8 step) s
  let heads := (List.range s.harn.heads.length).filter (fun h => ((sheetHead s h).map (fun sh => decide (sh.company = co))).getD false)
  let s := heads.foldl (fun s h =>
    modHStep step h (fun x => { x with excluded := true })
      (excludeFrom h (slotBit m) (modHead h (fun x => { x with lost := x.lost ||| slotBit m }) s))) s
  retryCalls s

/-- One missing member at an action tick (R119 to R123); true where the instance goes on waiting for it. -/
def missMember (step cue h : Nat) (sh : SheetHead) (w : CueWord) (m : Nat) (s : State) : State × Bool :=
  let s := modMember sh.company m (fun x => { x with consec := if x.consec = 15 then 15 else x.consec + 1, missed := satAdd 0xFFFF x.missed 1 }) s
  if sh.leads.getLsbD m then
    (hostEvent 0x02 (leBytes 2 cue ++ leBytes 1 m ++ zeros 5 ++ leBytes 8 step) (cueSticky 3 s), true)
  else if cLate w = 1 then
    let s := modMember sh.company m (fun x => { x with worst := max x.worst (cGrace w) }) s
    let s := cueSticky 1 (modInst step cue (fun i => { i with leftOut := true }) s)
    let s := modHStep step h (fun x => { x with leftOut := x.leftOut ||| slotBit m }) s
    let s := excludeFrom h (slotBit m) (modHead h (fun x => { x with leftOut := x.leftOut ||| slotBit m }) s)
    if (memberCount s sh.company m).consec.toNat ≥ cMissN w then (reform step sh.company m s, false) else (s, false)
  else (s, true)

/-- The missing members in order; true where the instance goes on waiting for one. -/
def missAll (step cue h : Nat) (sh : SheetHead) (w : CueWord) : List Nat → State → State × Bool
  | [], s => (s, false)
  | m :: r, s =>
    let a := missMember step cue h sh w m s
    let b := missAll step cue h sh w r a.1
    (b.1, a.2 || b.2)

/-- The late policy of an instance over head h at its action tick (R118 to R123). -/
def applyLate (step cue h : Nat) (sh : SheetHead) (w : CueWord) (hd : Head) (s : State) : State :=
  let awaited := slotsOf hd.expected
  let miss := awaited.filter (fun m => decide (unreceived s h step m > 0))
  let lag : Nat := (miss.foldl (fun (b : Nat × Nat) m =>
    if unreceived s h step m > b.2 then (m, unreceived s h step m) else b) (127, 0)).1
  let s := (awaited.filter (fun m => !miss.contains m)).foldl (fun s m =>
    modMember sh.company m (fun x => { x with consec := 0 }) s) s
  let s := modInst step cue (fun i => { i with laggard := lag, missing := miss.length }) s
  let r := missAll step cue h sh w miss s
  settle (if r.2 then cueEvent step cue (modInst step cue (fun i => { i with st := .waiting, waited := true }) r.1) else r.1)

/-- The action tick of an instance that was DONE before it: no member is missing, so misses are no longer consecutive (R122). -/
def actDone (cue : Nat) (s : State) : State := match (cueWord s cue).bind (fun w => headIdx s (cHid w)) with
  | some h => clearMisses h s
  | none => s

/-- The action tick of an instance whose step has closed (R122). -/
def actClosed (step cue : Nat) (s : State) : State :=
  let mine (x : LateTick) : Bool := decide (x.step = step) && decide (x.cue = cue)
  match s.cue.late.find? mine with
  | some x =>
    if x.tick ≤ s.stg.now.toNat ∧ s.stg.st ≠ .stopped then
      actDone cue { s with cue := { s.cue with late := s.cue.late.filter (fun y => !mine y) } }
    else s
  | none => s

/-- ACTION_TICK: the deadline comes first where both fall in one tick; then the late policy is applied to each missing member
(R118 to R123). -/
def execActionTick (step cue : Nat) (s : State) : Host.Outcome State Fault Refusal :=
  match instOf s step cue, cueWord s cue with
  | some i, some w =>
    if !i.acted ∧ tickReached s i w (cGrace w) then
      let s := modInst step cue (fun i => { i with acted := true }) (makeLate step cue s)
      if !headed (cKind w) then .next s
      else if i.st = .done then .next (actDone cue s)
      else match headIdx s (cHid w) with
        | none => .next s
        | some h => match sheetHead s h, s.harn.heads[h]? with
          | some sh, some hd => .next (applyLate step cue h sh w hd s)
          | _, _ => .next s
    else .next s
  | _, _ => .next (actClosed step cue s)

/-- CALL: a call or curtain packet reaches the Callboard (Table Callboard-2); one that waits in the intake queue takes its chunks
there, and stays in the packet buffer until it finds them (R86, R182). -/
def execCall (p : Port) (pk : Packet) (s : State) : Host.Outcome State Fault Refusal :=
  if pk.kind = kCall ∧ lengthOk pk ∧ !unitHeld s unitCallboard ∧ !(callWaits s p pk.bytes && !chunkRoom s (chunks pk)) then
    .next (settle (callArrive p pk.bytes (takeHanded p pk s)))
  else .next s

end Sys2Proof.Machine
end

