-- ==== Sys2Proof/Machine/RunCmds.lean ====
section
/-! DEFINITION. Meanings of the rows that load a sheet, start, stop and resume a run (04_cues_and_stage_clock.md R107 to R113, R123;
12_topology_and_recovery.md R315 to R318; 13_host_and_prompt_protocol.md R341, R342, R349). -/

namespace Sys2Proof.Machine

/-! ### Acceptance (R43, R85, R93, R172, R189, R201) -/

/-- Residual ranges by head, from the start of the region, then scale ranges (R172, R85): first bytes of both, by head. -/
def allocate (sh : Sheet) : List (Nat × Nat) × Nat :=
  let res := sh.heads.foldl (fun (a : List Nat × Nat) h => (a.1 ++ [residBase + a.2], a.2 + residSize sh h)) ([], 0)
  let sc := sh.heads.foldl (fun (a : List Nat × Nat) h => (a.1 ++ [residBase + res.2 + a.2], a.2 + scaleSize h)) ([], 0)
  (res.1.zip sc.1, res.2)

/-- Write the initial scales of a head: EXP only (R43, R85). -/
def initScales (s : State) (h : SheetHead) (at' : Nat) : State :=
  if headScaled h then
    { s with dram := memWrite s.dram at' ((List.range (blocksOf h.len)).map (fun k => setByte s h.scaleset k &&& 0x3F)) }
  else s

/-- Bring the harness to R93 for the loaded sheet: every head at the first step, advertised, and the contexts, bands and baselines
of an earlier run gone. `keep` is what stays in the intake queue (DEDUCED, log 20). -/
def freshHarness (keep : List Waiting) (sh : Sheet) (s : State) : State :=
  let al := allocate sh
  let heads : List Head := (sh.heads.zip al.1).map (fun x =>
    { expected := x.1.expected, step := sh.firstStep, resAt := x.2.1, scaleAt := x.2.2, adverting := x.1.root && headScaled x.1 })
  let s := { s with
    harn := { heads := heads, intake := keep, sticky := s.harn.sticky }
    callb := { s.callb with ctxs := [], sums := [], held := [], results := [] }
    prj := { s.prj with bands := [], running := [], upper := [], resUsed := al.2 }
    grm := { s.grm with advanced := [] }
    dig := { s.dig with buffer := [] }
    outr := { s.outr with ctxs := [], notes := [] } }
  let s := (sh.heads.zip al.1).foldl (fun s x => initScales s x.1 x.2.2) s
  (List.range heads.length).foldl (fun s h => if ((s.harn.heads[h]?).map (·.adverting)).getD true then s else advertise h s) s

/-- A refused check: reason and WHERE go to CUE_LOAD (R109). -/
def refuseSheet (reason whereAt : Nat) (s : State) : State :=
  { s with cue := { s.cue with reason := BitVec.ofNat 8 reason, whereAt := whereAt } }

/-- CUE_SEL of every requester reads zero after an acceptance (R129). -/
def clearCueSel (s : State) : State :=
  { s with
    host := { s.host with sessions := s.host.sessions.map (fun x => { x with sel := { x.sel with cue := 0 } }) }
    prm := { s.prm with sel := { s.prm.sel with cue := 0 } } }

/-- A staged image is checked and accepted, or refused (R109, R341). -/
def loadImage (id : Nat) (img : List Byte) (s : State) : Host.Outcome State Fault Refusal := match checkSheet s img with
  | .waiting => .next s
  | .refused r w => .next (endCmd id stRefused (reasonFields r w ++ freeBytes s 64) (drawn (refuseSheet r w s)))
  | .accepted =>
    let sh := readSheet img
    let program := sha3 img
    let s := { s with cue := { sheet := some sh, program := program, lastClosed := s.cue.lastClosed, resuming := s.cue.resuming } }
    .next (endCmd id stOk (reasonFields 0 0 ++ program) (clearCueSel (freshHarness [] sh s)))

/-- LOAD_SHEET: the staged image is checked and accepted, or refused (R107 to R109, R341) (DESIGN CHOICE, log 18) (DEDUCED, log 20). -/
def execLoadSheet (m : MemCmd) (s : State) : Host.Outcome State Fault Refusal :=
  match cmdReady s m.id 0x0010 with
  | none => .next s
  | some c =>
    let len := arg c 0 8
    if len > 939524096 then .next (endCmd m.id stRange [] s)
    else if checkSheet s (memRead s.dram scratchBase len) = .waiting then .next s
    else readThen m 0x0010 scratchBase len s (fun s => loadImage m.id (memRead s.dram scratchBase len) s)

/-- The loaded sheet's image is checked again and the run starts, or is refused (R109, R113, R216). -/
def startImage (id : Nat) (img : List Byte) (s : State) : Host.Outcome State Fault Refusal := match checkStart s img, s.cue.sheet with
  | .waiting, _ => .next s
  | .refused r w, _ => .next (endCmd id stRefused (reasonFields r w ++ freeBytes s 8) (drawn (refuseSheet r w s)))
  | .accepted, none => .next s
  | .accepted, some sh =>
    let run : Run := { nextStep := sh.firstStep, prevPb := [], signEvery := fld s.dig.ctrl 9 0 }
    let s := freshHarness s.harn.intake sh s
    let s := { s with cue := { sheet := some sh, program := s.cue.program, resuming := s.cue.resuming, run := some run } }
    .next (endCmd id stOk (reasonFields 0 0 ++ leBytes 8 s.stg.now.toNat) s)

/-- START_RUN: the loaded sheet is checked again and the run starts (R109, R113, R216, R341) (DEDUCED, log 20). -/
def execStartRun (m : MemCmd) (s : State) : Host.Outcome State Fault Refusal :=
  match cmdReady s m.id 0x0011 with
  | none => .next s
  | some _ =>
    let len := (s.cue.sheet.map (·.length)).getD 0
    if checkStart s (memRead s.dram scratchBase len) = .waiting then .next s
    else readThen m 0x0011 scratchBase len s (fun s => startImage m.id (memRead s.dram scratchBase len) s)

/-! ### Stopping (R113, R315, R342) -/

/-- A STOP that waits for the end of the run (DESIGN CHOICE, log 18). -/
def holdStop (id : Nat) (s : State) : State :=
  { s with host := { s.host with cmds := s.host.cmds.map (fun c => if c.id = id then { c with acted := true } else c) } }

/-- A STOP while no run is active ends at once (R342) (DESIGN CHOICE, log 18). -/
def stopIdle (id : Nat) (s : State) : State := endCmd id stOk (stopFields false (lastStep s)) (drawnLast s)

/-- STOP, MODE 0: the run ends at the next step boundary (R113, R342). -/
def execStop (id : Nat) (s : State) : Host.Outcome State Fault Refusal :=
  match cmdReady s id 0x0012 with
  | none => .next s
  | some c =>
    if arg c 0 1 = 1 then .next s
    else if arg c 0 1 ≠ 0 then .next (endOpen id s)
    else match s.cue.run with
      | none => .next (stopIdle id s)
      | some r =>
        let s := holdStop id s
        .next (maybeEnd (if r.ending = .recovery then s else modRun (fun r => { r with ending := .stop }) s))

/-- STOP, MODE 1: the recovery drain starts (R315, R342). -/
def execStopRecovery (id : Nat) (s : State) : Host.Outcome State Fault Refusal :=
  match cmdReady s id 0x0012 with
  | none => .next s
  | some c =>
    if arg c 0 1 ≠ 1 then .next s
    else match s.cue.run with
      | none => .next (stopIdle id s)
      | some _ => .next (beginRecovery (holdStop id s))

/-- Does a fired slot still run its stages in a drain: it lacks only leave, credit or the partner (R315)? -/
def drains (s : State) (x : Slot) : Bool := match sheetHead s x.head, reducerWord s x.head, s.cue.sheet with
  | some sh, some (_, w), some img =>
    x.hasFired && sh.root && decide (cKind w ≠ cProject) &&
      (decide (cKind w ≠ cReduceUpdate) || x.dropped || (jobOf s x.head x.seg x.step).isSome ||
        (match img.psets[cPset w]? with
          | some p => (clipFactor s x.step w p).isSome
          | none => false))
  | _, _, _ => false

/-- Does anything still run in a drain? -/
def drainBusy (s : State) : Bool :=
  s.harn.slots.any (drains s) || s.harn.jobs.any (fun j => !j.bcast) || !s.prj.running.isEmpty

/-- Write the progress entry of the shard in record i, where the sheet names its head. -/
def writeEntry (s : State) (i : Nat) : State := match headIdx s (readShard s i).hid with
  | none => s
  | some h => match s.harn.heads[h]? with
    | none => s
    | some hd => writeProgress i { step := hd.step, base := hd.base, valid := true, released := hd.released } s

/-- Write the progress entry of each shard whose head the sheet names (R316). -/
def writeEntries (s : State) : State := (shardIndexes s).foldl writeEntry s

/-- DRAIN_END: the drain of a recovery stop ends: open steps close without a playbill, the progress entries are written and the run
ends (R315, R316, R342) (DEDUCED, log 19). Samples still in contexts are dropped and not counted (DESIGN CHOICE, log 90). -/
def execDrainEnd (s : State) : Host.Outcome State Fault Refusal :=
  match s.cue.run with
  | none => .next s
  | some r =>
    if r.ending = .recovery ∧ (!drainBusy s ∨ r.drainAt + 100 * ms ≤ s.time) then
      let s := (r.steps.map (·.step)).foldl (fun s n => closeStep n s) s
      let s := writeEntries s
      let s := { s with
        harn := { s.harn with slots := [], jobs := [], intake := [] }
        prj := { s.prj with bands := [], upper := [] }
        outr := { s.outr with ctxs := [], notes := [] } }
      .next (endRun 2 s)
    else .next s

/-! ### Readmission, progress and the ring -/

/-- Heads of a company on this module. -/
def companyHeads (s : State) (co : BitVec 10) : List Nat :=
  (List.range s.harn.heads.length).filter (fun h => ((sheetHead s h).map (fun sh => decide (sh.company = co))).getD false)

/-- READMIT: a member comes back in each head of the company when the head's STEP next advances (R123); EXCLUDED clears now
(DESIGN CHOICE, log 79). -/
def execReadmit (id : Nat) (s : State) : Host.Outcome State Fault Refusal :=
  match cmdReady s id 0x0013 with
  | none => .next s
  | some c =>
    let co := arg c 0 2
    let m := arg c 2 1
    if !((s.cue.sheet.map (fun sh => sh.companies.any (fun x => decide (x.number.toNat = co)))).getD false) then
      .next (endCmd id stNotFound [] s)
    else if m > 64 then .next (endOpen id s)
    else
      let number := BitVec.ofNat 10 co
      let back := (companyHeads s number).filter (fun h => ((s.harn.heads[h]?).map (fun x => x.lost.getLsbD m)).getD false)
      let s := if back.isEmpty then s else modMember number m (fun x => { x with excluded := false }) s
      let s := { s with cue := { s.cue with readmit := s.cue.readmit ++
        (back.filter (fun h => !s.cue.readmit.contains (h, m))).map (fun h => (h, m)) } }
      .next (endCmd id stOk [] s)

/-- PROGRESS: the 64-byte progress entry of a shard (R316). -/
def execProgress (m : MemCmd) (s : State) : Host.Outcome State Fault Refusal :=
  match cmdReady s m.id 0x0014 with
  | none => .next s
  | some c => readThen m 0x0014 shardTable tableBytes s (fun s =>
    match findShard s (BitVec.ofNat 16 (arg c 0 2)) with
    | none => .next (endCmd m.id stNotFound [] s)
    | some i => readThen m 0x0014 (progressTable + 64 * i) 64 s (fun s =>
      .next (endCmd m.id stOk (memRead s.dram (progressTable + 64 * i) 64) s)))

/-- Ring use in KiB, rounded up (R349). -/
def usedKib (s : State) : Nat := (ringUsed s + 1023) / 1024

/-- PB_ACK: the ring is freed up to the end of a record (R349); a signature record that waited for room may enter. -/
def execPbAck (id : Nat) (s : State) : Host.Outcome State Fault Refusal :=
  match cmdReady s id 0x0015 with
  | none => .next s
  | some c =>
    let e := arg c 0 8
    match s.dig.records.find? (fun r => decide (e ≤ ringBytes) && decide (r.1 % ringBytes = e % ringBytes)) with
    | none => .next (endCmd id stRange [] s)
    | some r =>
      let s := { s with dig := { s.dig with
        freedTo := r.1, records := s.dig.records.filter (fun x => decide (x.1 > r.1)) } }
      let used := usedKib s
      .next (endCmd id stOk (leBytes 4 used) (serveRing (s.dig.ready.length + 1) s))

end Sys2Proof.Machine
end

