-- ==== Sys2Proof/Machine/Dgrams.lean ====
section
/-! DEFINITION. Meanings of the rows for Prompt datagrams and sessions, and of INFO, ENROLL and REVOKE (13_host_and_prompt_protocol.md
R326 to R344, R351). -/

namespace Sys2Proof.Machine

/-- Act on a datagram by its KIND (test 7 of Table Host-4); `errs` are errors of the LPDDR6 accesses of a BULK_R. -/
def actDgram (d : Dgram) (errs : List AccErr) (s : State) : State :=
  let s := noteDgram d s
  match (hKind d).toNat with
  | 0x01 => actOpen d s
  | 0x03 => actAuth d s
  | 0x05 => actClose d s
  | 0x07 => actKeep d s
  | 0x10 => actPost d s
  | 0x12 => actRead d s
  | 0x20 => actBulkW d s
  | 0x22 => actBulkR errs d s
  | 0x31 => actEvack d s
  | _ => s

/-- Must a datagram wait: for the Prompter, or a bulk request for LPDDR6 (R326, R437)? (DEDUCED, log 16). -/
def dgramWaits (s : State) (d : Dgram) : Bool :=
  !s.prm.running || ((hKind d == 0x20 || hKind d == 0x22) && bulkWaits s d)

/-- A datagram reaches UDP port 48640 (R321, R326): the tests of Table Host-4 in order. A row acts only on a datagram of its own
KIND; a datagram that a test drops is dropped in any row (DEDUCED, log 16). -/
def receive (kind : Byte) (d : Dgram) (errs : List AccErr) (s : State) : State :=
  if !ethRuns s d.port || !frameTaken d || !holdsFamily (s.host.eth[d.port.val]) d.peer.addr then s
  else if !dgramPasses s d then dropDgram s
  else if hKind d ≠ kind then s
  else if s.host.waiting.length ≥ 256 then overrunDgram s
  else if dgramWaits s d || !s.host.waiting.isEmpty then { s with host := { s.host with waiting := s.host.waiting ++ [(d, errs)] } }
  else actDgram d errs s

/-- The Prompter takes the first waiting datagram that need not wait; the tests hold when it acts too (DEDUCED, log 16). -/
def serveDgram (s : State) : State :=
  match s.host.waiting.find? (fun x => !dgramWaits s x.1) with
  | none => s
  | some x =>
    let s := { s with host := { s.host with waiting := dropFirst (fun y => decide (y = x)) s.host.waiting } }
    if dgramPasses s x.1 then actDgram x.1 x.2 s else dropDgram s

def execOpen (d : Dgram) (s : State) : Host.Outcome State Fault Refusal := .next (receive 0x01 d [] s)
def execAuth (d : Dgram) (s : State) : Host.Outcome State Fault Refusal := .next (receive 0x03 d [] s)
def execClose (d : Dgram) (s : State) : Host.Outcome State Fault Refusal := .next (receive 0x05 d [] s)
def execKeep (d : Dgram) (s : State) : Host.Outcome State Fault Refusal := .next (receive 0x07 d [] s)
def execPost (d : Dgram) (s : State) : Host.Outcome State Fault Refusal := .next (receive 0x10 d [] s)
def execRead (d : Dgram) (s : State) : Host.Outcome State Fault Refusal := .next (receive 0x12 d [] s)
def execBulkW (d : Dgram) (s : State) : Host.Outcome State Fault Refusal := .next (receive 0x20 d [] s)
def execBulkR (d : Dgram) (errs : List AccErr) (s : State) : Host.Outcome State Fault Refusal := .next (receive 0x22 d errs s)
def execEvack (d : Dgram) (s : State) : Host.Outcome State Fault Refusal := .next (receive 0x31 d [] s)

/-! ### Timers (R328, R333, R334, R351) -/

/-- LOCKOUT_EXPIRY: the 60 s are over (R333). -/
def execLockoutExpiry (s : State) : Host.Outcome State Fault Refusal := match s.host.lockUntil with
  | some t => if s.time ≥ t then .next { s with host := { s.host with lockUntil := none } } else .next s
  | none => .next s

/-- AUTH_TIMEOUT: a session in OPENING for 1 s with no AUTH closes (Table Host-5). -/
def execAuthTimeout (sid : BitVec 32) (s : State) : Host.Outcome State Fault Refusal := match findSession s sid with
  | some x => if !x.ready ∧ s.time ≥ x.openedAt + 1000 * ms then .next (closeSession sid s) else .next s
  | none => .next s

/-- SESSION_TIMEOUT: no valid datagram for 4 × KEEP_MS closes a session and sets TIMEOUT (R334). -/
def execSessionTimeout (sid : BitVec 32) (s : State) : Host.Outcome State Fault Refusal := match findSession s sid with
  | some x =>
    if s.time ≥ x.lastAt + 4 * x.keepMs * ms then
      let s := closeSession sid s
      .next (fresh .mbxSticky 0 0x20 { s with host := { s.host with sticky := s.host.sticky ||| 0x20 } })
    else .next s
  | none => .next s

/-- Send an event again; whether it carries REPEAT is open (DESIGN CHOICE, log 47). -/
def resendEvent (x : Session) (s : State) (e : Event) : State :=
  drawn (emit (.datagram x.port x.peer x.vlan
    (promptBytes 0x10 0x30 x.id e.eseq 0xFF (((freeNow s).setWidth 1).setWidth 8) 0 e.payload)) s)

/-- EVENT_RESEND: unacknowledged events last sent 20 ms ago or earlier are sent again, in ESEQ order (R351). -/
def execEventResend (sid : BitVec 32) (s : State) : Host.Outcome State Fault Refusal := match findSession s sid with
  | some x =>
    let due := x.events.filter (fun e => decide (s.time ≥ e.sentAt + 20 * ms))
    let s := modSession sid (fun y => { y with events := y.events.map (fun e =>
      if s.time ≥ e.sentAt + 20 * ms then { e with sentAt := s.time } else e) }) s
    .next (due.foldl (resendEvent x) s)
  | none => .next s

/-! ### The end of a command (R336, R338) -/

/-- COMMAND_END: the mailbox becomes DONE and holds the result; the result of a closed session is discarded. -/
def execCommandEnd (id : Nat) (s : State) : Host.Outcome State Fault Refusal :=
  match s.host.cmds.find? (fun c => decide (c.id = id)) with
  | none => .next s
  | some c => match c.out with
    | none => .next s
    | some r =>
      let m := s.host.mboxes[c.mbx.val]
      let s := { s with host := { s.host with cmds := s.host.cmds.filter (fun x => !decide (x.id = id)) } }
      if m.owner = some c.session ∧ m.cseq = c.seq ∧ m.st = .busy then
        .next (modMbx c.mbx (fun x => { x with
          st := .done, status := r.1, result := leBytes 2 c.code.toNat ++ zeros 6 ++ r.2, read := false }) s)
      else .next s

/-! ### INFO, ENROLL, REVOKE -/

/-- An LLDP ID as INFO reports it: subtype, length, and 30 bytes of value. -/
def lldpId : Option (Byte × List Byte) → List Byte
  | some x => [x.1] ++ leBytes 1 x.2.length ++ padTo 30 x.2
  | none => zeros 32

/-- Result fields of INFO. -/
def infoFields (s : State) : List Byte :=
  leBytes 8 s.fuses.serial.toNat ++ leBytes 8 (macOf s 0).toNat ++ leBytes 8 (macOf s 1).toNat ++
    leBytes 1 (s.host.eth[0]).up.toNat ++ leBytes 1 (s.host.eth[1]).up.toNat ++ leBytes 1 s.host.ptp.synced.toNat ++ zeros 5 ++ ifVers ++
    lldpId (s.host.eth[0]).chassis ++ lldpId (s.host.eth[0]).portId ++ lldpId (s.host.eth[1]).chassis ++ lldpId (s.host.eth[1]).portId

/-- INFO. -/
def execInfo (id : Nat) (s : State) : Host.Outcome State Fault Refusal := match cmdReady s id 0x0001 with
  | none => .next s
  | some _ => .next (endCmd id stOk (infoFields s) s)

/-- An INSTALL session's ENROLL beyond its first, or with a PRIV other than 2 (R332) (DEDUCED, log 28). -/
def installRefused (s : State) (c : Cmd) : Bool :=
  decide (c.priv = 3) && (s.host.installed.contains c.session || decide (arg c 2 1 ≠ 2))

/-- ENROLL (R332, R344, R362): it waits for the erase after the last table write (DEDUCED, log 28). -/
def execEnroll (id : Nat) (s : State) : Host.Outcome State Fault Refusal := match cmdReady s id 0x0050 with
  | none => .next s
  | some c =>
    if s.prm.eraseDue.isSome then .next s
    else
      let opid := BitVec.ofNat 16 (arg c 0 2)
      let refused := installRefused s c
      let s := if c.priv = 3 then { s with host := { s.host with installed := s.host.installed ++ [c.session] } } else s
      if refused then .next (endCmd id stPrivilege [] s)
      else if opid = 0 ∨ arg c 2 1 > 2 then .next (endOpen id s)
      else if s.prm.operators.any (fun o => o.opid == opid) then .next (endCmd id stExists [] s)
      else if s.prm.operators.length ≥ 16 then .next (endCmd id stFull [] s)
      else .next (endCmd id stOk []
        (writeOps (s.prm.operators ++ [{ opid := opid, priv := arg c 2 1, key := padTo 2592 s.host.key }]) s))

/-- REVOKE (R344). -/
def execRevoke (id : Nat) (s : State) : Host.Outcome State Fault Refusal := match cmdReady s id 0x0051 with
  | none => .next s
  | some c =>
    if s.prm.eraseDue.isSome then .next s
    else
      let opid := BitVec.ofNat 16 (arg c 0 2)
      let rest := s.prm.operators.filter (fun o => !(o.opid == opid))
      if rest.length = s.prm.operators.length then .next (endCmd id stNotFound [] s)
      else if !rest.any (fun o => decide (o.priv = 2)) then .next (endCmd id stLastAdmin [] s)
      else
        let s := endCmd id stOk [] (writeOps rest s)
        let gone := (s.host.sessions.filter (fun x => x.opid == opid)).map (·.id)
        .next (gone.foldl (fun s sid => closeSession sid s) s)

/-- OPERATOR_TABLE_ERASE: the older copy is erased (R362). -/
def execOperatorTableErase (s : State) : Host.Outcome State Fault Refusal := match s.prm.eraseDue with
  | none => .next s
  | some x =>
    let fl := if x.1 = 0 then { s.flash with opt0 := [] } else { s.flash with opt1 := [] }
    .next { s with flash := fl, prm := { s.prm with eraseDue := none } }

end Sys2Proof.Machine
end

