-- ==== Sys2Proof/Machine/Registers.lean ====
section
/-! DEFINITION. Register accesses: what a read clears, what a write does, which accesses reach nothing, and the rows that make them
(18_registers.md R440 to R451, 00_scope.md R10, R13, R14, and the rules the field tables cite). -/

namespace Sys2Proof.Machine

/-! ### What a read clears (RC fields) -/

/-- A count that a read clears keeps what hardware has added in this arena cycle (R14). -/
def added (x w hi lo : Nat) : Nat := x - w / 2 ^ lo % 2 ^ (hi - lo + 1)

/-- The larger of the samples taken since a read: one that this arena cycle has raised stays. -/
def raised (x w hi lo : Nat) : Nat := if x > w / 2 ^ lo % 2 ^ (hi - lo + 1) then x else 0

/-- A read clears the RC fields: what they held when the arena cycle started goes (R14). -/
def regClear (sel : Selectors) (s : State) (r : Reg) : State :=
  let w := (cycleWord sel s r).toNat
  match r with
  | .mbxDropCount => { s with host := { s.host with
      dropped := added s.host.dropped w 63 48, authFail := added s.host.authFail w 47 32
      overrun := added s.host.overrun w 31 16, evLost := added s.host.evLost w 15 0 } }
  | .mbxViol => { s with flt := { s.flt with violCount := added s.flt.violCount w 63 32 } }
  | .harnSpillCount => { s with harn := { s.harn with spills := added s.harn.spills w 31 0, reloads := added s.harn.reloads w 63 32 } }
  | .harnMbrCnt => match selMember sel with
    | some m => { s with harn := { s.harn with members := vmod s.harn.members m (fun c =>
        { dup := added c.dup w 63 48, stale := added c.stale w 47 32, early := added c.early w 31 16
          mismatch := added c.mismatch w 15 0 }) } }
    | none => s
  | .wdrOvfCount => { s with wdr := { s.wdr with ovf := added s.wdr.ovf w 47 0 } }
  | .wdrVoidCount => { s with wdr := { s.wdr with void := added s.wdr.void w 47 0 } }
  | .outrEvents => { s with outr := { s.outr with
      exact := added s.outr.exact w 63 48, growth := added s.outr.growth w 47 32
      drift := added s.outr.drift w 31 16, abandoned := added s.outr.abandoned w 15 0 } }
  | .laneErrCount => modLane (selLane sel) (fun x => { x with
      uncorr := added x.uncorr w 63 48, corr := added x.corr w 47 16, pattern := added x.pattern w 15 0 }) s
  | .linkErrCount => modLink (selLink sel) (fun l => { l with
      crcBad := added l.crcBad w 63 48, replays := added l.replays w 47 32
      naks := added l.naks w 31 16, dropped := added l.dropped w 15 0 }) s
  | .swcDropCount => { s with swc := { s.swc with
      pushout := added s.swc.pushout w 63 48, taildrop := added s.swc.taildrop w 47 32
      aged := added s.swc.aged w 31 16, policed := added s.swc.policed w 15 0 } }
  | .schedQstat => { s with sched := { s.sched with
      samples := vmod s.sched.samples (selSwPort sel) (fun q => vmod q (selClass sel) (fun x =>
        { x with maxDepth := raised x.maxDepth w 63 43, maxDelay := raised x.maxDelay w 31 0 })) } }
  | _ => s

/-- The state after a read of a register that the requester can see. -/
def afterRead (sel : Selectors) (s : State) (r : Reg) : State :=
  if (rcFields r).isEmpty then s else takeCycle sel r (rcMask r) (regClear sel s r)

/-- Is a register one whose bits a write of 1 clears? -/
def isW1c (r : Reg) : Bool := cycleRegs.any (fun x => decide (x.1 = r)) && (rcFields r).isEmpty && decide (r ≠ .stgCtrl)

/-! ### Writes with effects of their own -/

/-- Clear the bits of a sticky register that a write sets to 1 (Table Scope-4, R14). -/
def w1c {w : Nat} (old : BitVec w) (v : W64) : BitVec w := old &&& ~~~(v.setWidth w)

/-- A write to STG_CTRL (R99). A unit still in reset takes no write (R438) (DEDUCED, log 24). -/
def writeStgCtrl (v : W64) (s : State) : State :=
  if !s.stg.released then s
  else if v.getLsbD 12 ∧ s.cue.run.isSome then stgSticky 3 s
  else
    let mask := ones 25 16 ||| ones 11 0 ||| (if v.getLsbD 12 then ones 12 12 else 0)
    { s with stg := { s.stg with ctrl := maskIn s.stg.ctrl v mask } }

/-- Does a credit setting leave every lossless offer at 128 cells or more and a lossy pool of 65,536 (R270)? -/
def creditOk (lo hi : W64) (localRes : Nat) : Bool :=
  [2, 3, 4, 5, 6, 7].all (fun k => decide (offerOf lo hi k ≥ 128)) && decide (lossyPool lo hi localRes ≥ 65536)

/-- A write to SWC_CREDIT_LO or SWC_CREDIT_HI (R270) (DEDUCED, log 24). -/
def writeCredit (high : Bool) (v : W64) (s : State) : State :=
  let lo := if high then s.swc.creditLo else v
  let hi := if high then v else s.swc.creditHi
  if creditOk lo hi (fld s.swc.ctrl 29 8) then { s with swc := { s.swc with creditLo := lo, creditHi := hi } } else swcSticky bCreditBad s

/-- A write to SWC_CTRL: LOCAL_RES alone is ignored where it would leave too small a lossy pool (R270). -/
def writeSwcCtrl (v : W64) (s : State) : State :=
  let s := { s with swc := { s.swc with ctrl := maskIn s.swc.ctrl v (ones 63 32 ||| ones 1 0) } }
  if creditOk s.swc.creditLo s.swc.creditHi (fld v 29 8) then
    settleLocalRes { s with swc := { s.swc with ctrl := maskIn s.swc.ctrl v (ones 29 8) } }
  else swcSticky bCreditBad s

/-- A shaper or policer as a write leaves it: its tokens are INIT, or the cap where INIT is larger (R292). -/
def newBucket (v : W64) (t : Nat) : Bucket :=
  { rate := BitVec.ofNat 18 (fld v 63 46), burst := BitVec.ofNat 16 (fld v 45 30), init := BitVec.ofNat 16 (fld v 29 14)
    tokens := (min (fld v 29 14) (fld v 45 30) : Nat) * 64000, stamp := t }

def writeShaper (sel : Selectors) (v : W64) (s : State) : State := match selFabric sel with
  | some p => { s with sched := { s.sched with
      shaper := vmod s.sched.shaper p (fun b => vset b (selClass sel) (newBucket v s.time)) } }
  | none => s

def writePolicer (sel : Selectors) (v : W64) (s : State) : State := match selPolicer sel with
  | some x => { s with sched := { s.sched with policer := vmod s.sched.policer x.1 (fun b => vset b x.2 (newBucket v s.time)) } }
  | none => s

def writeQuantum (sel : Selectors) (v : W64) (s : State) : State := match selQuantum sel with
  | some k => { s with sched := { s.sched with
      drr := vmod s.sched.drr (selSwPort sel) (fun d => { d with quantum := vset d.quantum k (v.setWidth 8) }) } }
  | none => s

/-- A write to SCHED_SAMPLE: INTERVAL takes effect at the next sample point; with sampling off there is none to wait for (R293,
Table Switch-24). -/
def writeSample (v : W64) (s : State) : State :=
  { s with sched := { s.sched with
      intervalNext := v.setWidth 8, interval := if s.sched.interval = 0 then v.setWidth 8 else s.sched.interval } }

def modRoute (sel : Selectors) (f : RouteEntry → RouteEntry) (s : State) : State :=
  { s with swc := { s.swc with routes := vmod s.swc.routes (selRoute sel) f } }

/-- Set a source's reaction, or refuse it with REACT_BAD (R407). The change is logged with TYPE 0x04 (Table Faults-7). -/
def setReact (i : SrcId) (code : Nat) (s : State) : State :=
  if (allowedReacts i).contains code then
    queueLog 0x04 i code 0 0 0 (modSource i (fun x => { x with react := BitVec.ofNat 3 code }) { s with flt := { s.flt with reactBad := false } })
  else { s with flt := { s.flt with reactBad := true } }

/-- A beat (R415): the first after a release may hold any value, a later one is the last plus 1. -/
def takeBeat (b : BitVec 16) (s : State) : State :=
  match s.door.st with
  | .booting => toQuiet srcHeartbeat { s with door := { s.door with st := .running, beat := b, beatAt := s.time } }
  | .running =>
    if b = s.door.beat + 1 then { s with door := { s.door with beat := b, beatAt := s.time } }
    else doorRestart 1 { s with door := { s.door with beat := b } }
  | _ => s

/-- A write to FLT_BEAT by the Prompter: FATAL, NMI_ACK and BEAT (Table Faults-17). -/
def writeBeat (v : W64) (s : State) : State :=
  let s := if v.getLsbD 17 then raise { src := srcFwFatal } s else s
  let s := if v.getLsbD 16 then { s with flt := { s.flt with nmiAt := none } } else s
  takeBeat (v.setWidth 16) s

/-- A write to RST_CTRL (Table Reset-7). -/
def writeRstCtrl (v : W64) (s : State) : State :=
  if fld v 63 56 ≠ 0xB7 then s else if v.getLsbD 1 then assertWide 4 s else if v.getLsbD 0 then assertWarm 5 s else s

/-- Is a write to RST_BLOCK refused (R429)? -/
def blockRefused (new : BitVec 19) (s : State) : Bool :=
  let set := new &&& ~~~s.rst.block
  let fenced : BitVec 19 := s.flt.team.setWidth 19 ||| (s.flt.array.setWidth 19 <<< 8)
  let held := new ||| s.rst.reactBlock
  (s.cue.run.isSome && (set &&& ~~~fenced) != 0) || held &&& 0xFF == 0xFF || held &&& 0xF00 == 0xF00

/-- A write to RST_BLOCK: units newly held are reset, and units released are at their reset values then; under a wider reset the bits stay
clear (R426, R429, R430). -/
def writeRstBlock (v : W64) (s : State) : State :=
  let new : BitVec 19 := v.setWidth 19
  if blockRefused new s then rstSticky 0x10 s
  else if s.rst.held || s.rst.warmAt.isSome then s
  else
    let was := s.rst.block ||| s.rst.reactBlock
    let set := (List.range 19).filter (fun u => new.getLsbD u && !s.rst.block.getLsbD u)
    releaseUnits was (set.foldl (fun s u => resetUnit u s) { s with rst := { s.rst with block := new } })

/-! ### Writes -/

/-- Change the requester's own selector copies (R448). -/
def modSel (who : Requester) (f : Selectors → Selectors) (s : State) : State := match who with
  | .window sid _ => modSession sid (fun x => { x with sel := f x.sel }) s
  | .prompter => { s with prm := { s.prm with sel := f s.prm.sel } }

/-- A write to a register: it sets RW fields, clears or sets W1C and W1S bits, and leaves the rest (R13). -/
def regWrite (who : Requester) (sel : Selectors) (v : W64) (s : State) : Reg → State
  | .mbxSticky => { s with host := { s.host with sticky := w1c s.host.sticky v } }
  | .stgCtrl => writeStgCtrl v s
  | .stgEpoch => if s.stg.released then { s with stg := { s.stg with epochReg := v } } else s
  | .stgSticky => { s with stg := { s.stg with sticky := w1c s.stg.sticky v } }
  | .cueSticky => { s with cue := { s.cue with sticky := w1c s.cue.sticky v } }
  | .cueSel => modSel who (fun x => { x with cue := v &&& (ones 63 48 ||| ones 25 16 ||| ones 6 0) }) s
  | .harnSticky => { s with harn := { s.harn with sticky := w1c s.harn.sticky v } }
  | .harnMbrSel => modSel who (fun x => { x with harnMbr := v &&& ones 6 0 }) s
  | .harnDescSel => modSel who (fun x => { x with harnDesc := v &&& (ones 18 16 ||| ones 14 0) }) s
  | .wdrSticky => { s with wdr := { s.wdr with sticky := w1c s.wdr.sticky v } }
  | .grmSticky => { s with grm := { s.grm with sticky := w1c s.grm.sticky v } }
  | .prjSticky => { s with prj := { s.prj with sticky := w1c s.prj.sticky v } }
  | .callSticky => { s with callb := { s.callb with sticky := w1c s.callb.sticky v } }
  | .callSel => modSel who (fun x => { x with call := v &&& (ones 63 48 ||| ones 2 0) }) s
  | .outrCtrl => { s with outr := { s.outr with ctrl := v &&& (ones 47 32 ||| ones 19 12 ||| ones 8 4 ||| ones 0 0) } }
  | .outrSticky => { s with outr := { s.outr with sticky := w1c s.outr.sticky v } }
  | .outrSel => modSel who (fun x => { x with outr := v &&& ones 11 0 }) s
  | .digCtrl => { s with dig := { s.dig with ctrl := v &&& ones 9 0 } }
  | .digSticky => { s with dig := { s.dig with sticky := w1c s.dig.sticky v } }
  | .digAudit => writeAudit v s
  | .laneSel => modSel who (fun x => { x with lane := v &&& ones 8 0 }) s
  | .laneSticky => modLane (selLane sel) (fun x => { x with sticky := w1c x.sticky v }) s
  | .lanePortCtrl =>
    applyEnable (selLanePort sel) (modLanePort (selLanePort sel) (fun x => { x with ctrl := v &&& (ones 7 2 ||| ones 0 0) }) s)
  | .linkSel => modSel who (fun x => { x with link := v &&& ones 5 0 }) s
  | .linkCtrl => modLink (selLink sel) (fun l => { l with ctrl := v &&& ones 31 0 }) s
  | .linkSticky => modLink (selLink sel) (fun l => { l with sticky := w1c l.sticky v }) s
  | .swcCtrl => writeSwcCtrl v s
  | .swcSticky => { s with swc := { s.swc with sticky := w1c s.swc.sticky v } }
  | .swcCreditLo => writeCredit false v s
  | .swcCreditHi => writeCredit true v s
  | .swcRtSel => modSel who (fun x => { x with swcRt := v &&& (ones 40 32 ||| ones 5 0) }) s
  | .swcRtStatic => routeHeld (modRoute sel (withStatic v) s)
  | .swcRtSpray => routeHeld (modRoute sel (withSpray v) s)
  | .swcAdapt => { s with swc := { s.swc with penalty := vset s.swc.penalty (selAdapt sel) (BitVec.ofNat 16 (fld v 63 48)) } }
  | .swcMirror => { s with swc := { s.swc with mirror := v &&& (ones 63 48 ||| ones 11 0) } }
  | .swcMirrorFlow => { s with swc := { s.swc with mirrorFlow := v &&& (ones 63 63 ||| ones 55 16) } }
  | .schedSel => modSel who (fun x => { x with sched := v &&& (ones 10 4 ||| ones 2 0) }) s
  | .schedQuantum => writeQuantum sel v s
  | .schedShaper => writeShaper sel v s
  | .schedPolicer => writePolicer sel v s
  | .schedSample => writeSample v s
  | .leaveCtrl => capChanged { s with rid := { s.rid with ctrl := v &&& (ones 63 32 ||| ones 15 8) } }
  | .leaveSticky => { s with rid := { s.rid with sticky := w1c s.rid.sticky v } }
  | .boxSticky => { s with boxRx := { s.boxRx with sticky := w1c s.boxRx.sticky v } }
  | .fltCtrl => { s with flt := { s.flt with ctrl := v &&& ones 63 24 } }
  | .fltSel => modSel who (fun x => { x with flt := v &&& ones 4 0 }) s
  | .fltSrcCtrl => match selSource sel with
    | some i => setReact i (fld v 2 0) s
    | none => { s with flt := { s.flt with reactBad := true } }
  | .fltFirst => let keep := if v.getLsbD 63 then none else s.flt.firstAt
    { s with flt := { s.flt with first := s.flt.first &&& ~~~(v &&& ones 63 63), firstAt := keep } }
  | .fltBeat => writeBeat v s
  | .rstCtrl => writeRstCtrl v s
  | .rstSticky => { s with rst := { s.rst with sticky := w1c s.rst.sticky v } }
  | .rstBlock => writeRstBlock v s
  | .rstBackup n => { s with rst := { s.rst with backup := vset s.rst.backup n v } }
  | _ => s

/-! ### Accesses (R440, R441, R443 to R446, R448) -/

/-- Does a session's level allow a window for reads, or for writes (Table Registers-1, R330)? -/
def windowAllowed (priv : Nat) (win : Fin 3) (write : Bool) : Bool :=
  let level := if priv = 3 then 0 else priv
  decide (level ≥ (if win.val = 0 ∧ write then 1 else win.val))

/-- Can the requester make accesses now? A window is open to a READY session whose level allows it; the Prompter makes accesses
while it runs its image. -/
def mayAccess (who : Requester) (write : Bool) (s : State) : Bool := match who with
  | .prompter => s.prm.running
  | .window sid win => match findSession s sid with
    | some x => x.ready && windowAllowed x.priv win write
    | none => false

/-- Selector copies of a requester. -/
def selOf (who : Requester) (s : State) : Selectors := match who with
  | .prompter => s.prm.sel
  | .window sid _ => ((findSession s sid).map (·.sel)).getD {}

def windowCode : Requester → Nat
  | .prompter => 3
  | .window _ w => w.val

/-- Violation kind of an access to a limited register through a window that does not hold it; 0 for none (R443, R444). -/
def limitKind (who : Requester) (r : Reg) (write : Bool) : Nat := match who with
  | .prompter => 0
  | .window _ w => match regMark r with
    | .all => 0
    | .d => if w.val = 0 then 2 else 0
    | .p => if write ∧ w.val ≠ 2 then 2 else 0
    | .v => if w.val ≠ 2 then 2 else 0
    | .x => if write then 4 else 0

/-- Is the whole block of a register fenced or held (Table Registers-5)? (DEDUCED, log 25). -/
def blockOut (s : State) (r : Reg) : Bool := match regOffset r / 0x10000 with
  | 4 => unitHeld s unitWardrobe
  | 5 => unitHeld s unitGroom
  | 7 => unitHeld s unitCallboard
  | 8 => unitHeld s unitOutrider
  | 9 => unitHeld s unitDigest
  | _ => false

/-- Affected bits of a register whose block is shared by fenced and unfenced units: PRJ_STATUS.BUSY. -/
def sharesOut (s : State) (r : Reg) : W64 :=
  if r = .prjStatus then (List.range 4).foldl (fun a k => a ||| putB (arrayOut s k) k) 0 else 0

/-- Count a violation and record it (R446). -/
def violate (who : Requester) (kind off : Nat) (write : Bool) (s : State) : State :=
  let last := put kind 3 29 ||| putB write 28 ||| put (off / 0x10000) 8 20 ||| put (windowCode who) 2 18 ||| put off 16 0
  { s with flt := { s.flt with violCount := satAdd 0xFFFF_FFFF s.flt.violCount 1, violLast := last.setWidth 32 } }

/-- An access lies on a register boundary of the window span. -/
def offsetOk (off : Nat) : Bool := decide (off % 8 = 0) && decide (off < 0x100_0000)

/-- A read: the value, and the state after it (R444 to R446, R448). -/
def accessRead (who : Requester) (off : Nat) (s : State) : W64 × State :=
  if !offsetOk off then (0, s)
  else match regAt off with
  | none => (0, violate who 1 off false s)
  | some r =>
    if limitKind who r false ≠ 0 then (0, violate who (limitKind who r false) off false s)
    else if blockOut s r then (0, violate who 3 off false s)
    else
      let sel := selOf who s
      let gone := sharesOut s r
      let c := afterRead sel s r
      let t := if readsOpen sel s r then drawn c else c
      (readValue sel s r &&& ~~~gone, if gone ≠ 0 then violate who 3 off false t else t)

/-- The registers with a field that hardware updates too: a write of theirs is remembered for the rest of its arena cycle (R14). -/
def noteWrite (sel : Selectors) (v : W64) (r : Reg) (s : State) : State := match r with
  | .stgCtrl | .digAudit => { s with written := s.written ++ [(r, 0, v)] }
  | .swcRtStatic | .swcRtSpray => { s with written := s.written ++ [(r, (selRoute sel).val, v)] }
  | .swcAdapt => { s with written := s.written ++ [(r, (selAdapt sel).val, v)] }
  | _ => s

/-- A write that reaches its register. A W1C write clears only the bits that were set when the arena cycle started and that no event
of the cycle has set again (R14). -/
def writeReg (who : Requester) (sel : Selectors) (v : W64) (s : State) (r : Reg) : State :=
  if isW1c r then takeCycle sel r v (regWrite who sel (v &&& cycleWord sel s r) s r) else noteWrite sel v r (regWrite who sel v s r)

/-- A write (DESIGN CHOICE, log 23). -/
def accessWrite (who : Requester) (off : Nat) (v : W64) (s : State) : State :=
  if !offsetOk off then s
  else match regAt off with
  | none => violate who 1 off true s
  | some r =>
    if limitKind who r true ≠ 0 then violate who (limitKind who r true) off true s
    else if blockOut s r then violate who 3 off true s
    else
      let t := writeReg who (selOf who s) v s r
      if sharesOut s r ≠ 0 then violate who 3 off true t else t

/-- An access row: a read of one register, whose value goes to the requester (DESIGN CHOICE, log 23). -/
def readRow (r : Reg) (who : Requester) (s : State) : State :=
  if mayAccess who false s then
    let x := accessRead who (regOffset r) s
    emit (.regValue who x.1) x.2
  else s

/-- An access row: a write of one register (DESIGN CHOICE, log 23). -/
def writeRow (r : Reg) (who : Requester) (v : W64) (s : State) : State :=
  if mayAccess who true s then accessWrite who (regOffset r) v s else s

/-! ### REG_READ and REG_WRITE (R440, R343, R449) -/

/-- Status of an access command that reaches nothing, in the order of R440. -/
def accessRefused (c : Cmd) (write : Bool) : Option (BitVec 16) :=
  if arg c 0 1 ≥ 3 then some stBadWindow
  else if !windowAllowed c.priv (Fin.ofNat 3 (arg c 0 1)) write then some stPrivilege
  else if arg c 1 8 % 8 ≠ 0 then some stBadCmd
  else if arg c 1 8 ≥ 0x100_0000 then some stRange
  else none

/-- The Prompter reads the register at an offset; the value goes to it (R441) (DESIGN CHOICE, log 99). -/
def prompterRead (off : Nat) (s : State) : State :=
  if mayAccess .prompter false s && prmAllows s (0x1000_0000 + off) .load then
    let x := accessRead .prompter off s
    emit (.regValue .prompter x.1) x.2
  else s

/-- REG_READ: by a command, or by the Prompter itself (DEDUCED, log 27) (DESIGN CHOICE, log 99). -/
def execRegRead (reader : RegReader) (s : State) : Host.Outcome State Fault Refusal := match reader with
  | .prompter off => .next (prompterRead off s)
  | .command id => match cmdReady s id 0x0040 with
    | none => .next s
    | some c => match accessRefused c false with
      | some st => .next (endCmd id st [] s)
      | none =>
        let x := accessRead (.window c.session (Fin.ofNat 3 (arg c 0 1))) (arg c 1 8) s
        .next (endCmd id stOk (leBytes 8 x.1.toNat) x.2)

/-- REG_WRITE (DEDUCED, log 27). -/
def execRegWrite (id : Nat) (s : State) : Host.Outcome State Fault Refusal :=
  match cmdReady s id 0x0041 with
  | none => .next s
  | some c => match accessRefused c true with
    | some st => .next (endCmd id st [] s)
    | none =>
      .next (endCmd id stOk [] (accessWrite (.window c.session (Fin.ofNat 3 (arg c 0 1))) (arg c 1 8) (BitVec.ofNat 64 (arg c 9 8)) s))

/-- REGISTER_WRITE: a write to any register of the fabric (R13). -/
def execRegisterWrite (who : Requester) (offset : Nat) (v : W64) (s : State) : Host.Outcome State Fault Refusal :=
  .next (if mayAccess who true s then accessWrite who offset v s else s)

/-! ### Writes with a row of their own -/

/-- EPOCH_ARM: STG_CTRL (R99). -/
def execEpochArm (who : Requester) (v : W64) (s : State) : Host.Outcome State Fault Refusal := .next (writeRow .stgCtrl who v s)
/-- SW_COLD: RST_CTRL (R423). -/
def execSwCold (who : Requester) (v : W64) (s : State) : Host.Outcome State Fault Refusal := .next (writeRow .rstCtrl who v s)
/-- SW_WARM: RST_CTRL (R423, R427). -/
def execSwWarm (who : Requester) (v : W64) (s : State) : Host.Outcome State Fault Refusal := .next (writeRow .rstCtrl who v s)
/-- RST_BLOCK (R429). -/
def execRstBlock (who : Requester) (v : W64) (s : State) : Host.Outcome State Fault Refusal := .next (writeRow .rstBlock who v s)
/-- STATE_AUDIT: DIG_AUDIT (R214). -/
def execStateAudit (who : Requester) (v : W64) (s : State) : Host.Outcome State Fault Refusal := .next (writeRow .digAudit who v s)
/-- BEAT: FLT_BEAT (R415). -/
def execBeat (who : Requester) (v : W64) (s : State) : Host.Outcome State Fault Refusal := .next (writeRow .fltBeat who v s)
/-- FATAL: FLT_BEAT (R403). -/
def execFatal (who : Requester) (v : W64) (s : State) : Host.Outcome State Fault Refusal := .next (writeRow .fltBeat who v s)
/-- NMI_ACK: FLT_BEAT (R406). -/
def execNmiAck (who : Requester) (v : W64) (s : State) : Host.Outcome State Fault Refusal := .next (writeRow .fltBeat who v s)
/-- FLT_SRC_CTRL (R407). -/
def execFltSrcCtrl (who : Requester) (v : W64) (s : State) : Host.Outcome State Fault Refusal := .next (writeRow .fltSrcCtrl who v s)
/-- SCHED_SHAPER (R292). -/
def execSchedShaper (who : Requester) (v : W64) (s : State) : Host.Outcome State Fault Refusal := .next (writeRow .schedShaper who v s)
/-- SCHED_POLICER (R292). -/
def execSchedPolicer (who : Requester) (v : W64) (s : State) : Host.Outcome State Fault Refusal :=
  .next (writeRow .schedPolicer who v s)
/-- SWC_CREDIT: SWC_CREDIT_LO or SWC_CREDIT_HI (R270). -/
def execSwcCredit (who : Requester) (high : Bool) (v : W64) (s : State) : Host.Outcome State Fault Refusal :=
  .next (writeRow (if high then .swcCreditHi else .swcCreditLo) who v s)
/-- LOCAL_RES: SWC_CTRL (R270). -/
def execLocalRes (who : Requester) (v : W64) (s : State) : Host.Outcome State Fault Refusal := .next (writeRow .swcCtrl who v s)
/-- SWC_RT_STATIC (R276). -/
def execSwcRtStatic (who : Requester) (v : W64) (s : State) : Host.Outcome State Fault Refusal :=
  .next (writeRow .swcRtStatic who v s)
/-- SWC_RT_SPRAY (R276). -/
def execSwcRtSpray (who : Requester) (v : W64) (s : State) : Host.Outcome State Fault Refusal := .next (writeRow .swcRtSpray who v s)
/-- LEAVE_CTRL (R383, R401). -/
def execLeaveCtrl (who : Requester) (v : W64) (s : State) : Host.Outcome State Fault Refusal := .next (writeRow .leaveCtrl who v s)
/-- LANE_PORT_CTRL (R233, R234). -/
def execLanePortCtrl (who : Requester) (v : W64) (s : State) : Host.Outcome State Fault Refusal :=
  .next (writeRow .lanePortCtrl who v s)
/-- OUTR_CTRL (R196). -/
def execOutrCtrl (who : Requester) (v : W64) (s : State) : Host.Outcome State Fault Refusal := .next (writeRow .outrCtrl who v s)

/-! ### Reads that clear (R61, R94, R215, R238, R263, R293, R295, R352, R446) -/

def execWdrOvfCount (who : Requester) (s : State) : Host.Outcome State Fault Refusal := .next (readRow .wdrOvfCount who s)
def execWdrVoidCount (who : Requester) (s : State) : Host.Outcome State Fault Refusal := .next (readRow .wdrVoidCount who s)
def execHarnSpillCount (who : Requester) (s : State) : Host.Outcome State Fault Refusal := .next (readRow .harnSpillCount who s)
def execHarnMbrCnt (who : Requester) (s : State) : Host.Outcome State Fault Refusal := .next (readRow .harnMbrCnt who s)
def execOutrEvents (who : Requester) (s : State) : Host.Outcome State Fault Refusal := .next (readRow .outrEvents who s)
def execLaneErrCount (who : Requester) (s : State) : Host.Outcome State Fault Refusal := .next (readRow .laneErrCount who s)
def execLinkErrCount (who : Requester) (s : State) : Host.Outcome State Fault Refusal := .next (readRow .linkErrCount who s)
def execSwcDropCount (who : Requester) (s : State) : Host.Outcome State Fault Refusal := .next (readRow .swcDropCount who s)
def execSchedQstat (who : Requester) (s : State) : Host.Outcome State Fault Refusal := .next (readRow .schedQstat who s)
def execMbxDropCount (who : Requester) (s : State) : Host.Outcome State Fault Refusal := .next (readRow .mbxDropCount who s)
def execMbxViol (who : Requester) (s : State) : Host.Outcome State Fault Refusal := .next (readRow .mbxViol who s)

end Sys2Proof.Machine
end

