-- ==== Sys2Proof/Machine/FaultRows.lean ====
section
/-! DEFINITION. Meanings of the rows of the fault collector and the stage door (16_faults.md R403 to R422, 19 R456). -/

namespace Sys2Proof.Machine

/-! ### The stage door (R413, R415, R416) -/

/-- Beat timeouts in force (Table Faults-11). -/
def hbTo (s : State) : Nat := max 10 (fld s.flt.ctrl 47 38) * ms
def bootTo (s : State) : Nat := max 160 (fld s.flt.ctrl 37 28) * ms

/-- HEARTBEAT_TIMEOUT: a beat in the AO cycle in which the time ends still counts (DEDUCED, log 36). -/
def execHeartbeatTimeout (s : State) : Host.Outcome State Fault Refusal :=
  if s.door.st = .running ∧ s.door.beatAt + hbTo s + aoCycle ≤ s.time then .next (doorRestart 0 s) else .next s

/-- BOOT_TIMEOUT. -/
def execBootTimeout (s : State) : Host.Outcome State Fault Refusal :=
  if s.door.st = .booting ∧ s.door.bootAt + bootTo s + aoCycle ≤ s.time then .next (doorRestart 2 s) else .next s

/-- NMI_TIMEOUT: an NMI not acknowledged within 10 ms. -/
def execNmiTimeout (s : State) : Host.Outcome State Fault Refusal := match s.flt.nmiAt with
  | some t => if t + 10 * ms ≤ s.time then .next (doorRestart 3 s) else .next s
  | none => .next s

/-- RESTART_RELEASE (Table Faults-6). -/
def execRestartRelease (s : State) : Host.Outcome State Fault Refusal :=
  if s.door.st = .restarting ∧ s.door.restartAt + ms ≤ s.time then
    .next { s with door := { s.door with st := .booting, bootAt := s.time } }
  else .next s

/-- Ticks between toggle points: 12,500 AO cycles (DEDUCED, log 36). -/
def togglePeriod : Nat := 12500 * aoCycle

/-- ALIVE_TOGGLE: at a toggle point ALIVE toggles while its conditions hold; the first edge is rising (R413) (DEDUCED, log 36). -/
def execAliveToggle (s : State) : Host.Outcome State Fault Refusal :=
  if s.rst.porAt < s.time ∧ (s.time - s.rst.porAt) % togglePeriod = 0 ∧ s.door.toggleAt ≠ s.time ∧ aliveOk s then
    let level := !(s.door.aliveOn && s.door.level)
    .next (emit (.alive level) { s with door := { s.door with aliveOn := true, level := level, toggleAt := s.time } })
  else .next s

/-! ### Sources (R403 to R412, R456) -/

/-- FAULT_RAISE: units raise sources in one AO cycle. -/
def execFaultRaise (raises : List Raise) (s : State) : Host.Outcome State Fault Refusal :=
  .next (raiseAll (raises.filter (fun r => decide (r.index.toNat < indexCount r.src))) s)

/-- A rail that had left its range is back in it (R456). -/
def railBack (rail : Fin 8) (s : State) : State :=
  { s with rst := { s.rst with rails := s.rst.rails.map (fun x => if x.1 = rail ∧ x.2 = none then (rail, some s.time) else x) } }

/-- SUPPLY_EXCURSION: a rail out of its range raises SUPPLY; one that is back in it waits its 1 ms (R456) (DESIGN CHOICE, log 112). -/
def execSupplyExcursion (ev : RailEvent) (s : State) : Host.Outcome State Fault Refusal :=
  .next (if ev.out then raise { src := srcSupply, index := BitVec.ofNat 4 ev.rail.val } (railOut ev.rail s) else railBack ev.rail s)

/-- THERMAL_THRESHOLD (Table Faults-1). -/
def execThermalThreshold (trip : Bool) (s : State) : Host.Outcome State Fault Refusal :=
  .next (raise { src := if trip then srcThermTrip else srcThermWarn } s)

/-- BLOCK_RESET_END: each unit whose 1 µs of BLOCK_RESET is over comes back, where no host bit holds it (R429). -/
def execBlockResetEnd (s : State) : Host.Outcome State Fault Refusal :=
  let ended := s.rst.reactEnds.filter (fun x => decide (x.2 ≤ s.time))
  let bits : BitVec 19 := ended.foldl (fun a x => a ||| BitVec.ofNat 19 (1 <<< x.1)) 0
  .next (releaseUnits (s.rst.block ||| s.rst.reactBlock) { s with rst := { s.rst with
    reactBlock := s.rst.reactBlock &&& ~~~bits, reactEnds := s.rst.reactEnds.filter (fun x => !decide (x.2 ≤ s.time)) } })

/-- Has the reaction that a source took completed (Table Faults-2)? -/
def reactionDone (s : State) (i : SrcId) : Bool := match (s.flt.sources[i.val]).applied with
  | 2 => s.flt.nmiAt.isNone
  | 3 => true
  | 4 => if i = srcPrompterEcc ∨ i = srcFwFatal then decide (s.door.st ≠ .restarting) && decide (s.door.st ≠ .booting)
         else decide (s.rst.reactBlock &&& (if i = srcTeam then 0x0FF else 0xF00) = 0)
  | 5 => !s.rst.asserted.getLsbD 6 && s.rst.warmAt.isNone
  | 6 => !recovering s
  | _ => true

/-- REACTION_COMPLETE: an event source goes to QUIET. HEARTBEAT does so at the first beat (Table Faults-6). -/
def execReactionComplete (src : SrcId) (s : State) : Host.Outcome State Fault Refusal :=
  if !isLevel src ∧ src ≠ srcHeartbeat ∧ reactionDone s src then .next (toQuiet src s) else .next s

/-- Is the condition of a level source gone, as far as the module sees it (Table Faults-1)? -/
def conditionGone (s : State) (i : SrcId) : Bool := match i.val with
  | 0x00 => decide (s.stg.st ≠ .stopped)
  | 0x01 => decide (s.stg.st ≠ .holdover)
  | 0x0F => !s.rid.lost
  | 0x12 => !s.rst.asserted.getLsbD 1 && s.rst.rails.all (fun x => x.2.any (fun t => decide (t + ms ≤ s.time)))
  | _ => true

/-- CONDITION_GONE. -/
def execConditionGone (src : SrcId) (s : State) : Host.Outcome State Fault Refusal :=
  if isLevel src ∧ conditionGone s src then
    .next (toQuiet src (if src = srcSupply then { s with rst := { s.rst with rails := [] } } else s))
  else .next s

/-- Quiet period in force. -/
def quietTime (s : State) : Nat := max 1 (fld s.flt.ctrl 63 48) * ms

/-- Release the fences that a source holds: at once without a run, else at the next step boundary (R412). -/
def releaseFences (x : Source) (s : State) : State :=
  if s.cue.run.isSome then
    { s with flt := { s.flt with liftTeam := s.flt.liftTeam ||| x.teamHeld, liftArray := s.flt.liftArray ||| x.arrayHeld } }
  else { s with flt := { s.flt with team := s.flt.team &&& ~~~x.teamHeld, array := s.flt.array &&& ~~~x.arrayHeld } }

/-- The CLEARED event of a source (Table Faults-9). -/
def clearedEvent (i : SrcId) (recoveries : Nat) (seq : W64) (s : State) : State :=
  hostEvent 0x11 (leBytes 1 i.val ++ zeros 5 ++ leBytes 2 recoveries ++ leBytes 8 seq.toNat) s

/-- A source reaches OK: what was held for it is released (Table Faults-2). -/
def toOk (i : SrcId) (s : State) : State :=
  let x := s.flt.sources[i.val]
  let n := satAdd 0xFFFF x.recoveries 1
  let seq := if s.flt.queue.length < 256 then s.flt.logSeq else (freeNow s).setWidth 64
  let s := drawn (queueLog 0x02 i 0 x.index.toNat 0 0 s)
  let s := modSource i (fun y => { y with
    st := .ok, recoveries := n, told := false, teamHeld := 0, arrayHeld := 0, aliveHeld := false }) (releaseFences x s)
  let s := if i = srcHeartbeat then { s with door := { s.door with run := 0 } } else s
  if x.told then clearedEvent i n seq s else s

/-- QUIET_EXPIRY: a raise in the AO cycle in which the period ends is taken first (R404). -/
def execQuietExpiry (src : SrcId) (s : State) : Host.Outcome State Fault Refusal :=
  let x := s.flt.sources[src.val]
  if x.st = .quiet ∧ x.since + quietTime s + aoCycle ≤ s.time then .next (toOk src s) else .next s

/-! ### The log (R418, Table Faults-7) -/

/-- A log record. -/
def logBytes64 (r : LogRec) : List Byte :=
  let b := leBytes 8 r.seq.toNat ++ [r.type, r.source, r.react, r.index] ++ zeros 4 ++ leBytes 8 r.tick.toNat ++ leBytes 8 r.wall.toNat ++
    leBytes 8 r.sticky.toNat ++ leBytes 8 r.addr.toNat ++ zeros 12
  b ++ crc32Bytes b

/-- LOG_DRAIN: the firmware writes the oldest entry to its place in the ring (DEDUCED, log 37). -/
def execLogDrain (s : State) : Host.Outcome State Fault Refusal := match s.flt.queue with
  | [] => .next s
  | r :: rest =>
    if s.prm.running ∧ s.rst.memReady ∧ carriageClear s 4 then
      .next { s with
        flt := { s.flt with queue := rest }
        dram := memWrite s.dram (logBase + 64 * (r.seq.toNat % (logBytes / 64))) (logBytes64 r) }
    else .next s

/-! ### Commands (R407, R420) -/

/-- One source in FAULT_INFO. -/
def sourceInfo (x : Source) : List Byte :=
  leBytes 1 (match x.st with
    | .ok => 0
    | .active => 1
    | .quiet => 2) ++ leBytes 1 x.index.toNat ++ leBytes 1 x.react.toNat ++ [0] ++ leBytes 2 x.events ++ leBytes 2 x.recoveries

/-- FAULT_INFO. -/
def execFaultInfo (id : Nat) (s : State) : Host.Outcome State Fault Refusal := match cmdReady s id 0x0080 with
  | none => .next s
  | some _ =>
    let reg (r : Reg) : List Byte := leBytes 8 (regValue {} s r).toNat
    .next (endCmd id stOk (reg .fltFirst ++ reg .fltSdoor ++ reg .fltFence ++ reg .fltQueue ++
      s.flt.sources.toList.flatMap sourceInfo) s)

/-- FAULT_REACT: a source outside Table Faults-1 has no allowed reaction. -/
def execFaultReact (id : Nat) (s : State) : Host.Outcome State Fault Refusal := match cmdReady s id 0x0081 with
  | none => .next s
  | some c =>
    let src := arg c 0 1
    let s := if h : src < 23 then setReact ⟨src, h⟩ (arg c 1 1) s else { s with flt := { s.flt with reactBad := true } }
    .next (endCmd id stOk [] s)

/-- FAULT_INJECT. -/
def execFaultInject (id : Nat) (s : State) : Host.Outcome State Fault Refusal := match cmdReady s id 0x0082 with
  | none => .next s
  | some c =>
    let src := arg c 0 1
    let idx := arg c 1 1
    if s.cue.run.isSome then .next (endCmd id stBusy [] s)
    else if h : src < 23 then
      let i : SrcId := ⟨src, h⟩
      if i = srcHeartbeat ∨ idx ≥ indexCount i then .next (endCmd id stBadCmd [] s)
      else
        let r : Raise := { src := i, index := BitVec.ofNat 4 idx }
        .next (endCmd id stOk (leBytes 8 (logSeqNow s r).toNat) (raiseAs 0x05 false r s))
    else .next (endCmd id stBadCmd [] s)

end Sys2Proof.Machine
end

