-- ==== Sys2Proof/Machine/Lanes.lean ====
section
/-! DEFINITION. Meanings of the lane rows (09_lanes.md), and of the link layer's idle requests (10_izano_link.md R262). -/

namespace Sys2Proof.Machine

/-- SUPERFRAME_RECEIVED: a MARKED lane's superframe is decoded, its info word read and its health judged; its data cells go to the link
layer with those of the other active lanes; IDLE_NEXT moves the lane to IDLE at its end (R224, R226 to R228, R231, R235). -/
def execSuperframeReceived (lane : LaneId) (rx : SuperframeRx) (s : State) : Host.Outcome State Fault Refusal :=
  if (s.lane.lanes[lane.val]).lock = .marked then .next (takeSuperframe lane rx s) else .next s

/-- LANE_LOCKED: 64 consecutive valid headers at the offset under hunt; any invalid one moves the hunt to the next offset (R225). -/
def execLaneLocked (lane : LaneId) (offset : Fin 65) (heads : List Level) (s : State) : Host.Outcome State Fault Refusal :=
  let x := s.lane.lanes[lane.val]
  if x.lock = .hunt ∧ x.hunt = offset then
    if heads.length = 64 ∧ heads.all (fun v => headValid (headOfLevel (x.entry.getLsbD 25) v)) then
      .next (modLane lane (fun x => { x with lock := .locked }) s)
    else .next (modLane lane (fun x => { x with hunt := x.hunt + 1 }) s)
  else .next s

/-- A body is within 8 bits of its marker (R225). -/
def marks (x : Lane) (line : List Level) (m : BitVec 128) : Bool := decide (distance (bodyOfLine (x.entry.getLsbD 25) line) m ≤ 8)

/-- LANE_MARKED: in LOCKED an M0, an M1 and an M0 again 1,452 blocks after the first are found; a lane in IDLE whose wake runs takes the
first M0 and M1 within 16 blocks of their place (R225, R236). -/
def execLaneMarked (lane : LaneId) (m0 m1 next : List Level) (shift : Nat) (s : State) : Host.Outcome State Fault Refusal :=
  let x := s.lane.lanes[lane.val]
  let p := portOfLane lane
  if !(marks x m0 mark0 && marks x m1 mark1) then .next s
  else if x.lock = .locked ∧ marks x next mark0 then
    .next (modLane lane (fun x => { x with lock := .marked, badMarks := 0, goodSf := 0, winPos := 0, winUncorr := 0, prbsRx := none }) s)
  else if x.lock = .idle ∧ x.energyAt.isSome ∧ shift ≤ 16 then
    .next (resumeTimer p (modLanePort p (fun y => { y with rxIdle := false })
      (modLane lane (fun x => { x with lock := .marked, badMarks := 0, energyAt := none, late := false, idleNext := false }) s)))
  else .next s

/-- BLOCK_LOSS: 32 or more invalid headers in 1,024 blocks (R225, R231). -/
def execBlockLoss (lane : LaneId) (heads : List Level) (s : State) : Host.Outcome State Fault Refusal :=
  let x := s.lane.lanes[lane.val]
  let bad := heads.countP (fun v => !headValid (headOfLevel (x.entry.getLsbD 25) v))
  if (x.lock = .locked ∨ x.lock = .marked) ∧ heads.length = 1024 ∧ bad ≥ 32 then .next (dropLock lane .hunt 0x02 s) else .next s

/-- MARK_LOSS: bad markers in 4 consecutive superframes (R225, R231). -/
def execMarkLoss (lane : LaneId) (s : State) : Host.Outcome State Fault Refusal :=
  let x := s.lane.lanes[lane.val]
  if x.lock = .marked ∧ x.badMarks ≥ 4 then .next (dropLock lane .locked 0x04 s) else .next s

/-- LOS: a lane loses its signal. It becomes BAD unless IDLE_NEXT was announced (R231, R235). -/
def execLos (lane : LaneId) (s : State) : Host.Outcome State Fault Refusal :=
  let x := s.lane.lanes[lane.val]
  if x.lock = .off ∨ x.lock = .idle ∨ (s.lane.ports[(portOfLane lane).val]).rxIdle then .next s
  else .next (becomeBad lane (laneSticky lane 0x08 s))

/-- A tick lies `n` ticks before a superframe boundary of the port; the first boundary of a port that starts is free (R217, R219). -/
def beforeBoundary (x : LanePort) (n now : Nat) : Bool := match x.startAt with
  | some t => decide (t < now + n) && (now + n - t) % 1664 == 0
  | none => true

/-- INFO_WORD_FIXED: 32 ticks before a superframe its info word is fixed, with the active set of R232 (R223, R233, R235). -/
def execInfoWordFixed (p : Port) (s : State) : Host.Outcome State Fault Refusal :=
  let x := s.lane.ports[p.val]
  if x.started ∧ beforeBoundary x 32 s.time then
    let f : InfoFix :=
      { rxGood := rxGood s p, active := chooseActive s p, sfc := x.sfc, setAt := s.time
        idleNext := x.idleReq && !x.txIdle && !x.idleSent && x.exiting.isNone }
    .next (modLanePort p (fun x => { x with fixed := some f }) s)
  else .next s

/-- The end of the superframe before: after IDLE_NEXT the direction goes idle, and an exit asked for meanwhile starts at once
(R235, R237). -/
def endSuperframe (p : Port) (s : State) : State :=
  let x := s.lane.ports[p.val]
  if x.idleSent then
    let s := if x.exitReq then sendWake p s.time s else s
    modLanePort p (fun y => { y with
      idleSent := false, idleReq := false, exitReq := false, txIdle := true
      exiting := if x.exitReq then some (s.time + 256) else none }) s
  else s

/-- SUPERFRAME_START: the boundary of a superframe, 32 ticks after its info word was fixed. The new active set applies, and every lane
that can be driven sends its superframe; in idle only the count runs on, and at boundary B of an exit the direction sends again
(R219, R228, R233, R235, R236, R260). -/
def execSuperframeStart (p : Port) (s : State) : Host.Outcome State Fault Refusal :=
  match (s.lane.ports[p.val]).fixed with
  | none => .next s
  | some f =>
    if f.setAt + 32 ≠ s.time then .next s
    else
      let s := endSuperframe p s
      let y := s.lane.ports[p.val]
      let wakes := y.exiting.any (fun b => decide (b ≤ s.time))
      let s := modLanePort p (fun z => { z with sfc := z.sfc + 1, startAt := some s.time, fixed := none }) s
      if y.txIdle && !wakes then .next s
      else .next (sendSuperframe p f (modLanePort p (fun z => { z with
        txIdle := false, exiting := none, txActive := f.active, goodSent := f.rxGood, idleSent := f.idleNext
        startSfc := f.sfc, startStg := s.stg.now }) s))

/-- Is a frame unacknowledged, or queued for the port, in the reorder stage too? -/
def portBusy (s : State) (p : Port) : Bool :=
  !(s.link[p.val]).unacked.isEmpty || s.swc.queued.any (fun q => decide (q.output = fabric p)) ||
    s.swc.transit.any (fun t => decide (t.output = fabric p)) || s.swc.reorder.any (fun c => decide (c.port = p) && !c.held.isEmpty)

/-- The conditions under which the link layer asks for transmit idle (R262). -/
def wantsIdle (s : State) (p : Port) : Bool :=
  let l := s.link[p.val]
  (s.lane.ports[p.val]).txCells.isEmpty && l.ctrl.getLsbD 0 && (decide (l.state = .opened) || decide (l.state = .offBook)) && !portBusy s p && l.linkLast && !l.owed &&
    !rollDue s l && decide (l.lastData + idleDelay l ≤ s.time)

/-- What makes the link layer ask for exit (R262). -/
def wantsExit (s : State) (p : Port) : Bool :=
  let l := s.link[p.val]
  !(s.lane.ports[p.val]).txCells.isEmpty || portBusy s p || l.owed || helloDue s l || rollDue s l || !l.ctrl.getLsbD 0

/-- IDLE_REQUEST: the link layer asks for transmit idle (R235, R262). -/
def execIdleRequest (p : Port) (s : State) : Host.Outcome State Fault Refusal :=
  let x := s.lane.ports[p.val]
  if wantsIdle s p ∧ x.started ∧ (!x.txIdle ∨ x.exiting.isSome) then
    .next (modLanePort p (fun x => { x with idleReq := true }) s)
  else .next s

/-- IDLE_EXIT_REQUEST: the link layer asks to leave idle. In idle the wake burst starts; after IDLE_NEXT is fixed the exit waits
for the drop; a request not yet fixed is withdrawn (R236, R237, R262). -/
def execIdleExitRequest (p : Port) (s : State) : Host.Outcome State Fault Refusal :=
  let x := s.lane.ports[p.val]
  if !wantsExit s p then .next s
  else if x.txIdle ∧ x.exiting.isNone then
    .next (sendWake p s.time (modLanePort p (fun x => { x with exiting := some (s.time + 256), idleReq := false }) s))
  else if x.idleSent ∨ x.fixed.any (·.idleNext) then .next (modLanePort p (fun x => { x with exitReq := true }) s)
  else .next (modLanePort p (fun x => { x with idleReq := false }) s)

/-- ENERGY_DETECTED: a lane in IDLE detects the wake burst (R236). -/
def execEnergyDetected (lane : LaneId) (s : State) : Host.Outcome State Fault Refusal :=
  let x := s.lane.lanes[lane.val]
  if x.lock = .idle ∧ x.energyAt = none then .next (modLane lane (fun x => { x with energyAt := some s.time }) s) else .next s

/-- WAKE_TIMEOUT: a lane not MARKED 6,656 ticks after energy becomes BAD; once no lane's wake is awaited the pause ends (R237). -/
def execWakeTimeout (lane : LaneId) (s : State) : Host.Outcome State Fault Refusal :=
  let x := s.lane.lanes[lane.val]
  let p := portOfLane lane
  if x.lock = .idle ∧ !x.late ∧ x.energyAt.any (fun t => decide (t + 6656 ≤ s.time)) then
    let s := becomeBad lane (modLane lane (fun y => { y with late := true }) s)
    let waits := (lanesOf p).any (fun l => decide ((s.lane.lanes[l.val]).lock = .idle) && !(s.lane.lanes[l.val]).late)
    .next (if waits then s else resumeTimer p (modLanePort p (fun y => { y with rxIdle := false }) s))
  else .next s

end Sys2Proof.Machine
end

