-- ==== Sys2Proof/Machine/Leave.lean ====
section
/-! DEFINITION. Meanings of the riding master's rows, and LEAVE_INFO (15_leave_and_box_office.md R376 to R387, R400). -/

namespace Sys2Proof.Machine

/-! ### Needing leave (R377, R380) -/

/-- Is a Groom issue of instance (n, c) ready, apart from leave: a fired segment whose clipping factor is known? -/
def updateWaits (s : State) (n c : Nat) : Bool :=
  s.harn.slots.any (fun x => decide (x.step = n) && (updateDue s x.head x.seg).any (fun u =>
    decide (u.cue = c) && !seedSkips s u && (clipFactor s n u.word u.p).isSome))

/-- Is a pass of instance (n, c) ready: its operands are in working space? -/
def passWaits (s : State) (n c : Nat) : Bool :=
  s.prj.bands.any (fun b => decide (b.step = n) && decide (b.cue = c) && (match bandWord s b with
    | some (sh, w) => (List.range (tiles w sh.len b)).any (tileReady s b)
    | none => false))

/-- Is an issue of the instance ready, apart from leave (R380)? -/
def issueReady (s : State) (n c : Nat) (w : CueWord) : Bool :=
  if cKind w = cReduceUpdate then updateWaits s n c else if cKind w = cProject then passWaits s n c else false

/-! ### Windows of the open steps (R126, R382) -/

def preGrantOf (s : State) (k : Nat) : Option PreGrant := s.cue.sheet.bind (fun sh => if sh.liberty then none else sh.preGrants[k]?)

/-- The window of a pre-grant in a step, where the riding master holds it. -/
def windowGrant (s : State) (n k : Nat) : Option Grant :=
  s.rid.grants.find? (fun g => decide (g.step = n) && decide (g.window = some k))

/-- Has the window that a cue's LSLOT names ended? -/
def windowOver (s : State) (n k : Nat) : Bool := match openStep s n, preGrantOf s k with
  | some o, some g => decide (o.openAt.toNat + g.start + g.length ≤ s.stg.now.toNat)
  | _, _ => true

/-- Watts of the windows that open within the next 20 µs: of open steps, and of the steps planned after them (R380) (DEDUCED, log 34). -/
def soonWatts (s : State) : Nat := match s.cue.sheet, s.cue.run with
  | some sh, some r =>
    if sh.liberty then 0
    else
      let soon (base : Nat) : Nat := sh.preGrants.foldl (fun a g =>
        if s.stg.now.toNat < base + g.start ∧ base + g.start ≤ s.stg.now.toNat + 20 * us then a + max g.watts (classWatts g.lclass.toNat) else a) 0
      let more := if r.ending = .none then (List.range (20 * us / sh.period + 2)).map (fun i => r.nextStep + i) else []
      r.steps.foldl (fun a o => a + soon o.openAt.toNat) 0 +
        more.foldl (fun a n => if sh.stepCount ≠ 0 ∧ n ≥ sh.firstStep + sh.stepCount then a else a + soon (max s.stg.now.toNat (plannedTick sh n))) 0
  | _, _ => 0

/-- Does a grant fit now: the pool, and the ramp rule (R379, R380, R382)? No leave is granted before the first reading (R385). -/
def grantFits (s : State) (watts ramp : Nat) : Bool :=
  s.rid.released && s.rid.board.isSome && decide (held s + watts ≤ poolNow s) && decide (rampSum s + ramp ≤ didtNow s)

/-! ### The order within an arena cycle (R384) -/

/-- Has an ordinary grant ended: its instance is DONE, or idle for IDLE_REL µs (R380)? (DEDUCED, log 35). -/
def releaseDue (s : State) (g : Grant) : Bool :=
  g.window.isNone && decide (g.st = .running) && (match instOf s g.step g.cue, cueWord s g.cue with
    | some i, some w => decide (i.st = .done) ||
        (decide (g.inFlight = 0) && !issueReady s g.step g.cue w &&
          decide (max g.grantedAt (max g.lastEnd (g.lastIssue.getD 0)) + max 1 (fld s.rid.ctrl 15 8) * us ≤ s.time))
    | _, _ => true)

/-- Has a window reached its end tick? -/
def endDue (s : State) (g : Grant) : Bool :=
  g.window.isSome && decide (g.st ≠ .tail) && decide (g.endTick ≤ s.stg.now.toNat)

/-- Are releases and window ends due, which are taken before openings and requests? -/
def endsFirst (s : State) : Bool := s.rid.grants.any (fun g => releaseDue s g || endDue s g)

/-- The START tick of entry k of step n, where its window may open or resume now. -/
def openTick (s : State) (n k : Nat) : Option Nat := match windowGrant s n k with
  | some g => if (g.st = .deferred ∨ g.st = .suspended) ∧ s.stg.now.toNat < g.endTick then some g.startTick else none
  | none => match openStep s n, preGrantOf s k with
    | some o, some p =>
      if o.openAt.toNat + p.start ≤ s.stg.now.toNat ∧ s.stg.now.toNat < o.openAt.toNat + p.start + p.length then some (o.openAt.toNat + p.start)
      else none
    | _, _ => none

/-- Steps and table entries whose windows may be due. -/
def dueWindows (s : State) : List (Nat × Nat) :=
  let entries := match s.cue.sheet with
    | some sh => List.range sh.preGrants.length
    | none => []
  let fresh := match s.cue.run with
    | some r => r.steps.flatMap (fun o => entries.map (fun k => (o.step, k)))
    | none => []
  fresh ++ s.rid.grants.filterMap (fun g => g.window.map (fun k => (g.step, k)))

/-- Watts and ramp of a window. -/
def windowSize (s : State) (n k : Nat) : Nat × Nat := match windowGrant s n k, preGrantOf s k with
  | some g, _ => (g.watts, g.ramp)
  | none, some p => (max p.watts (classWatts p.lclass.toNat), p.ramp)
  | none, none => (0, 0)

/-- Does a window that fits come before (t, n, k), in order of START and then of sheet order? -/
def earlierWindow (s : State) (t n k : Nat) : Bool :=
  (dueWindows s).any (fun x => match openTick s x.1 x.2 with
    | some u => (decide (u < t) || (decide (u = t) && (decide (x.1 < n) || (decide (x.1 = n) && decide (x.2 < k))))) &&
        grantFits s (windowSize s x.1 x.2).1 (windowSize s x.1 x.2).2
    | none => false)

/-- Does any window that is due fit? -/
def windowsFirst (s : State) : Bool :=
  (dueWindows s).any (fun x => (openTick s x.1 x.2).isSome && grantFits s (windowSize s x.1 x.2).1 (windowSize s x.1 x.2).2)

/-! ### Rows -/

/-- Put a request in its place: behind those that came before its arena cycle, and by step and cue among those of it (R384).
An arena cycle is 300/141 ticks (DEDUCED, log 34). -/
def addRequest (q : LeaveReq) (l : List LeaveReq) : List LeaveReq :=
  let same (x : LeaveReq) : Bool := decide (x.at' * 141 / 300 = q.at' * 141 / 300)
  l.filter (fun x => !same x || decide (x.step < q.step) || (decide (x.step = q.step) && decide (x.cue < q.cue))) ++ q ::
    l.filter (fun x => same x && !(decide (x.step < q.step) || (decide (x.step = q.step) && decide (x.cue < q.cue))))

/-- May instance (n, c) ask for ordinary leave: it has an issue ready, holds no grant and no request, and no window may serve
it (R126, R380)? (DEDUCED, log 34). -/
def mayRequest (s : State) (n c : Nat) (i : Inst) (w : CueWord) : Bool :=
  s.rid.released && i.launched && decide (i.st ≠ .done) && decide (cLclass w ≠ 0) && issueReady s n c w &&
    (libertyMode s || decide (cLslot w = 0xFFFF) || windowOver s n (cLslot w)) &&
    !s.rid.grants.any (fun g => g.window.isNone && decide (g.step = n) && decide (g.cue = c) && decide (g.st = .running)) &&
    !s.rid.requests.any (fun q => decide (q.step = n) && decide (q.cue = c))

/-- LEAVE_REQUEST (R126, R380). -/
def execLeaveRequest (step cue : Nat) (s : State) : Host.Outcome State Fault Refusal := match instOf s step cue, cueWord s cue with
  | some i, some w =>
    if mayRequest s step cue i w then
      let s := if libertyMode s ∨ cLslot w = 0xFFFF then s
        else cueSticky 4 (modInst step cue (fun i => { i with leaveOverrun := true }) s)
      .next { s with rid := { s.rid with requests := addRequest ⟨step, cue, BitVec.ofNat 4 (cLclass w), s.time⟩ s.rid.requests } }
    else .next s
  | _, _ => .next s

/-- Ramp rate of an ordinary grant (R379). -/
def ordinaryRamp (s : State) : Nat := didtNow s / 2

/-- LEAVE_GRANT: the request at the head of the queue (R380, R384). -/
def execLeaveGrant (s : State) : Host.Outcome State Fault Refusal := match s.rid.requests with
  | [] => .next s
  | q :: rest =>
    let watts := classWatts q.lclass.toNat
    let ahead := if libertyMode s then 0 else soonWatts s
    if endsFirst s ∨ windowsFirst s ∨ !grantFits s (watts + ahead) (ordinaryRamp s) then .next s
    else .next { s with rid := { s.rid with
      requests := rest, nextId := s.rid.nextId + 1
      grants := s.rid.grants ++ [{ id := s.rid.nextId, window := none, step := q.step, cue := q.cue, lclass := q.lclass
                                   watts := watts, ramp := ordinaryRamp s, rampAt := s.time, grantedAt := s.time }] } }

/-- A grant ends: with issues in flight its watts stay booked as a tail (R382). -/
def endGrant (g : Grant) (s : State) : State :=
  if g.inFlight = 0 then { s with rid := { s.rid with grants := s.rid.grants.filter (fun x => !decide (x.id = g.id)) } }
  else modGrant g.id (fun x => { x with st := .tail }) s

def findGrant (s : State) (id : Nat) : Option Grant := s.rid.grants.find? (fun g => decide (g.id = id))

/-- LEAVE_RELEASE (R380). -/
def execLeaveRelease (grant : Nat) (s : State) : Host.Outcome State Fault Refusal := match findGrant s grant with
  | some g => if releaseDue s g then .next (endGrant g s) else .next s
  | none => .next s

/-- WINDOW_OPEN: a window opens or resumes where it fits, and is deferred where it does not (R382, R383). -/
def execWindowOpen (step entry : Nat) (s : State) : Host.Outcome State Fault Refusal := match openTick s step entry with
  | none => .next s
  | some t =>
    if endsFirst s ∨ earlierWindow s t step entry then .next s
    else
      let fits := grantFits s (windowSize s step entry).1 (windowSize s step entry).2
      match windowGrant s step entry with
      | some g =>
        if fits then .next (modGrant g.id (fun x => { x with st := .running, rampUs := 0, rampAt := s.time, grantedAt := s.time }) s) else .next s
      | none => match preGrantOf s entry with
        | none => .next s
        | some p =>
          let g : Grant :=
            { id := s.rid.nextId, window := some entry, step := step, cue := 0, lclass := p.lclass
              watts := (windowSize s step entry).1, ramp := p.ramp, st := if fits then .running else .deferred
              rampAt := s.time, grantedAt := s.time, startTick := t, endTick := t + p.length }
          let s := { s with rid := { s.rid with nextId := s.rid.nextId + 1, grants := s.rid.grants ++ [g] } }
          .next (if fits then s else rideSticky 3 s)

/-- WINDOW_END (R382). -/
def execWindowEnd (grant : Nat) (s : State) : Host.Outcome State Fault Refusal := match findGrant s grant with
  | some g => if endDue s g then .next (endGrant g s) else .next s
  | none => .next s

/-- ISSUE_TAIL_END: the last issue in flight of an ended grant has finished, and its watts leave HELD (R382). -/
def execIssueTailEnd (grant : Nat) (s : State) : Host.Outcome State Fault Refusal := match findGrant s grant with
  | some g =>
    if g.st = .tail ∧ g.inFlight = 0 then
      .next { s with rid := { s.rid with grants := s.rid.grants.filter (fun x => !decide (x.id = grant)) } }
    else .next s
  | none => .next s

/-- RAMP_STEP: a µs of a ramp is done (R379). -/
def execRampStep (grant : Nat) (s : State) : Host.Outcome State Fault Refusal := match findGrant s grant with
  | some g =>
    if ramping g ∧ g.rampAt + us ≤ s.time then .next (modGrant grant (fun x => { x with rampUs := x.rampUs + 1, rampAt := x.rampAt + us }) s)
    else .next s
  | none => .next s

/-- THROTTLE_UPDATE: P_EST against CAP. Before the first reading no CAP is known, and L stays (R386) (DEDUCED, log 35). -/
def execThrottleUpdate (pest : BitVec 16) (s : State) : Host.Outcome State Fault Refusal :=
  if !s.rid.released ∨ s.time < s.rid.throttleAt + us then .next s
  else
    let p := pest.toNat
    let s := { s with rid := { s.rid with pest := pest, throttleAt := s.rid.throttleAt + us } }
    match capNow s with
    | none => .next s
    | some cap =>
      let low := if 100 * p < 94 * cap then s.rid.lowUs + 1 else 0
      let level := if 100 * p > 98 * cap then min 7 (s.rid.level + 1) else if low = 16 then s.rid.level - 1 else s.rid.level
      let s := { s with rid := { s.rid with level := level, lowUs := if low = 16 then 0 else low } }
      let s := if level > 0 then rideSticky 0 s else s
      .next (if level = 7 ∧ p > cap then rideSticky 5 s else s)

/-- LEAVE_INFO (Table Leave-6). -/
def execLeaveInfo (id : Nat) (s : State) : Host.Outcome State Fault Refusal := match cmdReady s id 0x0070 with
  | none => .next s
  | some _ => .next (endCmd id stOk (leBytes 2 ((capNow s).getD 0) ++ leBytes 2 ((s.rid.board.map (·.1)).getD 0) ++
      leBytes 2 (fld s.rid.ctrl 63 48) ++ leBytes 2 (didtNow s) ++ leBytes 2 (fld s.rid.ctrl 47 32) ++ leBytes 2 (held s) ++
      leBytes 2 s.rid.pest.toNat ++ leBytes 1 s.rid.level ++ [0]) s)

end Sys2Proof.Machine
end

