-- ==== Sys2Proof/Machine/ShardCmds.lean ====
section
/-! DEFINITION. Meanings of the rows that create, fill, remove and promote shards (05_groom_and_master_state.md R137, R153). -/

namespace Sys2Proof.Machine

/-- SHARD_CREATE: an OWNER record is created; its zero fill then runs (R137). -/
def execShardCreate (m : MemCmd) (s : State) : Host.Outcome State Fault Refusal :=
  match cmdReady s m.id 0x0030 with
  | none => .next s
  | some c =>
    let hid := BitVec.ofNat 16 (arg c 0 2)
    let len := arg c 2 8
    if len = 0 ∨ len > 2 ^ 32 then .next (endCmd m.id stBadCmd [] s)
    else readThen m 0x0030 shardTable tableBytes s (fun s =>
      if (findShard s hid).isSome then .next (endCmd m.id stExists [] s)
      else match freeRecord s, findRoom s len with
        | some i, some base => .next (endCmd m.id stOk (leBytes 8 base) (createShard i base hid roleOwner len 0 0 0 s))
        | _, _ => .next (endCmd m.id stFull [] s))

/-- ZERO_FILL_DONE: the state words of a created record are zero (R137). -/
def execZeroFillDone (rec : Fin 4096) (s : State) : Host.Outcome State Fault Refusal :=
  if s.grm.fills.any (fun f => decide (f.1 = rec.val) && carriageTurn s 3 f.2) then
    let r := readShard s rec.val
    .next { s with
      dram := memClear s.dram r.base (stateSize r.len)
      grm := { s.grm with fills := s.grm.fills.filter (fun f => !decide (f.1 = rec.val)) } }
  else .next s

/-- What the module keeps of a shard beside its record goes with it. -/
def forgetShard (hid : BitVec 16) (i : Nat) (s : State) : State :=
  { s with grm := { s.grm with
      fills := s.grm.fills.filter (fun f => !decide (f.1 = i))
      seedQueue := s.grm.seedQueue.filter (fun q => !decide (q.hid = hid))
      seedIn := s.grm.seedIn.filter (fun x => !decide (x.hid = hid)) } }

/-- Free record i. -/
def removeShard (hid : BitVec 16) (i : Nat) (s : State) : State :=
  forgetShard hid i { s with dram := memWrite s.dram (shardAddr i) (zeros 64) }

/-- SHARD_REMOVE: a record is freed; during a run one that the sheet names is not (R137, R138). -/
def execShardRemove (m : MemCmd) (s : State) : Host.Outcome State Fault Refusal :=
  match cmdReady s m.id 0x0031 with
  | none => .next s
  | some c =>
    let hid := BitVec.ofNat 16 (arg c 0 2)
    readThen m 0x0031 shardTable tableBytes s (fun s => match findShard s hid with
      | none => .next (endCmd m.id stNotFound [] s)
      | some i => if runNames s hid then .next (endCmd m.id stBusy [] s) else .next (endCmd m.id stOk [] (removeShard hid i s)))

/-- A promotion (R153). -/
def promoteShard (hid : BitVec 16) (s : State) : State :=
  modShard hid (fun r => { r with role := roleOwner, uport := 0, uslot := 0, partner := 0 })
    { s with grm := { s.grm with compare := s.grm.compare.filter (fun x => !(x.hid == hid)) } }

/-- PROMOTE: an understudy becomes the owner (R153). -/
def execPromote (m : MemCmd) (s : State) : Host.Outcome State Fault Refusal :=
  match cmdReady s m.id 0x0032 with
  | none => .next s
  | some c =>
    let hid := BitVec.ofNat 16 (arg c 0 2)
    if s.cue.run.isSome then .next (endCmd m.id stBusy [] s)
    else readThen m 0x0032 shardTable tableBytes s (fun s => match shardOf s hid with
      | none => .next (endCmd m.id stNotFound [] s)
      | some r =>
        if r.role = roleUnderstudy then .next (endCmd m.id stOk [] (promoteShard hid s)) else .next (endCmd m.id stWrongRole [] s))

end Sys2Proof.Machine
end

