-- ==== Sys2Proof/Machine/Seeding.lean ====
section
/-! DEFINITION. Seeding an understudy: the header, the segment copies and their acknowledgements (05_groom_and_master_state.md
R154 to R156). -/

namespace Sys2Proof.Machine

/-- SEG of an acknowledgement of a header (Table Link-8). -/
def headerSeg : Nat := 0xFFFFFF

/-- Segments of a shard. -/
def shardSegs (r : Shard) : Nat := (r.len + 255) / 256

/-- Change the entry of a HID in the seed queue. -/
def modSeed (hid : BitVec 16) (f : SeedOut → SeedOut) (s : State) : State :=
  { s with grm := { s.grm with seedQueue := s.grm.seedQueue.map (fun q => if q.hid = hid then f q else q) } }
def dropSeed (hid : BitVec 16) (s : State) : State :=
  { s with grm := { s.grm with seedQueue := s.grm.seedQueue.filter (fun q => !decide (q.hid = hid)) } }

/-- The partner of a shard, by its record. -/
def toPartner (r : Shard) (pk : Packet) (s : State) : State := sendPartner (groomPort r.hid) r false pk s

/-- May the header of a shard be read: no run is active, no head of the sheet has its HID, or its head stands between the last
release of a step and the next step's first Groom issue (Table Groom-9)? -/
def betweenSteps (s : State) (hid : BitVec 16) : Bool := match s.cue.run, headIdx s hid with
  | some _, some h => match s.harn.heads[h]? with
    | some hd =>
      decide (hd.base = 0) && decide (hd.released = 0) && !s.harn.jobs.any (fun j => decide (j.head = h) && !j.bcast && !j.writesDone) &&
        !(((openStep s hd.step).bind (fun o => o.heads[h]?)).map (·.updated)).getD false
    | none => true
  | _, _ => true

/-- Send the header of the shard at the head of the queue; its record is read, with what the accesses report (R133). -/
def sendHeader (q : SeedOut) (errs : List AccErr) (s : State) : State :=
  let s := match findShard s q.hid with
    | some i => readErrors (shardAddr i) 64 errs s
    | none => s
  match shardOf s q.hid with
  | none => s
  | some r =>
    let words : List W64 := [r.age, r.p1.setWidth 64, r.p2.setWidth 64, r.last]
    let pk := seedHdrPacket q.hid words 0xFFFF (srcAddr s)
    toPartner r pk (modSeed q.hid (fun y => { y with headerSent := true, retryAt := none, kept := [(headerSeg, pk)] }) s)

/-- May segment g of a shard be read for its copy (Table Groom-9)? -/
def copyReadable (s : State) (hid : BitVec 16) (g : Nat) : Bool := match headIdx s hid with
  | none => true
  | some h => !s.harn.slots.any (fun x => decide (x.head = h) && decide (x.seg = g) && x.hasFired) &&
      !s.harn.jobs.any (fun j => decide (j.head = h) && decide (j.seg = g) && !j.bcast && !j.writesDone)

/-- What the accesses of copies report is held until the copy that makes the access (R132, R133) (DESIGN CHOICE, log 98). -/
def holdErrs (errs : List AccErr) (s : State) : State := { s with grm := { s.grm with seedErrs := s.grm.seedErrs ++ errs } }

/-- Read n bytes from address a for a copy: errors held for its accesses take effect now. -/
def readHeld (a n : Nat) (s : State) : State :=
  let errs := s.grm.seedErrs
  readErrors a n errs { s with grm := { s.grm with
    seedErrs := errs.filter (fun x => !(decide (a / 32 ≤ x.access) && decide (32 * x.access < a + n))) } }

/-- Send copies in ascending order, at most 64 unacknowledged, from the shard at the head of the queue, when its zero fill is over and
no request waits at the Carriage before them (R134, R137, R154). -/
def sendCopies : Nat → State → State
  | 0, s => s
  | k + 1, s => match s.grm.seedQueue.head? with
    | none => s
    | some q => match shardOf s q.hid with
      | none => s
      | some r =>
        if q.headerOk ∧ q.nextSeg < shardSegs r ∧ q.unacked.length < 64 ∧ copyReadable s q.hid q.nextSeg ∧ !filling s q.hid ∧
            carriageClear s 5 then
          let g := q.nextSeg
          let n := min 256 (r.len - 256 * g)
          let s := readHeld (stateAddr r (256 * g)) (8 * n) s
          let body := (readWords s r (256 * g) n).flatMap (fun w => leBytes 8 w.toNat)
          let pk := seedCopyPacket q.hid g n body 0xFFFF (srcAddr s)
          sendCopies k (modSeed q.hid (fun y => { y with
            nextSeg := g + 1, unacked := y.unacked ++ [g], kept := y.kept ++ [(g, pk)] }) (toPartner r pk s))
        else s

/-- Copies that the shard at the head of the queue can send now. -/
def serveCopies (s : State) : State := if s.grm.seedQueue.isEmpty then s else sendCopies 64 s

/-- Seeding ends without a mirror (R156). -/
def abortSeed (hid : BitVec 16) (s : State) : State :=
  grmSticky 10 (dropSeed hid (modShard hid (fun r => { r with partner := 0, seedout := false }) s))

/-- Send what waited for the acknowledgement of a copy: the forward of the segment (Table Groom-9). -/
def releaseForward (hid : BitVec 16) (g : Nat) (s : State) : State := match headIdx s hid with
  | some h => match slotOf s h g with
    | some x => if x.hasFired && !x.forwarded then sendForward h g false s else s
    | none => s
  | none => s

/-- Answer a header or a copy. -/
def ackSeed (r : Shard) (status seg : Nat) (s : State) : State := toPartner r (seedAckPacket r.hid status seg 0xFFFF (srcAddr s)) s

/-- The 64-bit word i of a SEED_HDR (DEDUCED, log 60). -/
def hdrWord (pk : Packet) (i : Nat) : Nat := leAt pk.bytes (8 + 8 * i) 8

/-- SEED_HDR: a receiver takes the header values, or answers busy while it seeds another shard (R154, R155). A header for a record
that is not in SEEDING is refused (DEDUCED, log 60). -/
def execSeedHdr (p : Port) (pk : Packet) (s : State) : Host.Outcome State Fault Refusal :=
  if pk.kind = kSeedHdr ∧ lengthOk pk then
    let s := takeHanded p pk s
    match shardOf s (pHid pk) with
    | none => .next s
    | some r =>
      if r.role ≠ roleSeeding then .next (ackSeed r (if r.role = roleUnderstudy then 0 else 1) headerSeg s)
      else match s.grm.seedIn with
        | some x => .next (ackSeed r (if x.hid = r.hid then 0 else 2) headerSeg s)
        | none =>
          let s := modShard r.hid (fun y => { y with
            age := BitVec.ofNat 64 (hdrWord pk 0), p1 := BitVec.ofNat 48 (hdrWord pk 1), p2 := BitVec.ofNat 48 (hdrWord pk 2)
            last := BitVec.ofNat 64 (hdrWord pk 3) }) s
          .next (ackSeed r 0 headerSeg { s with grm := { s.grm with seedIn := some { hid := r.hid } } })
  else .next s

/-- SEG and COUNT of a SEED_COPY (Table Link-8). -/
def copySeg (pk : Packet) : Nat := leAt pk.bytes 4 3
def copyCount (pk : Packet) : Nat := (byteAt pk.bytes 7).toNat + 1

/-- SEED_COPY: a receiver writes a segment copy and sets its seed bit; with the last bit the shard becomes an understudy, at its
next step boundary where a run is active (R154). It waits while the record's zero fill runs (R137) (DEDUCED, log 60). -/
def execSeedCopy (p : Port) (pk : Packet) (s : State) : Host.Outcome State Fault Refusal :=
  if pk.kind = kSeedCopy ∧ lengthOk pk ∧ !filling s (pHid pk) then
    let s := takeHanded p pk s
    match shardOf s (pHid pk) with
    | none => .next s
    | some r =>
      let g := copySeg pk
      if r.role = roleUnderstudy then .next (ackSeed r 0 g s)
      else match s.grm.seedIn with
        | none => .next (ackSeed r 1 g s)
        | some x =>
          if r.role ≠ roleSeeding ∨ x.hid ≠ r.hid ∨ g ≥ shardSegs r ∨ copyCount pk ≠ min 256 (r.len - 256 * g) then .next (ackSeed r 1 g s)
          else if x.map.contains g then .next (ackSeed r 0 g s)
          else
            let s := { s with dram := memWrite s.dram (stateAddr r (256 * g)) ((pk.bytes.drop 16).take (8 * copyCount pk))
                              grm := { s.grm with seedIn := some { x with map := x.map ++ [g] } } }
            let s := ackSeed r 0 g s
            .next (if s.cue.run.isNone then seedEnd s else s)
  else .next s

/-- The answer of the understudy takes effect: status 0 frees a copy or confirms the header, 1 refuses the shard and 2 defers it
(R154 to R156). -/
def takeSeedAck (hid : BitVec 16) (status g : Nat) (s : State) : State :=
  match s.grm.seedQueue.head?, shardOf s hid with
  | some q, some r =>
    if q.hid ≠ hid ∨ !q.headerSent then s
    else if status = 1 then serveCopies (abortSeed hid s)
    else if status = 2 ∧ g = headerSeg ∧ !q.headerOk then
      let rest := s.grm.seedQueue.drop 1
      { s with grm := { s.grm with seedQueue := rest ++ [{ q with headerSent := false, kept := [], retryAt := some (s.time + 100 * ms) }] } }
    else if status ≠ 0 then s
    else if g = headerSeg then serveCopies (modSeed hid (fun y => { y with headerOk := true, kept := y.kept.filter (fun k => !decide (k.1 = headerSeg)) }) s)
    else if !q.unacked.contains g then s
    else
      let s := modSeed hid (fun y => { y with
        unacked := y.unacked.filter (fun k => !decide (k = g)), kept := y.kept.filter (fun k => !decide (k.1 = g)), done := y.done + 1 }) s
      let s := releaseForward hid g s
      if q.done + 1 = shardSegs r then
        let s := dropSeed hid (modShard hid (fun r => { r with seedout := false }) s)
        { s with grm := { s.grm with seedQueue := s.grm.seedQueue.map (fun y =>
          if y.retryAt.isSome then { y with retryAt := some s.time } else y) } }
      else serveCopies s
  | _, _ => s

/-- SEED_ACK: the owner's copy or header is acknowledged, refused or answered busy; further copies follow (R154 to R156). -/
def execSeedAck (p : Port) (pk : Packet) (errs : List AccErr) (s : State) : Host.Outcome State Fault Refusal :=
  if pk.kind = kSeedAck ∧ lengthOk pk then
    .next (takeSeedAck (pHid pk) (byteAt pk.bytes 2).toNat (leAt pk.bytes 4 3) (holdErrs errs (takeHanded p pk s)))
  else .next s

/-- SEED_HEADER_SEND: the header of the shard at the head of the queue is sent, between steps or with no run active (R154). -/
def execSeedHeaderSend (errs : List AccErr) (s : State) : Host.Outcome State Fault Refusal :=
  match s.grm.seedQueue.head? with
  | some q => if !q.headerSent ∧ q.retryAt.isNone ∧ betweenSteps s q.hid ∧ carriageClear s 5 then .next (sendHeader q errs s) else .next s
  | none => .next s

/-- SEED_HEADER_RETRY: a refused header is sent again, after 100 ms or once a shard has finished (R155). -/
def execSeedHeaderRetry (errs : List AccErr) (s : State) : Host.Outcome State Fault Refusal :=
  match s.grm.seedQueue.head? with
  | some q => match q.retryAt with
    | some t => if !q.headerSent ∧ t ≤ s.time ∧ betweenSteps s q.hid ∧ carriageClear s 5 then .next (sendHeader q errs s) else .next s
    | none => .next s
  | none => .next s

/-- Can the partner of a record be reached: its module is in the plan, and UPORT or a port of its route entry is OPEN (R151, R156)? -/
def reachable (s : State) (r : Shard) : Bool := match s.topo.plan.bind (fun p => torusIndex p r.partner) with
  | none => false
  | some d =>
    let e := s.swc.routes[d % 512]
    isOpen s (Fin.ofNat 64 r.uport) || (e.valid && (isOpen s (Fin.ofNat 64 e.static.toNat) ||
      (List.range 64).any (fun i => e.spray.getLsbD i && isOpen s (Fin.ofNat 64 i))))

/-- SEED_ABORT: a partner that cannot be reached on any path ends the seeding (R156). -/
def execSeedAbort (hid : BitVec 16) (s : State) : Host.Outcome State Fault Refusal :=
  match shardOf s hid with
  | some r =>
    if r.role = roleOwner ∧ r.seedout ∧ !reachable s r then .next (serveCopies (abortSeed hid s)) else .next s
  | none => .next s

end Sys2Proof.Machine
end

