-- ==== Sys2Proof/Machine/Topology.lean ====
section
/-! DEFINITION. Meanings of the rows that load a plan, set the live set and let links in (12_topology_and_recovery.md R297 to R308). -/

namespace Sys2Proof.Machine

/-- Bytes of the PLAN window in the scratch region (Table Host-11). -/
def planWindow : Nat := scratchBase + 0x3800_0000
def placeWindow : Nat := scratchBase + 0x3810_0000

/-! ### The plan image (R297 to R299) -/

def imgDims (b : List Byte) : Nat × Nat × Nat := ((byteAt b 0x10).toNat, (byteAt b 0x11).toNat, (byteAt b 0x12).toNat)
def imgNmod (b : List Byte) : Nat := let d := imgDims b; d.1 * d.2.1 * d.2.2
def imgNspine (b : List Byte) : Nat := leAt b 0x14 2

/-- Entry i of a plan image: 8 bytes from 0x100 on. -/
def planEntry (b : List Byte) (i : Nat) : Nat := leAt b (0x100 + 8 * i) 8
def entrySerial (e : Nat) : BitVec 48 := BitVec.ofNat 48 e

/-- The plan that an image describes. -/
def readPlan (b : List Byte) : Plan :=
  let d := imgDims b
  let n := imgNmod b
  { id := BitVec.ofNat 64 (leAt b 8 8), dx := d.1, dy := d.2.1, dz := d.2.2, rolemap := (byteAt b 0x13).toNat
    torus := (List.range n).map (fun i => let e := planEntry b i; (BitVec.ofNat 10 (e / 2 ^ 48), entrySerial e))
    spine := (List.range (imgNspine b)).map (fun i => let e := planEntry b (n + i)
      (e / 2 ^ 62 % 4, e / 2 ^ 60 % 4, BitVec.ofNat 10 (e / 2 ^ 48), entrySerial e))
    penalty := (List.range 64).map (fun i => BitVec.ofNat 16 (leAt b (0x18 + 2 * i) 2)) }

/-- SHAPE: the first field or entry that offends (Table Topology-2). -/
def planShape (b : List Byte) : Option Nat :=
  let d := imgDims b
  let n := imgNmod b
  let ring := [2, 4, 8, 16, 32, 64]
  let t1 := tier1 n
  let full := 4 * (t1 + tier2 n + tier3 n)
  if !ring.contains d.1 then some 0x10
  else if !ring.contains d.2.1 then some 0x11
  else if !(decide (d.2.2 = 1) || ring.contains d.2.2) then some 0x12
  else if n > 512 then some 0x10
  else if (byteAt b 0x13).toNat ≠ (if d.2.2 = 1 then 1 else 0) then some 0x13
  else if imgNspine b ≠ 0 ∧ imgNspine b ≠ full then some 0x14
  else if leAt b 0x16 2 ≠ 0 then some 0x16
  else if !allZero ((b.drop 0x98).take 104) then some 0x98
  else ((List.range (n + imgNspine b)).find? (fun i =>
    let e := planEntry b i
    if i < n then decide (e / 2 ^ 58 ≠ 0) else decide (e / 2 ^ 58 % 4 ≠ 0))).map (fun i => 0x100 + 8 * i)

/-- DUPLICATE: the first entry whose serial came before. -/
def planDuplicate (b : List Byte) : Option Nat :=
  let serials := (List.range (imgNmod b + imgNspine b)).map (fun i => entrySerial (planEntry b i))
  ((serials.zipIdx).find? (fun x => (serials.take x.2).contains x.1)).map (fun x => 0x100 + 8 * x.2)

/-- PLAN_ID as R298 computes it. -/
def planIdOf (b : List Byte) : Nat := leAt (sha3 (b.take 8 ++ zeros 8 ++ b.drop 16)) 0 8

/-- The first failing check of Table Topology-2 with its WHERE; WHERE is 0 where no field or entry offends. -/
def checkPlan (s : State) (b : List Byte) : Option (Nat × Nat) :=
  if leAt b 0 4 ≠ 0x5058415A then some (0x01, 0x000)
  else if leAt b 6 2 ≠ 0x0100 then some (0x01, 0x006)
  else if byteAt b 5 ≠ 1 then some (0x02, 0x005)
  else if byteAt b 4 ≠ 0 then some (0x02, 0x004)
  else if b.length ≠ 256 + 8 * (imgNmod b + imgNspine b) then some (0x03, 0)
  else match planShape b with
    | some w => some (0x04, w)
    | none => match planDuplicate b with
      | some w => some (0x05, w)
      | none =>
        let p := readPlan b
        if (torusIndex p s.fuses.serial).isNone ∧ (spinePlace p s.fuses.serial).isNone then some (0x06, 0)
        else if planIdOf b ≠ leAt b 8 8 then some (0x07, 0x008)
        else if s.cue.run.isSome then some (0x08, 0)
        else none

/-- Withdraw the admission of every OPEN port (R300). -/
def withdrawAll (s : State) : State :=
  (List.finRange 64).foldl (fun s p =>
    let s := modLink p (fun l => { l with hostAdmit := false }) s
    if isOpen s p then setLink p .offBook false s else s) s

/-- Serials of a plan, torus entries then spine entries. -/
def planSerials (p : Plan) : List (BitVec 48) := p.torus.map (·.2) ++ p.spine.map (fun e => e.2.2.2)

/-- A plan takes effect in the order of R300; held frames are routed again under the changed entries (R281). Our own ROLLCALL fields change with it, and ports of role NONE stop (R254, R301) (DEDUCED, log 59). -/
def commitPlan (p : Plan) (s : State) : State :=
  let s := clearRoutes (withdrawAll s)
  let s := routeHeld { s with topo := { s.topo with plan := some p, live := planSerials p, placed := false } }
  let s := (List.finRange 64).foldl (fun s q => applyEnable q (modLink q (fun l => { l with rollOwed := true }) s)) s
  judgeAll s

/-- LOAD_PLAN: the staged plan is checked and committed, or refused (R299, R300, R341). -/
def execLoadPlan (m : MemCmd) (s : State) : Host.Outcome State Fault Refusal :=
  match cmdReady s m.id 0x0020 with
  | none => .next s
  | some c =>
    let len := arg c 0 4
    if len > 1048576 then .next (endCmd m.id stRange [] s)
    else readThen m 0x0020 planWindow len s (fun s =>
      let b := memRead s.dram planWindow len
      match checkPlan s b with
      | some (r, w) => .next (endCmd m.id stRefused (reasonFields r w ++ freeBytes s 8) (drawn s))
      | none =>
        let p := readPlan b
        .next (endCmd m.id stOk (reasonFields 0 0 ++ leBytes 8 p.id.toNat) (commitPlan p s)))

/-- Route entries of modules that are not live hold no route (R308). -/
def dropDeadRoutes (s : State) : State := match s.topo.plan with
  | none => s
  | some p => routeHeld (setRoutes (Vector.ofFn (fun i : Fin 512 => if liveModule s p i.val then s.swc.routes[i.val] else {})) s)

/-- SET_LIVE: the host replaces the live set; every link is judged again (R307, R308) (DEDUCED, log 59). -/
def execSetLive (id : Nat) (s : State) : Host.Outcome State Fault Refusal :=
  match cmdReady s id 0x0021 with
  | none => .next s
  | some c =>
    if s.cue.run.isSome then .next (endCmd id stBusy [] s)
    else
      let all := (s.topo.plan.map planSerials).getD []
      let live := (all.zipIdx.filter (fun x => (byteAt c.args (x.2 / 8)).getLsbD (x.2 % 8))).map (·.1)
      let s := { s with topo := { s.topo with live := live }, link := s.link.map (fun l => { l with hostAdmit := false }) }
      .next (endCmd id stOk [] (judgeAll (dropDeadRoutes s)))

/-- ADMIT with ADMIT = 1: the host admits an off-book link (R307). -/
def execAdmitLink (id : Nat) (s : State) : Host.Outcome State Fault Refusal :=
  match cmdReady s id 0x0023 with
  | none => .next s
  | some c =>
    if arg c 1 1 = 0 then .next s
    else if arg c 1 1 ≠ 1 ∨ arg c 0 1 ≥ 64 then .next (endOpen id s)
    else
      let p : Port := Fin.ofNat 64 (arg c 0 1)
      let st := (s.link[p.val]).state
      let s := if st = .offBook ∨ st = .opened then judge p (modLink p (fun l => { l with hostAdmit := true }) s) else s
      .next (endCmd id stOk [] s)

/-- ADMIT with ADMIT = 0: the host withdraws an admission (R307). -/
def execAdmitWithdraw (id : Nat) (s : State) : Host.Outcome State Fault Refusal :=
  match cmdReady s id 0x0023 with
  | none => .next s
  | some c =>
    if arg c 1 1 ≠ 0 then .next s
    else if arg c 0 1 ≥ 64 then .next (endOpen id s)
    else
      let p : Port := Fin.ofNat 64 (arg c 0 1)
      .next (endCmd id stOk [] (judge p (modLink p (fun l => { l with hostAdmit := false }) s)))

end Sys2Proof.Machine
end

