-- ==== Sys2Proof/Machine/Place.lean ====
section
/-! DEFINITION. Placement: the shard assignment, the trees, the time tree and the result (12_topology_and_recovery.md R310 to R314). -/

namespace Sys2Proof.Machine

/-! ### The request (Table Topology-6) -/

structure PlaceCompany where
  company : Nat
  amask   : Nat
  modules : Nat
  deriving DecidableEq, Repr

structure PlaceShard where
  hid      : BitVec 16
  company  : Nat
  nostate  : Bool
  upper    : Bool
  diverged : Bool
  len      : Nat
  owner    : BitVec 48
  ustudy   : BitVec 48
  own      : Option Nat := none
  und      : Option Nat := none
  promote  : Bool := false
  lost     : Bool := false
  deriving DecidableEq, Repr

def readPlaceCompany (b : List Byte) : PlaceCompany :=
  { company := leAt b 0 2 % 1024, amask := leAt b 2 2, modules := leAt b 8 64 }

def readPlaceShard (b : List Byte) : PlaceShard :=
  let f := byteAt b 4
  { hid := BitVec.ofNat 16 (leAt b 0 2), company := leAt b 2 2 % 1024, nostate := f.getLsbD 0, upper := f.getLsbD 1, diverged := f.getLsbD 2
    len := leAt b 8 8, owner := BitVec.ofNat 48 (leAt b 0x10 6), ustudy := BitVec.ofNat 48 (leAt b 0x18 6) }

/-! ### Shard assignment (R311) -/

/-- Parameters that a shard adds to a load. -/
def loadOf (x : PlaceShard) : Nat := if x.nostate then 0 else x.len

/-- Add to the load of a module. -/
def addLoad (l : List Nat) (m : Option Nat) (n : Nat) : List Nat := match m with
  | some i => l.modify i (· + n)
  | none => l

/-- Number of the live torus module with a serial. -/
def liveTorus (s : State) (p : Plan) (serial : BitVec 48) : Option Nat :=
  if serial = 0 then none else (torusIndex p serial).filter (fun n => liveModule s p n)

/-- Keep what survives. -/
def keepShard (s : State) (p : Plan) (x : PlaceShard) : PlaceShard :=
  let o := liveTorus s p x.owner
  let u := liveTorus s p x.ustudy
  let x := if o.isSome then { x with own := o }
    else if u.isSome ∧ !x.diverged then { x with own := u, promote := true }
    else if x.owner ≠ 0 then { x with lost := true } else x
  if !x.promote ∧ u.isSome ∧ !x.diverged then { x with und := u } else x

/-- The candidate that comes first by a key of three numbers. -/
def argmin (key : Nat → Nat × Nat × Nat) (ms : List Nat) : Option Nat :=
  ms.foldl (fun best m => match best with
    | none => some m
    | some b =>
      let x := key m
      let y := key b
      if x.1 < y.1 ∨ (x.1 = y.1 ∧ (x.2.1 < y.2.1 ∨ (x.2.1 = y.2.1 ∧ x.2.2 < y.2.2))) then some m else some b) none

def torusGroup (p : Plan) (n : Nat) : BitVec 10 := ((p.torus[n]?).map (·.1)).getD 0

/-- Owners of new or lost shards. -/
def placeOwner (live : List Nat) (a : List PlaceShard × List Nat) (x : PlaceShard) : List PlaceShard × List Nat :=
  if x.own.isSome then (a.1 ++ [x], a.2)
  else
    let o := argmin (fun m => (a.2.getD m 0, 0, m)) live
    (a.1 ++ [{ x with own := o }], addLoad a.2 o (loadOf x))

/-- Understudies of shards without one. A shard with no candidate stays without. -/
def placeUnder (s : State) (p : Plan) (live : List Nat) (a : List PlaceShard × List Nat) (x : PlaceShard) : List PlaceShard × List Nat :=
  match x.own with
  | none => (a.1 ++ [x], a.2)
  | some o =>
    if x.und.isSome ∨ x.nostate then (a.1 ++ [x], a.2)
    else
      let hops := bfs p (liveModule s p) o
      let far := live.filter (fun m => decide (m ≠ o) && decide (torusGroup p m ≠ torusGroup p o))
      let any := live.filter (fun m => decide (m ≠ o))
      let cands := (if far.isEmpty then any else far).filter (fun m => !(x.diverged && decide (((p.torus[m]?).map (·.2)) = some x.ustudy)))
      let u := argmin (fun m => (a.2.getD m 0, (hops.getD m none).getD 512, m)) cands
      (a.1 ++ [{ x with und := u }], addLoad a.2 u (loadOf x))

/-- The assignment in the sort order of R311, and the loads. -/
def assignShards (s : State) (p : Plan) (req : List PlaceShard) : List PlaceShard × List Nat :=
  let live := (List.range (nmod p)).filter (liveModule s p)
  let sorted := sortBy (fun a b => decide (a.len > b.len) || (decide (a.len = b.len) && decide (a.hid.toNat ≤ b.hid.toNat))) req
  let kept := sorted.map (keepShard s p)
  let load := kept.foldl (fun l x => addLoad (addLoad l x.own (loadOf x)) x.und (loadOf x)) (List.replicate (nmod p) 0)
  let owned := kept.foldl (placeOwner live) ([], load)
  owned.1.foldl (placeUnder s p live) ([], owned.2)

/-! ### Routes of other modules (R312) -/

/-- Role and port of module m's STATIC step toward module d, by hop counts from d. -/
def stepToward (s : State) (p : Plan) (hops : Array (Option Nat)) (m d : Nat) : Option (Nat × Nat) :=
  match hops.getD m none with
  | none => none
  | some k =>
    if m = d then none
    else ((planDirs p).find? (fun r =>
      let x := neighbour p m r
      liveModule s p x && (match hops.getD x none with
        | some j => decide (j + 1 = k)
        | none => false))).bind (fun r => (dirGroup p.rolemap r).map (fun g => (r, g.1 + d % g.2)))

/-- Port that faces port q of direction r at the neighbour: the opposite direction, the same offset (R301, R313). -/
def facing (p : Plan) (r q : Nat) : Nat := match dirGroup p.rolemap r, dirGroup p.rolemap (oppositeDir r) with
  | some a, some b => b.1 + (q - a.1)
  | _, _ => 0

/-! ### Trees (R313) -/

def companyOf (cs : List PlaceCompany) (n : Nat) : Option PlaceCompany := cs.find? (fun c => decide (c.company = n))
def memberOf (c : Option PlaceCompany) (n : Nat) : Bool := (c.map (fun c => c.modules.testBit n)).getD false

/-- Modules on the way from m to the root. -/
def pathUp (s : State) (p : Plan) (hops : Array (Option Nat)) (root : Nat) : Nat → Nat → List Nat
  | 0, m => [m]
  | k + 1, m => match stepToward s p hops m root with
    | some (r, _) => m :: pathUp s p hops root k (neighbour p m r)
    | none => [m]

/-- Home slots of the admitted member accelerators of this module. -/
def homeSlots (s : State) (c : Option PlaceCompany) : Nat :=
  (List.range 16).foldl (fun v a =>
    if (c.map (fun c => c.amask.testBit a)).getD false then
      if hopOpen s (Fin.ofNat 64 (2 * a)) then v + 2 ^ (2 * a)
      else if hopOpen s (Fin.ofNat 64 (2 * a + 1)) then v + 2 ^ (2 * a + 1) else v
    else v) 0

/-- OWNER, UNDERSTUDY and LOST of a shard as module n holds it (R314). -/
def heldFlags (n : Nat) (x : PlaceShard) : Byte :=
  (if x.own = some n ∧ !x.nostate then 2 else 0) ||| (if x.und = some n then 4 else 0) ||| (if x.lost then 8 else 0)

/-- The row of this module in the reduction tree of a head; none where it takes no part. -/
def treeRow (s : State) (p : Plan) (cs : List PlaceCompany) (n : Nat) (x : PlaceShard) : Option PlaceRow :=
  match x.own with
  | none => none
  | some root =>
    let hops := bfs p (liveModule s p) root
    let co := companyOf cs x.company
    let members := (List.range (nmod p)).filter (fun m => liveModule s p m && memberOf co m && (hops.getD m none).isSome)
    let parts := members.foldl (fun l m => (pathUp s p hops root 512 m).foldl (fun l y => if l.contains y then l else l ++ [y]) l) []
    if !parts.contains n ∧ n ≠ root then none
    else
      let kids := (parts.filter (fun m => decide (m ≠ n))).filterMap (fun m => (stepToward s p hops m root).bind (fun st =>
        if neighbour p m st.1 = n then some (facing p st.1 st.2) else none))
      let leads := kids.foldl (fun v k => if v.testBit k then v else v + 2 ^ k) 0
      let home := if memberOf co n then homeSlots s co else 0
      let up := stepToward s p hops n root
      some { hid := x.hid
             flags := (if n = root then 1 else 0) ||| heldFlags n x
             parent := BitVec.ofNat 8 ((up.map (·.2)).getD 0), pslot := BitVec.ofNat 8 ((up.map (fun st => facing p st.1 st.2)).getD 0)
             expected := BitVec.ofNat 64 (leads ||| home), leads := BitVec.ofNat 64 leads }

/-- The row of an understudy: a root that expects the owner's sum in USLOT (R152). -/
def mirrorRow (x : PlaceShard) (uslot : Nat) : PlaceRow :=
  { hid := x.hid, flags := BitVec.ofNat 8 (1 + 4 + (if x.lost then 8 else 0)), parent := 0, pslot := 0
    expected := BitVec.ofNat 64 (2 ^ uslot), leads := BitVec.ofNat 64 (2 ^ uslot) }

/-- The plane of an upper head: the first from HID mod 4 on whose spine modules are all live. -/
def upperPlane (s : State) (p : Plan) (hid : BitVec 16) : Option Nat :=
  ((List.range 4).map (fun i => (hid.toNat + i) % 4)).find? (fun k =>
    let mods := p.spine.filter (fun e => decide (e.2.1 = k))
    !mods.isEmpty && mods.all (fun e => s.topo.live.contains e.2.2.2))

/-- The row of this module in the tree of an upper head (R313); none where it takes no part. -/
def upperRow (s : State) (p : Plan) (cs : List PlaceCompany) (plane : Nat) (x : PlaceShard) : Option PlaceRow :=
  let co := companyOf cs x.company
  let members := (List.range (nmod p)).filter (fun m => liveModule s p m && memberOf co m)
  match ownNumber s with
  | some n =>
    if !(members.contains n || decide (x.own = some n) || decide (x.und = some n)) then none
    else some { hid := x.hid, flags := 0x10 ||| heldFlags n x, parent := BitVec.ofNat 8 (56 + 2 * plane), pslot := BitVec.ofNat 8 (2 * (n % 16)), expected := 0, leads := 0 }
  | none => match ownSpine s with
    | none => none
    | some (k, tier, i) =>
      let below : List Nat :=
        if tier = 1 then (members.filter (fun m => decide (m / 16 = i))).map (· % 16)
        else if tier = 2 then ((members.filter (fun m => decide (4 * (m / 16 / 16) = i))).map (fun m => m / 16 % 16))
        else if i = 0 then members.map (fun m => 2 * (4 * (m / 16 / 16))) else []
      if k ≠ plane ∨ below.isEmpty then none
      else
        let slots := below.foldl (fun v d => if v.testBit (2 * d) then v else v + 2 ^ (2 * d)) 0
        let root := decide (tier = (if tier3 (nmod p) = 0 then 2 else 3))
        let pslot := if tier = 1 then 2 * (i % 16) else 4 * i
        some { hid := x.hid, flags := (if root then 1 else 0) ||| (if x.lost then 8 else 0), parent := if root then 0 else 32, pslot := if root then 0 else BitVec.ofNat 8 pslot
               expected := BitVec.ofNat 64 slots, leads := BitVec.ofNat 64 slots }

/-! ### The time tree (R313, R101) -/

/-- This machine seen as the module with another serial. -/
def asSerial (s : State) (x : BitVec 48) : State := { s with fuses := { s.fuses with serial := x } }

/-- Planned links of a module to live modules: port and serial at the other end. -/
def plannedLinks (s : State) (x : BitVec 48) : List (Nat × BitVec 48) :=
  (List.finRange 64).filterMap (fun q => (expectModule (asSerial s x) q).bind (fun e =>
    if s.topo.live.contains e.serial then some (q.val, e.serial) else none))

/-- GROUP of a module of the plan. -/
def groupOf (p : Plan) (x : BitVec 48) : BitVec 10 :=
  ((p.torus.find? (fun e => decide (e.2 = x))).map (·.1)).getD (((p.spine.find? (fun e => decide (e.2.2.2 = x))).map (fun e => e.2.2.1)).getD 0)

/-- DEPTH of each rack, by levels from the root rack (DESIGN CHOICE, log 48). -/
def rackDepths (s : State) (p : Plan) : List (BitVec 10 × Nat) :=
  let mods := (planSerials p).filter (fun x => s.topo.live.contains x)
  let edges := mods.flatMap (fun x => (plannedLinks s x).map (fun l => (groupOf p x, groupOf p l.2)))
  match (p.torus.find? (fun e => s.topo.live.contains e.2)) with
  | none => []
  | some r =>
    (List.range mods.length).foldl (fun (known : List (BitVec 10 × Nat)) k =>
      let front := (known.filter (fun x => decide (x.2 = k))).map (·.1)
      edges.foldl (fun known e =>
        if front.contains e.1 ∧ !known.any (fun x => decide (x.1 = e.2)) then known ++ [(e.2, k + 1)] else known) known) [(r.1, 0)]

/-- The value for STG_CTRL of this module; DEPTH is free where no rack path reaches it (DESIGN CHOICE, log 48). -/
def timeTree (s : State) (p : Plan) : W64 :=
  let depths := rackDepths s p
  let depth (g : BitVec 10) : Option Nat := (depths.find? (fun x => decide (x.1 = g))).map (·.2)
  let me := s.fuses.serial
  let g := groupOf p me
  match depth g with
  | none => put g.toNat 10 16 ||| put (freeNow s).toNat 4 8
  | some 0 => put g.toNat 10 16 ||| putB true 7
  | some (d + 1) =>
    let reach (x : BitVec 48) : List (Nat × BitVec 48) := (plannedLinks s x).filter (fun l => decide (depth (groupOf p l.2) = some d))
    let lead := (planSerials p).find? (fun x => s.topo.live.contains x && decide (groupOf p x = g) && !(reach x).isEmpty)
    let base := put g.toNat 10 16 ||| put (d + 1) 4 8
    if lead = some me then base ||| putB true 6 ||| put (((reach me).head?.map (·.1)).getD 0) 6 0 else base

/-! ### PLACE -/

/-- Do records that this module has to create fit: a FREE record and room for each (R137, R311)? Gives the state with them. -/
def placeRecord (n : Nat) (x : PlaceShard) (s : State) : Option State :=
  let mine := decide (x.own = some n)
  let mirror := decide (x.und = some n)
  if x.nostate ∨ (!mine ∧ !mirror) then some s
  else
    let have' := findShard s x.hid
    let s := match have' with
      | some i => if mine ∧ x.lost then removeShard x.hid i s else s
      | none => s
    if (findShard s x.hid).isSome then
      some (if mine ∧ x.promote ∧ ((shardOf s x.hid).map (·.role)).getD 0 = roleUnderstudy then promoteShard x.hid s else s)
    else match freeRecord s, findRoom s x.len with
      | some i, some base => some (createShard i base x.hid (if mine then roleOwner else roleSeeding) x.len 0 0 0 s)
      | _, _ => none

/-- The records of a list of shards, one after the other. -/
def placeList (n : Nat) : List PlaceShard → State → Option State
  | [], s => some s
  | x :: r, s => match placeRecord n x s with
    | none => none
    | some t => placeList n r t

/-- PARTNER, UPORT and USLOT of a shard held here, and the start of seeding by its owner (R154, R155, R312). -/
def linkShard (n : Nat) (p : Plan) (x : PlaceShard) (s : State) : State :=
  match x.own with
  | none => s
  | some o =>
    let serialOf (m : Nat) : BitVec 48 := ((p.torus[m]?).map (·.2)).getD 0
    let port (a b : Nat) : Nat := ((stepToward s p (bfs p (liveModule s p) b) a b).map (·.2)).getD 0
    if x.nostate then s
    else if o = n then match x.und with
      | none => modShard x.hid (fun r => { r with partner := 0, uport := 0, uslot := 0, seedout := false }) (dropSeed x.hid s)
      | some u =>
        let new := decide (serialOf u ≠ x.ustudy) || x.lost || decide (x.owner = 0)
        let s := modShard x.hid (fun r => { r with
          partner := serialOf u, uport := port n u, uslot := port u n, seedout := r.seedout || new, diverged := r.diverged && !new }) s
        if new then
          let s := dropSeed x.hid s
          { s with grm := { s.grm with seedQueue := s.grm.seedQueue ++ [{ hid := x.hid }] } }
        else s
    else if x.und = some n then
      let new := decide (serialOf n ≠ x.ustudy) || x.lost || decide (x.owner = 0)
      modShard x.hid (fun r => { r with
        role := if new then roleSeeding else r.role, partner := serialOf o, uport := port n o, uslot := port n o }) s
    else s

/-- Rows of this module, one for a head (R314). A module of the reduction tree that is also the head's understudy has its row of the tree,
with UNDERSTUDY set (DESIGN CHOICE, log 85). -/
def placeRows (s : State) (p : Plan) (cs : List PlaceCompany) (xs : List PlaceShard) : List PlaceRow :=
  xs.flatMap (fun x =>
    if x.upper then ((upperPlane s p x.hid).bind (fun k => upperRow s p cs k x)).toList
    else match ownNumber s with
      | none => []
      | some n =>
        match treeRow s p cs n x with
        | some row => [row]
        | none =>
          if x.und = some n then match x.own with
            | some o => [mirrorRow x (((stepToward s p (bfs p (liveModule s p) o) n o).map (·.2)).getD 0)]
            | none => []
          else [])

/-- PLACE_DIGEST over the entries in the sort order; their encoding is open (DESIGN CHOICE, log 49). -/
def placeDigest (xs : List PlaceShard) : List Byte := sha3 (xs.flatMap (fun x => Config.placeEntry x.hid x.own x.und x.lost))

/-- Write and link the records that a placement gives this module; none where the shard table has no room for them. -/
def placeRecords (s : State) (p : Plan) (shards : List PlaceShard) : Option State := match ownNumber s with
  | none => some s
  | some n => (placeList n shards s).map (fun t => shards.foldl (fun t x => linkShard n p x t) t)

/-- The companies and shards of a request in the PLACE window (R310). -/
def placeCompanies (s : State) (nc : Nat) : List PlaceCompany :=
  (List.range nc).map (fun i => readPlaceCompany (memRead s.dram (placeWindow + 72 * i) 72))
def placeShards (s : State) (nc ns : Nat) : List PlaceShard :=
  (List.range ns).map (fun i => readPlaceShard (memRead s.dram (placeWindow + 72 * nc + 32 * i) 32))

/-- A request with a plan is placed, or refused (R311 to R314). -/
def placeRequest (id nc ns : Nat) (p : Plan) (s : State) : State :=
  let req := placeShards s nc ns
  let a := assignShards s p req
  if a.2.any (fun l => decide (l > 40000000000)) then endCmd id stFull [] s
  else if req.any (fun x => x.upper && (upperPlane s p x.hid).isNone) then endCmd id stNoSpine [] s
  else
    match placeRecords s p a.1 with
    | none => endCmd id stFull [] s
    | some t =>
      let rows := placeRows t p (placeCompanies s nc) a.1
      let digest := placeDigest a.1
      let t := { t with topo := { t.topo with rows := rows, placed := true, stgCtrl := timeTree t p, placeDigest := digest } }
      endCmd id stOk (leBytes 4 rows.length ++ zeros 4 ++ digest) (drawn (writeRoutes t))

/-- PLACE: placement is computed and takes effect, or is refused (R310 to R314, R341). -/
def execPlace (m : MemCmd) (s : State) : Host.Outcome State Fault Refusal :=
  match cmdReady s m.id 0x0022 with
  | none => .next s
  | some c =>
    let nc := arg c 0 2
    let ns := arg c 2 4
    if s.cue.run.isSome then .next (endCmd m.id stBusy [] s)
    else if 72 * nc + 32 * ns > 133169152 then .next (endCmd m.id stRange [] s)
    else match s.topo.plan with
      | none => .next (endOpen m.id s)
      | some p => readThen m 0x0022 placeWindow (72 * nc + 32 * ns) s (fun s =>
        readThen m 0x0022 shardTable tableBytes s (fun s => .next (placeRequest m.id nc ns p s)))

end Sys2Proof.Machine
end

