-- ==== Sys2Proof/Machine/Wardrobe.lean ====
section
/-! DEFINITION. The Wardrobe's work: the casts of segments, CONVERT, and the stage, send and out stages of a PROJECT's bands, in
sheet order (02_number_formats.md R46 to R60; 04 R114, R115; 05 R147, R148, R152; 06 R165 to R171; 12 R318). -/

namespace Sys2Proof.Machine

/-! ### Words of working space that fail their check (R59) -/

/-- The 64-bit words that failed, counted from the first byte of the source. -/
def badWords : HarnErr → List Nat
  | .words ws => ws
  | _ => []

/-- Does element i of a source of elements of a width lie in one of these words? -/
def inBad (width : Nat) (bad : List Nat) (i : Nat) : Bool :=
  bad.any (fun k => decide (64 * k < width * (i + 1)) && decide (width * i < 64 * (k + 1)))

/-- Values with those of failed words void. -/
def spoilVals (width : Nat) (bad : List Nat) (vs : List Val) : List Val :=
  vs.zipIdx.map (fun v => if inBad width bad v.2 then none else v.1)

/-- W codes as cast sources. -/
def wVals (ws : List (BitVec 32)) (bad : List Nat) : List Val := spoilVals 32 bad (ws.map (fun w => decodeVal .z32 w.toNat))

/-- What the check of a working-space source reports (R59, R92). -/
def wordError (err : HarnErr) (s : State) : State := match err with
  | .words _ => raise { src := srcArenaUncorr, sticky := s.wdr.sticky } s
  | .corrected => raise { src := srcArenaCorr } s
  | _ => s

/-! ### Casts of segments -/

/-- What CAST_ISSUE casts: the fired sums of a REDUCE, the stored W of a segment that is done already (R318), or the W of a job. -/
inductive CastSrc where
  | sums | stored
  | job (bcast : Bool)
  deriving DecidableEq, Repr

/-- A cast that may be issued for a segment, with the instance it serves. -/
structure CastWork where
  step : Nat
  cue  : Nat
  src  : CastSrc
  deriving DecidableEq, Repr

/-- The cast of a reducing cue that a segment waits for; a SEEDING record casts nothing (Table Groom-9). -/
def ownCast (s : State) (sh : SheetHead) (h g : Nat) : List CastWork :=
  match firedSlot s h g, reducerWord s h with
  | some x, some (c, w) =>
    if !sh.root ∨ !permitted s x.step c ∨ (cKind w = cReduceUpdate ∧ shardRole s sh.hid = roleSeeding) then []
    else match jobOf s h g x.step with
      | some j => if j.wReady ∧ !j.cast then [⟨x.step, c, .job false⟩] else []
      | none =>
        if cKind w = cReduce then [⟨x.step, c, .sums⟩]
        else if cKind w = cReduceUpdate ∧ resumeDone s sh.hid x.step g ∧ (shardOf s sh.hid).isSome then [⟨x.step, c, .stored⟩]
        else []
  | _, _ => []

/-- The cast of a BROADCAST that a segment waits for. -/
def broadcastCast (s : State) (h g : Nat) : List CastWork :=
  ((s.harn.jobs.find? (fun j => decide (j.head = h) && decide (j.seg = g) && j.bcast && !j.cast)).map
    (fun j => CastWork.mk j.step j.cue (.job true))).toList

/-- Casts that may be issued for a segment now; at an understudy with room in the compare buffer (R152). -/
def castWorks (s : State) (h g : Nat) : List CastWork := match sheetHead s h with
  | none => []
  | some sh =>
    if unitHeld s unitWardrobe then []
    else (ownCast s sh h g ++ broadcastCast s h g).filter (fun k =>
      !(decide (shardRole s sh.hid = roleUnderstudy) && !compareRoom s (compareSize (castDst s k.cue) (segLen sh g))))

/-! ### CONVERT (R60) -/

/-- Is a MOVE of the same step, launched before this instance, unfinished (R60)? -/
def movePending (s : State) (n c : Nat) : Bool :=
  (launchedInsts s).any (fun x => decide (x.1 = n) && decide (cKind x.2.2.2 = cMove) && !x.2.2.1.finished && before s x.1 x.2.1 n c)

/-- A CONVERT that may start, with its target format. -/
def convertDue (s : State) (n c : Nat) : Option (CueWord × SFmt) := match running s n c cConvert with
  | some (i, w) =>
    if i.started ∨ movePending s n c ∨ unitHeld s unitWardrobe then none else (fmtOf (cConv w).dst).map (fun f => (w, f))
  | none => none

/-- Bits of an element of a CONVERT source: a code, or a container of Table Harness-3. -/
def srcWidth (src : Nat) : Nat := match src with
  | 8 => 32 | 9 => 64 | 10 => 64 | 11 => 96 | 6 => 64
  | _ => ((fmtOf src).map fmtWidth).getD 0

/-- Has a source one scale byte for each block (R60)? -/
def srcScaled (src : Nat) : Bool := decide (src < 3) || (decide (8 ≤ src) && decide (src ≤ 10))

/-- Offset of the scale bytes of a source or result of n elements: the next 64-byte boundary after them. -/
def scalesFrom (width n : Nat) : Nat := ((width * n + 7) / 8 + 63) / 64 * 64

/-- Values of block b of a CONVERT source; the elements of a failed word are void, and so is a block whose scale byte lies in one
(R37, R59, R60) (DESIGN CHOICE, log 75). -/
def convVals (s : State) (w : CueWord) (bad : List Nat) (b : Nat) : List Val :=
  let src := (cConv w).src
  let width := srcWidth src
  let at_ := scalesFrom width (64 * cBlocks w) + b
  let sb := memByte s.ws (cSrcOff w + at_)
  let e := if srcScaled src then scaleExp sb else 0
  let gone := srcScaled src && (sb.getLsbD 7 || bad.contains (at_ / 8))
  let codes := match fmtOf src with
    | some f => unpackCodes f 64 (memRead s.ws (cSrcOff w + codeBytes f (64 * b)) (codeBytes f 64))
    | none => []
  (List.range 64).map (fun i =>
    let k := 64 * b + i
    if gone || inBad width bad k then none
    else if src = 6 ∨ 8 ≤ src then accVal src (memLe s.ws (cSrcOff w + width / 8 * k) (width / 8)) e
    else match fmtOf src with
      | some f => scaleVal (decodeVal f (codes.getD i 0)) e
      | none => none)

/-- Rounding site of a CONVERT. -/
def convSite : Byte := 0x02

/-- Block b of a CONVERT cue: it is read from the state the cue started in, converted, and its codes and scale written (R60). -/
def convertGroup (step cue : Nat) (w : CueWord) (f : SFmt) (seed : W64) (bad : List Nat) (s : State) (b : Nat) (t : State) : State :=
  let c := cConv w
  let o := convertBlock c (convVals s w bad b) 64 (scaleExp (setByte s (cCastset w) b))
    (memByte s.ws (cSrcOff w + scalesFrom (srcWidth c.src) (64 * cBlocks w) + b))
    (fun k => srDraw seed (BitVec.ofNat 64 step) (BitVec.ofNat 16 cue) convSite (BitVec.ofNat 32 (64 * b + k)))
  let t := noteFlags step cue o.flags (noteCast ⟨[], [], [], o.flags, o.ovf, o.voids, 64⟩ t)
  let t := { t with ws := memWrite t.ws (cDstOff w + codeBytes f (64 * b)) (packCodes f o.codes) }
  if blockScaled f then { t with ws := memWrite t.ws (cDstOff w + scalesFrom (fmtWidth f) (64 * cBlocks w) + b) [o.scale] } else t

/-! ### The Wardrobe's stages of a band (R166 to R171) -/

/-- May a formed segment of a band be staged: under RANK 0b00 the upper head's step is open and its scale entry held (R168, R170)? -/
def mayStage (s : State) (b : Band) (g : Nat) : Bool := match cueWord s b.cue with
  | some w => !unitHeld s unitWardrobe && permitted s b.step b.cue && b.formed.any (fun y => decide (y.1 = g)) && !b.staged.contains g &&
      (decide (cRank w ≠ 0) || (upperOpen s w b.step).any (fun u => (windowEntry u.2.2 g).isSome))
  | none => false

/-- Chunks of the contribution of segment g to the upper head (R86). -/
def upperChunks (sh : SheetHead) (g : Nat) : Nat :=
  (16 + (if headScaled sh then 4 else 0) + (((fmtOf sh.fmt.toNat).map (fun f => codeBytes f (segLen sh g))).getD 0) + 255) / 256

/-- Cast blocks of the upper head's segment g that stand in the bands of (head, step), in order; none while one is missing. -/
def castBlocks (s : State) (h n g len : Nat) : Option (List (List (BitVec 32) × Byte)) :=
  let all := (s.prj.bands.filter (fun b => decide (b.head = h) && decide (b.step = n))).flatMap (·.pCast)
  (List.range ((min 256 (len - 256 * g) + 63) / 64)).foldr (fun j acc => match all.find? (fun x => decide (x.1 = 4 * g + j)), acc with
    | some x, some r => some (x.2 :: r)
    | _, _ => none) (some [])

/-- First block of the upper head that a band holds in P, and how many. -/
def bandBlocks (w : CueWord) (len k : Nat) : Nat × Nat :=
  let rows := bandRows w len k
  (rows.1 * (cRank w / 64), rows.2 * (cRank w / 64))

/-- Blocks of P of a band, not yet cast, whose scale in force is held: those of one segment of the upper head. -/
def dueBlocks (w : CueWord) (len : Nat) (uhd : Head) (b : Band) (g : Nat) : List Nat :=
  let x := bandBlocks w len b.band
  if (windowEntry uhd g).isNone then []
  else ((List.range 4).map (4 * g + ·)).filter (fun j =>
    decide (x.1 ≤ j) && decide (j < x.1 + x.2) && !b.pCast.any (fun y => decide (y.1 = j)))

/-- Segments of the upper head that a band's P lies in. -/
def upperSegs (w : CueWord) (len k : Nat) : List Nat :=
  let x := bandBlocks w len k
  (List.range ((x.1 + x.2 + 3) / 4 - x.1 / 4)).map (x.1 / 4 + ·)

/-- May a band send something: its upper head's step open, blocks with a scale in force, and chunks free in intake (R86, R168)? -/
def maySend (s : State) (b : Band) : Bool := match bandWord s b with
  | none => false
  | some (sh, w) => decide (b.st = .send) && !unitHeld s unitWardrobe && permitted s b.step b.cue &&
      (match upperOpen s w b.step with
        | none => false
        | some (_, ush, uhd) =>
          if cRank w = 0 then (castBlocks s b.head b.step b.band ush.len).isSome && chunkRoom s (upperChunks ush b.band)
          else (upperSegs w sh.len b.band).any (fun g => !(dueBlocks w sh.len uhd b g).isEmpty && chunkRoom s (upperChunks ush g)))

/-- Values that stage 8 casts for a segment: Ĝ, or S widened; none while S has not arrived. -/
def outVals (s : State) (w : CueWord) (b : Band) (g : Nat) : Option (List Val) :=
  if cRank w = 0 then match upperSeg s w b.step g with
    | none => none
    | some u => some (u.codes.zipIdx.map (fun c => match fmtOf u.fmt.toNat with
        | none => none
        | some f => if blockScaled f then blockVal f u.codes (u.scales.getD (c.2 / 64) 0x80) c.2 else decodeVal f c.1.toNat))
  else (b.ghat.find? (fun x => decide (x.1 = g))).map (fun x => x.2.map zVal)

/-- Segments of a band. -/
def segsIn (w : CueWord) (len k : Nat) : List Nat := (List.range (bandSegs w len k).2).map ((bandSegs w len k).1 + ·)

/-- May a restored band be cast (R165)? -/
def mayOut (s : State) (b : Band) : Bool := match bandWord s b with
  | some (sh, w) => decide (b.st = .out) && !unitHeld s unitWardrobe && permitted s b.step b.cue &&
      (segsIn w sh.len b.band).all (fun g => (outVals s w b g).isSome)
  | none => false

/-! ### Sheet order (R114, R115) -/

/-- The instances that could use the Wardrobe now. -/
def wardrobeReady (s : State) : List (Nat × Nat) :=
  (s.harn.slots.map (fun x => (x.head, x.seg)) ++ s.harn.jobs.map (fun j => (j.head, j.seg))).flatMap
      (fun k => (castWorks s k.1 k.2).map (fun c => (c.step, c.cue))) ++
  (launchedInsts s).filterMap (fun i => (convertDue s i.1 i.2.1).map (fun _ => (i.1, i.2.1))) ++
  (s.prj.bands.filter (fun b => b.formed.any (fun y => mayStage s b y.1) || maySend s b || mayOut s b)).map (fun b => (b.step, b.cue))

/-- Does the Wardrobe serve this instance now? -/
def wardrobeTurn (s : State) (n c : Nat) : Bool := sheetFirst s n c (wardrobeReady s)

/-! ### CAST_ISSUE and CONVERT -/

/-- Put a cast into a job. -/
def withCast (j : Job) (r : CastOut × List Byte × State) : Job :=
  { j with cast := true, codes := r.1.codes, dscale := r.1.dscale, nscale := r.2.1 }

/-- The next scale bytes of a BROADCAST: the scales in force, unchanged (R148). -/
def forceBytes (s : State) (h seg : Nat) (sh : SheetHead) : List Byte := match s.harn.heads[h]? with
  | some hd =>
    if headScaled sh then
      let v := (windowEntry hd seg).getD (readScales s sh hd seg)
      (List.range ((segLen sh seg + 63) / 64)).map (fun b => scaleByte false false (entryExp v b))
    else []
  | none => []

/-- Cast the reducing job of a segment. `vs` are the values to cast. -/
def castJob (h g c : Nat) (w : CueWord) (sh : SheetHead) (x : Slot) (vs : List Val) (s : State) : State :=
  let r := castStage h x.step g c w sh x.scale x.blkovf vs s
  let s := snoop h g x.step 2 (modJob h g x.step false false (fun y => withCast y r) r.2.2)
  modSamples h g x.step (fun y => { y with ready := y.ready ++ [3] })
    (modSlot h g drainingNow s)

/-- The Wardrobe casts a segment of a BROADCAST; its void elements count (R148, R203). -/
def castBroadcast (sh : SheetHead) (h : Nat) (w : CueWord) (j : Job) (err : HarnErr) (s : State) : State :=
  let s := wordError err s
  let o := castFor s sh j.step j.seg w 0 (wVals j.w (badWords err))
  let nx := forceBytes s h j.seg sh
  let s := noteFirst j.step j.cue (noteFlags j.step j.cue o.flags (noteCast o s))
  let s := countHead j.step h 0 o.voids (o.flags.getLsbD 4) s
  modJob h j.seg j.step true false (fun y => { y with cast := true, codes := o.codes, dscale := o.dscale, nscale := nx }) s

/-- A cast of a reducing cue, from the sums of its slot or from W; `err` is what the check of the source reports (R59, R92, R133). -/
def castOwn (sh : SheetHead) (h : Nat) (w : CueWord) (k : CastWork) (x : Slot) (err : HarnErr) (s : State) : State :=
  let g := x.seg
  let new : Job := { head := h, seg := g, step := k.step, cue := k.cue, bcast := false, writesDone := true }
  match k.src with
  | .sums =>
    let s := slotError h g err s
    let x := (slotOf s h g).getD x
    castJob h g k.cue w sh x ((List.range x.seglen).map (slotVal x)) (addJob new s)
  | .stored => match shardOf s sh.hid with
    | none => s
    | some r =>
      let s := match err with
        | .dram errs => readErrors (stateAddr r (256 * g)) (8 * x.seglen) errs s
        | e => wordError e s
      let ws := (readWords s r (256 * g) x.seglen).map wordW
      castJob h g k.cue w sh x (wVals ws (badWords err)) (addJob { new with wReady := true, w := ws } s)
  | .job _ => match jobOf s h g k.step with
    | some j => castJob h g k.cue w sh x (wVals j.w (badWords err)) (wordError err s)
    | none => s

/-- CAST_ISSUE: the Wardrobe casts a segment: the fired sums of a REDUCE, the new or stored W of a REDUCE_UPDATE, or the W of a
BROADCAST, for the cue that is first in sheet order (R57, R114, R147, R148, R152, R318) (DESIGN CHOICE, log 11). -/
def execCastIssue (head : Fin 4096) (seg : BitVec 24) (err : HarnErr) (s : State) : Host.Outcome State Fault Refusal :=
  let h := head.val
  let g := seg.toNat
  match sheetHead s h, (castWorks s h g).find? (fun k => wardrobeTurn s k.step k.cue) with
  | some sh, some k => match cueWord s k.cue with
    | none => .next s
    | some w => match s.harn.jobs.find? (isJob h g k.step true false), slotOf s h g, k.src with
      | some j, _, .job true => .next (castBroadcast sh h w j err s)
      | _, some x, _ => .next (castOwn sh h w k x err s)
      | _, none, _ => .next s
  | _, _ => .next s

/-- CONVERT: the conversion runs over its range of working space, once it is first in sheet order (R60, R114). -/
def execConvert (step cue : Nat) (err : HarnErr) (s : State) : Host.Outcome State Fault Refusal :=
  match convertDue s step cue, s.cue.sheet with
  | some (w, f), some img =>
    if wardrobeTurn s step cue then
      let s := wordError err s
      let s := (List.range (cBlocks w)).foldl (fun t b => convertGroup step cue w f img.seed (badWords err) s b t) s
      .next (noteFirst step cue (modInst step cue (fun i => { i with started := true }) s))
    else .next s
  | _, _ => .next s

/-- CONVERT_DONE: the last result of a conversion is written. -/
def execConvertDone (step cue : Nat) (s : State) : Host.Outcome State Fault Refusal :=
  match running s step cue cConvert with
  | some (i, _) => if i.started then .next (settle (modInst step cue (fun i => { i with finished := true }) s)) else .next s
  | none => .next s

/-! ### Stage (R166, R170) -/

/-- A segment is staged; the band goes on with its last. -/
def markStaged (h n k g : Nat) (next : BandSt) (segs : Nat) (s : State) : State :=
  modBand h n k (fun b =>
    let b := { b with staged := b.staged ++ [g], formed := if next = .project then b.formed.filter (fun y => !decide (y.1 = g)) else b.formed }
    if b.staged.length = segs then { b with st := next } else b) s

/-- A cast for the projection path: its flags show in WDR_STICKY, in PRJ_STICKY and in the cue (R48, R176) (DESIGN CHOICE, log 71). -/
def prjCast (n c : Nat) (o : CastOut) (s : State) : State := noteFlags n c o.flags (prjFlags (o.flags.setWidth 8) (noteCast o s))

/-- Stage 2 under RANK 0b00: the cast of G' to the upper head's format (R170). -/
def stageDirect (h : Nat) (w : CueWord) (b : Band) (g : Nat) (ush : SheetHead) (sc : BitVec 24) (vs : List Val) (s : State) : State :=
  let outs := (inBlocks vs).map (fun y => (4 * g + y.1, upperCast s w ush b.step (4 * g + y.1) sc y.2))
  let s := outs.foldl (fun s o => prjCast b.step b.cue o.2 s) s
  let s := modBand h b.step b.band (fun b => { b with pCast := b.pCast ++ outs.map (fun o => (o.1, o.2.codes, o.2.dscale.getD 0 0)) }) s
  markStaged h b.step b.band g .send 1 s

/-- Stage 2: C, the cast of G' to Z8e, and e1 = G' − C in staging; a block scale at its limit is reported (R166, R203). -/
def stageBand (h : Nat) (sh : SheetHead) (w : CueWord) (b : Band) (g : Nat) (seed : W64) (zs : List (BitVec 48)) (vs : List Val)
    (s : State) : State :=
  let n := b.step
  let o := castSeg ⟨1, 6, 1, cPrnd w, false, 2⟩ vs (fun _ => 0)
    (fun i => srDraw seed (BitVec.ofNat 64 n) sh.hid 0x21 (BitVec.ofNat 32 (256 * g + i)))
  let blocks := (List.range o.dscale.length).map (fun j => (4 * g + j, (o.codes.drop (64 * j)).take 64, o.dscale.getD j 0))
  let es := (List.range zs.length).map (fun i =>
    let z := if (vs.getD i none).isNone then zVoid else zs.getD i 0
    toZ16 (zSub (zRead z) (zIn (blockVal .z8e (o.codes.drop (64 * (i / 64))) (o.dscale.getD (i / 64) 0) (i % 64)))))
  let fl := es.foldl (fun a e => a ||| e.2) 0
  let s := noteFlags n b.cue fl (prjFlags (fl.setWidth 8) (prjCast n b.cue o s))
  let s := modBand h n b.band (fun b => { b with
    cCodes := b.cCodes ++ blocks, e1 := b.e1 ++ [(g, es.map (fun e => BitVec.ofNat 16 e.1))] }) s
  let s := countHead n h 0 0 (o.flags.getLsbD 4) s
  markStaged h n b.band g .project (bandSegs w sh.len b.band).2 s

/-- BAND_STAGE: G' of a formed segment is cast to C with e1 kept in staging, or, with RANK 0b00, straight to the upper head's
format; the words of G' that fail their check are void (R59, R166, R170). -/
def execBandStage (head : Fin 4096) (seg : BitVec 24) (err : HarnErr) (s : State) : Host.Outcome State Fault Refusal :=
  let h := head.val
  let g := seg.toNat
  match projectSlot s h g, s.cue.sheet with
  | some (sh, x, c, w), some img => match findBand s h x.step (bandOf w g) with
    | none => .next s
    | some b =>
      if !mayStage s b g ∨ !wardrobeTurn s x.step c then .next s
      else
        let zs := ((b.formed.find? (fun y => decide (y.1 = g))).map (·.2)).getD []
        let vs := spoilVals 64 (badWords err) (zs.map zVal)
        let s := wordError err s
        let s := if cRank w = 0 then match upperOpen s w x.step with
            | some (_, ush, uhd) => stageDirect h w b g ush ((windowEntry uhd g).getD 0) vs s
            | none => s
          else stageBand h sh w b g img.seed zs vs s
        .next (releaseReady h g s)
  | _, _ => .next s

/-! ### Send (R168, R170) -/

/-- A contribution of member slot 64 to the upper head. -/
def upperContrib (sh : SheetHead) (n g : Nat) (blocks : List (List (BitVec 32) × Byte)) (src : BitVec 16) : Packet :=
  let codes := blocks.flatMap (fun b => b.1.map (·.toNat))
  let body := match fmtOf sh.fmt.toNat with
    | some f => packCodes f codes
    | none => []
  { kind := kContrib, vl := kindClass kContrib, dest := 0xFFFF, src := src
    bytes := segHeader sh.hid sh.fmt.toNat 64 (BitVec.ofNat 32 n) g codes.length ++ padTo 4 (blocks.map (·.2)) ++ body }

/-- P of a block of the upper head, from the rows of a band. -/
def blockOfP (w : CueWord) (b : Band) (blk : Nat) : Option (List (BitVec 48)) :=
  let per := cRank w / 64
  (b.p.find? (fun x => decide (x.1 = blk / per))).map (fun x => (x.2.drop (64 * (blk % per))).take 64)

/-- Send segment g of the upper head, where its blocks are cast. -/
def sendCastSeg (h n : Nat) (ush : SheetHead) (g : Nat) (s : State) : State := match castBlocks s h n g ush.len with
  | some bl => enter (upperContrib ush n g bl (srcAddr s)) .clean s
  | none => s

/-- Cast the due blocks of segment g of the upper head from P, and contribute the segment once all its blocks are cast; it waits for
chunks in the intake queue (R86, R168). Words of P are counted from the band's first. -/
def sendBlocks (h : Nat) (sh : SheetHead) (w : CueWord) (b : Band) (bad : List Nat) (s : State) (g : Nat) : State :=
  match upperOpen s w b.step with
  | none => s
  | some (_, ush, uhd) =>
    let due := dueBlocks w sh.len uhd b g
    if due.isEmpty ∨ !chunkRoom s (upperChunks ush g) then s
    else
      let first := (bandBlocks w sh.len b.band).1
      let outs := due.map (fun j => (j, upperCast s w ush b.step j ((windowEntry uhd g).getD 0)
        ((((blockOfP w b j).getD []).map zVal).zipIdx.map (fun v => if bad.contains (64 * (j - first) + v.2) then none else v.1))))
      let s := outs.foldl (fun s o => prjCast b.step b.cue o.2 s) s
      let s := modBand h b.step b.band (fun y => { y with
        pCast := y.pCast ++ outs.map (fun o => (o.1, o.2.codes, o.2.dscale.getD 0 0)) }) s
      sendCastSeg h b.step ush g s

/-- BAND_SEND: P of a band is cast under the upper head's scale in force, as far as its window and the intake queue allow, and
contributed as slot 64 (R168). With RANK 0b00 the cast of the band is contributed (R170) (DEDUCED, log 62). -/
def execBandSend (head : Fin 4096) (band : Nat) (err : HarnErr) (s : State) : Host.Outcome State Fault Refusal :=
  let h := head.val
  match bandIn s h band (fun b => b.st == .send) with
  | none => .next s
  | some b => match bandWord s b with
    | none => .next s
    | some (sh, w) =>
      if !maySend s b ∨ !wardrobeTurn s b.step b.cue then .next s
      else if cRank w = 0 then match upperOpen s w b.step with
        | some (_, ush, _) => .next (sendCastSeg h b.step ush band (modBand h b.step band (fun y => { y with st := .residual }) s))
        | none => .next s
      else
        let s := (upperSegs w sh.len band).foldl (sendBlocks h sh w b (badWords err)) (wordError err s)
        .next (modBand h b.step band (fun y =>
          if y.pCast.length = (bandBlocks w sh.len band).2 then { y with st := .local, p := [] } else y) s)

/-! ### Out (R165, R170, R171) -/

/-- Width of an element of stage 8's source: Ĝ in containers of 8 bytes, or codes of S. -/
def outWidth (s : State) (w : CueWord) (b : Band) (g : Nat) : Nat :=
  if cRank w = 0 then ((upperSeg s w b.step g).bind (fun u => (fmtOf u.fmt.toNat).map fmtWidth)).getD 64 else 64

/-- Stage 8 of a segment, the i-th of its band: its cast becomes a job for multicast and digest. -/
def outSeg (h : Nat) (sh : SheetHead) (w : CueWord) (b : Band) (bad : List Nat) (t : State) (g : Nat) : State :=
  let info := (b.info.find? (fun x => decide (x.1 = g))).map (·.2)
  let i := g - (bandSegs w sh.len b.band).1
  let words := (bad.filter (fun k => decide (256 * i ≤ k))).map (· - 256 * i)
  let vs := spoilVals (outWidth t w b g) words ((outVals t w b g).getD [])
  let o := castStage h b.step g b.cue w sh ((info.map (·.1)).getD 0) ((info.map (·.2)).getD 0) vs t
  let j : Job := { head := h, seg := g, step := b.step, cue := b.cue, bcast := false, band := true, writesDone := true }
  addJob (withCast j o) (prjFlags (o.1.flags.setWidth 8) o.2.2)

/-- BAND_OUT: the restored band is cast with the cue's CONV and goes to multicast and digest (R165, R170, R171). -/
def execBandOut (head : Fin 4096) (band : Nat) (err : HarnErr) (s : State) : Host.Outcome State Fault Refusal :=
  let h := head.val
  match bandIn s h band (fun b => b.st == .out) with
  | none => .next s
  | some b => match bandWord s b with
    | none => .next s
    | some (sh, w) =>
      if !mayOut s b ∨ !wardrobeTurn s b.step b.cue then .next s
      else
        let s := (segsIn w sh.len band).foldl (outSeg h sh w b (badWords err)) (wordError err s)
        .next (modBand h b.step band (fun y => { y with st := .done, ghat := [], info := [] }) s)

end Sys2Proof.Machine
end

