-- ==== Sys2Proof/Machine/Dispatch.lean ====
section
/-! DEFINITION. One arm per command: each calls its meaning. -/

namespace Sys2Proof.Machine

def exec (i : Instr) (s : State) : Host.Outcome State Fault Refusal :=
  match i with
  | .open_ d => Sys2Proof.Machine.execOpen d s
  | .auth d => Sys2Proof.Machine.execAuth d s
  | .lockoutExpiry => Sys2Proof.Machine.execLockoutExpiry s
  | .authTimeout sid => Sys2Proof.Machine.execAuthTimeout sid s
  | .close d => Sys2Proof.Machine.execClose d s
  | .keep d => Sys2Proof.Machine.execKeep d s
  | .sessionTimeout sid => Sys2Proof.Machine.execSessionTimeout sid s
  | .post d => Sys2Proof.Machine.execPost d s
  | .read d => Sys2Proof.Machine.execRead d s
  | .commandEnd id => Sys2Proof.Machine.execCommandEnd id s
  | .bulkW d => Sys2Proof.Machine.execBulkW d s
  | .bulkR d errs => Sys2Proof.Machine.execBulkR d errs s
  | .evack d => Sys2Proof.Machine.execEvack d s
  | .eventResend sid => Sys2Proof.Machine.execEventResend sid s
  | .info id => Sys2Proof.Machine.execInfo id s
  | .loadSheet id => Sys2Proof.Machine.execLoadSheet id s
  | .startRun id => Sys2Proof.Machine.execStartRun id s
  | .stop id => Sys2Proof.Machine.execStop id s
  | .stopRecovery id => Sys2Proof.Machine.execStopRecovery id s
  | .drainEnd => Sys2Proof.Machine.execDrainEnd s
  | .readmit id => Sys2Proof.Machine.execReadmit id s
  | .progress id => Sys2Proof.Machine.execProgress id s
  | .pbAck id => Sys2Proof.Machine.execPbAck id s
  | .loadPlan id => Sys2Proof.Machine.execLoadPlan id s
  | .setLive id => Sys2Proof.Machine.execSetLive id s
  | .place id => Sys2Proof.Machine.execPlace id s
  | .admitLink id => Sys2Proof.Machine.execAdmitLink id s
  | .admitWithdraw id => Sys2Proof.Machine.execAdmitWithdraw id s
  | .shardCreate id => Sys2Proof.Machine.execShardCreate id s
  | .zeroFillDone rec => Sys2Proof.Machine.execZeroFillDone rec s
  | .shardRemove id => Sys2Proof.Machine.execShardRemove id s
  | .promote id => Sys2Proof.Machine.execPromote id s
  | .regRead id => Sys2Proof.Machine.execRegRead id s
  | .regWrite id => Sys2Proof.Machine.execRegWrite id s
  | .registerWrite who offset v => Sys2Proof.Machine.execRegisterWrite who offset v s
  | .enroll id => Sys2Proof.Machine.execEnroll id s
  | .revoke id => Sys2Proof.Machine.execRevoke id s
  | .operatorTableErase => Sys2Proof.Machine.execOperatorTableErase s
  | .ident id => Sys2Proof.Machine.execIdent id s
  | .attest id => Sys2Proof.Machine.execAttest id s
  | .endorse id flashOk => Sys2Proof.Machine.execEndorse id flashOk s
  | .fwStage id flashOk ctlOk => Sys2Proof.Machine.execFwStage id flashOk ctlOk s
  | .fwActivate id => Sys2Proof.Machine.execFwActivate id s
  | .fwCommit id flashOk => Sys2Proof.Machine.execFwCommit id flashOk s
  | .fwStatus id => Sys2Proof.Machine.execFwStatus id s
  | .keyRevoke id => Sys2Proof.Machine.execKeyRevoke id s
  | .leaveInfo id => Sys2Proof.Machine.execLeaveInfo id s
  | .boxLast id => Sys2Proof.Machine.execBoxLast id s
  | .boxCopy id => Sys2Proof.Machine.execBoxCopy id s
  | .faultInfo id => Sys2Proof.Machine.execFaultInfo id s
  | .faultReact id => Sys2Proof.Machine.execFaultReact id s
  | .faultInject id => Sys2Proof.Machine.execFaultInject id s
  | .epochArm who v => Sys2Proof.Machine.execEpochArm who v s
  | .swCold who v => Sys2Proof.Machine.execSwCold who v s
  | .swWarm who v => Sys2Proof.Machine.execSwWarm who v s
  | .softwareResetEnd src => Sys2Proof.Machine.execSoftwareResetEnd src s
  | .rstBlock who v => Sys2Proof.Machine.execRstBlock who v s
  | .stateAudit who v => Sys2Proof.Machine.execStateAudit who v s
  | .auditDone errs => Sys2Proof.Machine.execAuditDone errs s
  | .beat who v => Sys2Proof.Machine.execBeat who v s
  | .fatal who v => Sys2Proof.Machine.execFatal who v s
  | .nmiAck who v => Sys2Proof.Machine.execNmiAck who v s
  | .fltSrcCtrl who v => Sys2Proof.Machine.execFltSrcCtrl who v s
  | .schedShaper who v => Sys2Proof.Machine.execSchedShaper who v s
  | .schedPolicer who v => Sys2Proof.Machine.execSchedPolicer who v s
  | .swcCredit who high v => Sys2Proof.Machine.execSwcCredit who high v s
  | .localRes who v => Sys2Proof.Machine.execLocalRes who v s
  | .swcRtStatic who v => Sys2Proof.Machine.execSwcRtStatic who v s
  | .swcRtSpray who v => Sys2Proof.Machine.execSwcRtSpray who v s
  | .leaveCtrl who v => Sys2Proof.Machine.execLeaveCtrl who v s
  | .lanePortCtrl who v => Sys2Proof.Machine.execLanePortCtrl who v s
  | .outrCtrl who v => Sys2Proof.Machine.execOutrCtrl who v s
  | .wdrOvfCount who => Sys2Proof.Machine.execWdrOvfCount who s
  | .wdrVoidCount who => Sys2Proof.Machine.execWdrVoidCount who s
  | .harnSpillCount who => Sys2Proof.Machine.execHarnSpillCount who s
  | .harnMbrCnt who => Sys2Proof.Machine.execHarnMbrCnt who s
  | .outrEvents who => Sys2Proof.Machine.execOutrEvents who s
  | .laneErrCount who => Sys2Proof.Machine.execLaneErrCount who s
  | .linkErrCount who => Sys2Proof.Machine.execLinkErrCount who s
  | .swcDropCount who => Sys2Proof.Machine.execSwcDropCount who s
  | .schedQstat who => Sys2Proof.Machine.execSchedQstat who s
  | .mbxDropCount who => Sys2Proof.Machine.execMbxDropCount who s
  | .mbxViol who => Sys2Proof.Machine.execMbxViol who s
  | .tmarkEdge => Sys2Proof.Machine.execTmarkEdge s
  | .gridPointJudged => Sys2Proof.Machine.execGridPointJudged s
  | .slewCorrection => Sys2Proof.Machine.execSlewCorrection s
  | .holdoverExpiry => Sys2Proof.Machine.execHoldoverExpiry s
  | .noticeTimeout => Sys2Proof.Machine.execNoticeTimeout s
  | .pllUnlock => Sys2Proof.Machine.execPllUnlock s
  | .pllRelock => Sys2Proof.Machine.execPllRelock s
  | .timeExchangeStart => Sys2Proof.Machine.execTimeExchangeStart s
  | .time p pk => Sys2Proof.Machine.execTime p pk s
  | .noticeSend => Sys2Proof.Machine.execNoticeSend s
  | .notice p pk => Sys2Proof.Machine.execNotice p pk s
  | .noticeApply => Sys2Proof.Machine.execNoticeApply s
  | .stepOpen => Sys2Proof.Machine.execStepOpen s
  | .cueLaunch step cue => Sys2Proof.Machine.execCueLaunch step cue s
  | .deadline step cue => Sys2Proof.Machine.execDeadline step cue s
  | .actionTick step cue => Sys2Proof.Machine.execActionTick step cue s
  | .contrib p pk err => Sys2Proof.Machine.execContrib p pk err s
  | .partial_ p pk err => Sys2Proof.Machine.execPartial p pk err s
  | .intakeResume k err => Sys2Proof.Machine.execIntakeResume k err s
  | .spillDone idx err => Sys2Proof.Machine.execSpillDone idx err s
  | .reloadDone idx errs => Sys2Proof.Machine.execReloadDone idx errs s
  | .scaleWindowFill head seg errs => Sys2Proof.Machine.execScaleWindowFill head seg errs s
  | .groomIssue head seg errs err => Sys2Proof.Machine.execGroomIssue head seg errs err s
  | .groomWritesDone head seg => Sys2Proof.Machine.execGroomWritesDone head seg s
  | .castIssue head seg err => Sys2Proof.Machine.execCastIssue head seg err s
  | .multicast head seg => Sys2Proof.Machine.execMulticast head seg s
  | .digestDone head seg err => Sys2Proof.Machine.execDigestDone head seg err s
  | .headDigestFold head step part => Sys2Proof.Machine.execHeadDigestFold head step part s
  | .slotRelease head seg err => Sys2Proof.Machine.execSlotRelease head seg err s
  | .window p pk => Sys2Proof.Machine.execWindow p pk s
  | .mcast p pk => Sys2Proof.Machine.execMcast p pk s
  | .broadcastRead step cue errs => Sys2Proof.Machine.execBroadcastRead step cue errs s
  | .load step cue errs => Sys2Proof.Machine.execLoad step cue errs s
  | .store step cue => Sys2Proof.Machine.execStore step cue s
  | .zeroMoments step cue errs => Sys2Proof.Machine.execZeroMoments step cue errs s
  | .convert step cue err => Sys2Proof.Machine.execConvert step cue err s
  | .patrolScrub access err => Sys2Proof.Machine.execPatrolScrub access err s
  | .seedHdr p pk => Sys2Proof.Machine.execSeedHdr p pk s
  | .seedCopy p pk => Sys2Proof.Machine.execSeedCopy p pk s
  | .seedAck p pk errs => Sys2Proof.Machine.execSeedAck p pk errs s
  | .seedHeaderSend errs => Sys2Proof.Machine.execSeedHeaderSend errs s
  | .seedHeaderRetry errs => Sys2Proof.Machine.execSeedHeaderRetry errs s
  | .seedAbort hid => Sys2Proof.Machine.execSeedAbort hid s
  | .bandForm head seg errs err => Sys2Proof.Machine.execBandForm head seg errs err s
  | .bandStage head seg err => Sys2Proof.Machine.execBandStage head seg err s
  | .passIssue array head band tile bad => Sys2Proof.Machine.execPassIssue array head band tile bad s
  | .passDone array checksumOk => Sys2Proof.Machine.execPassDone array checksumOk s
  | .bandSend head band err => Sys2Proof.Machine.execBandSend head band err s
  | .residualWrite head band => Sys2Proof.Machine.execResidualWrite head band s
  | .bandOut head band err => Sys2Proof.Machine.execBandOut head band err s
  | .call p pk => Sys2Proof.Machine.execCall p pk s
  | .user p pk => Sys2Proof.Machine.execUser p pk s
  | .playbillWrite => Sys2Proof.Machine.execPlaybillWrite s
  | .signatureComplete => Sys2Proof.Machine.execSignatureComplete s
  | .superframeReceived lane rx => Sys2Proof.Machine.execSuperframeReceived lane rx s
  | .laneLocked lane offset heads => Sys2Proof.Machine.execLaneLocked lane offset heads s
  | .laneMarked lane m0 m1 next shift => Sys2Proof.Machine.execLaneMarked lane m0 m1 next shift s
  | .blockLoss lane heads => Sys2Proof.Machine.execBlockLoss lane heads s
  | .markLoss lane => Sys2Proof.Machine.execMarkLoss lane s
  | .los lane => Sys2Proof.Machine.execLos lane s
  | .infoWordFixed p => Sys2Proof.Machine.execInfoWordFixed p s
  | .superframeStart p => Sys2Proof.Machine.execSuperframeStart p s
  | .idleRequest p => Sys2Proof.Machine.execIdleRequest p s
  | .idleExitRequest p => Sys2Proof.Machine.execIdleExitRequest p s
  | .energyDetected lane => Sys2Proof.Machine.execEnergyDetected lane s
  | .wakeTimeout lane => Sys2Proof.Machine.execWakeTimeout lane s
  | .dataFrame p n => Sys2Proof.Machine.execDataFrame p n s
  | .linkCell p => Sys2Proof.Machine.execLinkCell p s
  | .linkCellSend p => Sys2Proof.Machine.execLinkCellSend p s
  | .hello p => Sys2Proof.Machine.execHello p s
  | .helloSend p => Sys2Proof.Machine.execHelloSend p s
  | .rollcall p => Sys2Proof.Machine.execRollcall p s
  | .rollcallSend p => Sys2Proof.Machine.execRollcallSend p s
  | .replayTimeout p => Sys2Proof.Machine.execReplayTimeout p s
  | .portUp p => Sys2Proof.Machine.execPortUp p s
  | .portDown p => Sys2Proof.Machine.execPortDown p s
  | .frameAtOutput input output cls => Sys2Proof.Machine.execFrameAtOutput input output cls s
  | .egressFrameStart output bufErr => Sys2Proof.Machine.execEgressFrameStart output bufErr s
  | .historyUpdate => Sys2Proof.Machine.execHistoryUpdate s
  | .queueSample => Sys2Proof.Machine.execQueueSample s
  | .reorderTimeout p hid step => Sys2Proof.Machine.execReorderTimeout p hid step s
  | .reorderContextFree p hid step => Sys2Proof.Machine.execReorderContextFree p hid step s
  | .hostLinkUp hp => Sys2Proof.Machine.execHostLinkUp hp s
  | .dhcpTimeout hp => Sys2Proof.Machine.execDhcpTimeout hp s
  | .dhcpLease hp addr => Sys2Proof.Machine.execDhcpLease hp addr s
  | .icmpEcho hp src dst vlan body => Sys2Proof.Machine.execIcmpEcho hp src dst vlan body s
  | .lldpSend hp => Sys2Proof.Machine.execLldpSend hp s
  | .lldpdu hp chassis portId => Sys2Proof.Machine.execLldpdu hp chassis portId s
  | .sync hp seq twoStep origin received correction ident => Sys2Proof.Machine.execSync hp seq twoStep origin received correction ident s
  | .ptpSyncLoss => Sys2Proof.Machine.execPtpSyncLoss s
  | .prompterRelease tiles writesOk => Sys2Proof.Machine.execPrompterRelease tiles writesOk s
  | .heartbeatTimeout => Sys2Proof.Machine.execHeartbeatTimeout s
  | .bootTimeout => Sys2Proof.Machine.execBootTimeout s
  | .nmiTimeout => Sys2Proof.Machine.execNmiTimeout s
  | .restartRelease => Sys2Proof.Machine.execRestartRelease s
  | .aliveToggle => Sys2Proof.Machine.execAliveToggle s
  | .leaveRequest step cue => Sys2Proof.Machine.execLeaveRequest step cue s
  | .leaveGrant => Sys2Proof.Machine.execLeaveGrant s
  | .leaveRelease grant => Sys2Proof.Machine.execLeaveRelease grant s
  | .windowOpen step entry => Sys2Proof.Machine.execWindowOpen step entry s
  | .windowEnd grant => Sys2Proof.Machine.execWindowEnd grant s
  | .issueTailEnd grant => Sys2Proof.Machine.execIssueTailEnd grant s
  | .rampStep grant => Sys2Proof.Machine.execRampStep grant s
  | .throttleUpdate pest => Sys2Proof.Machine.execThrottleUpdate pest s
  | .boxReading bytes crc => Sys2Proof.Machine.execBoxReading bytes crc s
  | .boxRecord bytes crc => Sys2Proof.Machine.execBoxRecord bytes crc s
  | .boxLost => Sys2Proof.Machine.execBoxLost s
  | .readingClose energy power slow => Sys2Proof.Machine.execReadingClose energy power slow s
  | .checkpoint => Sys2Proof.Machine.execCheckpoint s
  | .logRecord cause => Sys2Proof.Machine.execLogRecord cause s
  | .boxPowerUp => Sys2Proof.Machine.execBoxPowerUp s
  | .sealChange high => Sys2Proof.Machine.execSealChange high s
  | .readLast => Sys2Proof.Machine.execReadLast s
  | .readId => Sys2Proof.Machine.execReadId s
  | .readCkpt => Sys2Proof.Machine.execReadCkpt s
  | .readLog index => Sys2Proof.Machine.execReadLog index s
  | .status => Sys2Proof.Machine.execStatus s
  | .setCap cap didt => Sys2Proof.Machine.execSetCap cap didt s
  | .fwWrite offset data => Sys2Proof.Machine.execFwWrite offset data s
  | .boxFwCommit len => Sys2Proof.Machine.execBoxFwCommit len s
  | .faultRaise raises => Sys2Proof.Machine.execFaultRaise raises s
  | .blockResetEnd => Sys2Proof.Machine.execBlockResetEnd s
  | .reactionComplete src => Sys2Proof.Machine.execReactionComplete src s
  | .conditionGone src => Sys2Proof.Machine.execConditionGone src s
  | .quietExpiry src => Sys2Proof.Machine.execQuietExpiry src s
  | .logDrain => Sys2Proof.Machine.execLogDrain s
  | .supplyExcursion rail => Sys2Proof.Machine.execSupplyExcursion rail s
  | .thermalThreshold trip => Sys2Proof.Machine.execThermalThreshold trip s
  | .standbyPor assert => Sys2Proof.Machine.execStandbyPor assert s
  | .mainPor assert rail => Sys2Proof.Machine.execMainPor assert rail s
  | .resetN assert => Sys2Proof.Machine.execResetN assert s
  | .warmN assert => Sys2Proof.Machine.execWarmN assert s
  | .warmEntryEnd => Sys2Proof.Machine.execWarmEntryEnd s
  | .warmEntryTimeout => Sys2Proof.Machine.execWarmEntryTimeout s
  | .resetExit samples => Sys2Proof.Machine.execResetExit samples s
  | .ondieReady => Sys2Proof.Machine.execOndieReady s
  | .refLock => Sys2Proof.Machine.execRefLock s
  | .refclkLate => Sys2Proof.Machine.execRefclkLate s
  | .lpddr6Trained => Sys2Proof.Machine.execLpddr6Trained s
  | .optDone reads => Sys2Proof.Machine.execOptDone reads s
  | .memReady => Sys2Proof.Machine.execMemReady s
  | .moveDone step cue => Sys2Proof.Machine.execMoveDone step cue s
  | .convertDone step cue => Sys2Proof.Machine.execConvertDone step cue s
  | .sampleCheckEnd head seg block check seen => Sys2Proof.Machine.execSampleCheckEnd head seg block check seen s
  | .hostLinkDown hp => Sys2Proof.Machine.execHostLinkDown hp s
  | .arpRequest hp sender senderMac target => Sys2Proof.Machine.execArpRequest hp sender senderMac target s
  | .neighborDiscovery hp msg => Sys2Proof.Machine.execNeighborDiscovery hp msg s
  | .duplicateAddressDetection hp addr unique => Sys2Proof.Machine.execDuplicateAddressDetection hp addr unique s
  | .announce hp master => Sys2Proof.Machine.execAnnounce hp master s
  | .followUp hp seq origin correction ident => Sys2Proof.Machine.execFollowUp hp seq origin correction ident s
  | .delayResp hp seq received correction ident => Sys2Proof.Machine.execDelayResp hp seq received correction ident s

end Sys2Proof.Machine
end

