-- ==== Sys2Proof/Machine/Idle.lean ====
section
/-! DEFINITION. What happens on an empty queue: half a nanosecond passes, in which the stage counter counts and the units do what
nothing outside commands (R95, logs 1, 2). -/

namespace Sys2Proof.Machine

/-- One tick of the stage clock unit: the counter adds 1 unless it is in reset or STOPPED (DESIGN CHOICE, log 1). -/
def tickStage (c : StageClock) : StageClock :=
  if !c.released || decide (c.st = .stopped) then c
  else { c with now := c.now + 1, sinceSlew := if c.slew = 0 then c.sinceSlew else c.sinceSlew + 1 }

/-- A seeding receiver that is full becomes an understudy at once when no run is active (Table Groom-9). -/
def idleSeed (s : State) : State := if s.cue.run.isNone then seedEnd s else s

/-- The Prompter, while it runs, takes one datagram that waited (DEDUCED, log 16). -/
def idleDgram (s : State) : State := if s.prm.running then serveDgram s else s

/-- The state after an idle step (DESIGN CHOICE, log 1). -/
def idle (s : State) : State :=
  idleDgram (idleSeed (serveCopies { passCycle s with time := s.time + 1, stg := tickStage s.stg }))

end Sys2Proof.Machine
end

