-- ==== Sys2Proof/Safety.lean ====
section
/-! DEFINITION. The terms claims use: what a safe step is, how a command completes, how it ends, and when a datagram is taken. -/

namespace Sys2Proof

/-- The step of `s` neither faults nor refuses. -/
def SafeStep (s : Machine.State) : Prop := ∃ t, Machine.step s = .next t

/-- `c` answers a next state from `s`, and what `P` says holds of that state. -/
def Completes (c : Instr) (s : Machine.State) (P : Machine.State → Prop) : Prop := ∃ t, Machine.exec c s = .next t ∧ P t

namespace Machine

/-- Status and result of the accepted command `id`, once it has ended. -/
def cmdResult (s : State) (id : Nat) : Option (BitVec 16 × List Byte) :=
  (s.host.cmds.find? (fun c => decide (c.id = id))).bind (fun c => c.out)

/-- A datagram of KIND `kind` that the Prompter takes at once: its port runs, tests 1 to 5 of Table Host-4 pass, and nothing has
to wait. -/
def takes (s : State) (kind : Byte) (d : Dgram) : Bool :=
  ethRuns s d.port && frameTaken d && holdsFamily (s.host.eth[d.port.val]) d.peer.addr && dgramPasses s d && decide (hKind d = kind) &&
    decide (s.host.waiting = []) && !dgramWaits s d

/-- The reply to a datagram in its session, with no mailbox. -/
def answer (d : Dgram) (kind flags : Byte) (status : BitVec 16) (pay : List Byte) : Out :=
  .datagram d.port d.peer d.vlan (promptBytes 0x10 kind (hSession d) (hSeq d) 0xFF flags status pay)

/-- The reply to a datagram that names a mailbox. -/
def answerMbx (d : Dgram) (kind flags : Byte) (status : BitVec 16) (pay : List Byte) : Out :=
  .datagram d.port d.peer d.vlan (promptBytes 0x10 kind (hSession d) (hSeq d) (byteAt d.bytes 14) flags status pay)

/-- An access of `who` reaches a register: the window is open to it, the register's mark lets it in, and its block is neither held
nor fenced (Table Registers-1, Table Registers-3, Table Registers-5). -/
def reaches (who : Requester) (r : Reg) (write : Bool) (s : State) : Bool :=
  mayAccess who write s && decide (limitKind who r write = 0) && !blockOut s r

/-- Command `m` of CODE `code` reads n bytes of LPDDR6 from address a: `u` is `s` after what the accesses report (R133), and the command
still stands in it. -/
def Reads (s u : State) (m : MemCmd) (code a n : Nat) : Prop := u = readErrors a n m.errs s ∧ (cmdReady u m.id code).isSome = true

/-- The RW fields of the registers whose write does nothing but set them, and the RO fields beside them; the other bits of such a
register are RSV (Table Scope-4). The mask is 0 for every other register. -/
def rwMask : Reg → W64
  | .cueSel => ones 63 48 ||| ones 25 16 ||| ones 6 0
  | .harnMbrSel => ones 6 0
  | .harnDescSel => ones 18 16 ||| ones 14 0
  | .callSel => ones 63 48 ||| ones 2 0
  | .outrSel => ones 11 0
  | .laneSel => ones 8 0
  | .linkSel => ones 5 0
  | .swcRtSel => ones 40 32 ||| ones 5 0
  | .schedSel => ones 10 4 ||| ones 2 0
  | .fltSel => ones 4 0
  | .outrCtrl => ones 47 32 ||| ones 19 12 ||| ones 8 4 ||| ones 0 0
  | .digCtrl => ones 9 0
  | .linkCtrl => ones 31 0
  | .swcMirror => ones 63 48 ||| ones 11 0
  | .swcMirrorFlow => ones 63 63 ||| ones 55 16
  | .swcAdapt => ones 63 48
  | .leaveCtrl => ones 63 32 ||| ones 15 8
  | .fltCtrl => ones 63 24
  | .rstBackup _ => ones 63 0
  | _ => 0
def roMask : Reg → W64
  | .swcAdapt => ones 20 0
  | _ => 0

/-- Address a lies outside the n bytes that a record takes in the ring from `s` on. -/
def offRing (s : State) (n a : Nat) : Prop :=
  a < ringBase ∨ ringBase + ringBytes ≤ a ∨ (s.dig.writtenTo % ringBytes + n ≤ ringBytes ∧
    (a < ringBase + s.dig.writtenTo % ringBytes ∨ ringBase + s.dig.writtenTo % ringBytes + n ≤ a))

/-- Address a lies outside the progress entries of the 4,096 shard records (Table Groom-1). -/
def offProgress (a : Nat) : Prop := a < progressTable ∨ progressTable + 64 * 4096 ≤ a

/-- From `u` to `t` the initial scales of a sheet's heads are written to their scale ranges (R85), and no other byte of memory. The values
are stated where the scale set lies in the scratch region. -/
def ScalesWritten (sh : Sheet) (u t : State) : Prop :=
  (∀ x ∈ sh.heads.zip (allocate sh).1, headScaled x.1 = true →
    (∀ st, sh.scaleSets[x.1.scaleset]? = some st → sh.scaleAt + st.1 + blocksOf x.1.len ≤ scratchBytes) →
    ∀ k, k < blocksOf x.1.len → memByte t.dram (x.2.2 + k) = setByte t x.1.scaleset k &&& 0x3F) ∧
  (∀ a, (∀ x ∈ sh.heads.zip (allocate sh).1, headScaled x.1 = true → a < x.2.2 ∨ x.2.2 + blocksOf x.1.len ≤ a) →
    memByte t.dram a = memByte u.dram a)

/-- The state after a violation of R444 and R446 by an access of `who` at an offset of the window span: it is counted and recorded, and
nothing else changes. -/
def Violated (who : Requester) (kind off : Nat) (write : Bool) (s t : State) : Prop :=
  t = { s with flt := { s.flt with violCount := satAdd 0xFFFF_FFFF s.flt.violCount 1, violLast := t.flt.violLast } } ∧
    fld (t.flt.violLast.setWidth 64) 31 29 = kind ∧ t.flt.violLast.getLsbD 28 = write ∧
    fld (t.flt.violLast.setWidth 64) 27 20 = off / 0x10000 ∧ fld (t.flt.violLast.setWidth 64) 19 18 = windowCode who ∧
    fld (t.flt.violLast.setWidth 64) 15 0 = off % 0x10000

/-- From `s` to `t` the stage door starts its restart sequence: it holds the Prompter in reset and closes every session (R416). -/
def DoorRestarts (s t : State) : Prop :=
  t.door.st = .restarting ∧ t.door.restartAt = s.time ∧ t.door.run = s.door.run + 1 ∧
    t.door.restarts = satAdd 0xFFFF s.door.restarts 1 ∧ t.host.sessions = [] ∧ t.prm.running = false

/-- May the door restart the Prompter once more (R416)? -/
def mayRestart (s : State) : Bool := decide (s.door.run.toNat < max 1 (fld s.flt.ctrl 27 24))

/-- What COLD reach leaves of the working state: memory, run, sessions and the Prompter's image are gone (R424). -/
def ColdReached (s t : State) : Prop :=
  t.rst.held = true ∧ t.dram = [] ∧ t.ws = [] ∧ t.cue = {} ∧ t.harn = {} ∧ t.host.sessions = [] ∧ t.prm.running = false ∧
    t.lane = {} ∧ t.fuses = s.fuses ∧ t.flash = s.flash

/-- A part of the state: one field of `State`. -/
inductive Part where
  | pending | time | draws | issued | cyc | written | out | dram | ws | stg | cue | callb | harn | wdr | grm | prj | outr | dig
  | lane | link | swc | sched | topo | host | fuses | flash | prm | rid | boxRx | boxDie | flt | door | rst
  deriving DecidableEq, Repr

/-- `t` holds the part `p` as `s` does. -/
def Part.same (p : Part) (s t : State) : Prop :=
  match p with
  | .pending => t.pending = s.pending
  | .time => t.time = s.time
  | .draws => t.draws = s.draws
  | .issued => t.issued = s.issued
  | .cyc => t.cyc = s.cyc
  | .written => t.written = s.written
  | .out => t.out = s.out
  | .dram => t.dram = s.dram
  | .ws => t.ws = s.ws
  | .stg => t.stg = s.stg
  | .cue => t.cue = s.cue
  | .callb => t.callb = s.callb
  | .harn => t.harn = s.harn
  | .wdr => t.wdr = s.wdr
  | .grm => t.grm = s.grm
  | .prj => t.prj = s.prj
  | .outr => t.outr = s.outr
  | .dig => t.dig = s.dig
  | .lane => t.lane = s.lane
  | .link => t.link = s.link
  | .swc => t.swc = s.swc
  | .sched => t.sched = s.sched
  | .topo => t.topo = s.topo
  | .host => t.host = s.host
  | .fuses => t.fuses = s.fuses
  | .flash => t.flash = s.flash
  | .prm => t.prm = s.prm
  | .rid => t.rid = s.rid
  | .boxRx => t.boxRx = s.boxRx
  | .boxDie => t.boxDie = s.boxDie
  | .flt => t.flt = s.flt
  | .door => t.door = s.door
  | .rst => t.rst = s.rst

/-- What a raise of a fault source can reach through its reaction, up to COLD reach (R406, R424); not the queue, the clock, the box office, the fuses or the flash. -/
def reactionUnits : List Part :=
  [.draws, .cyc, .out, .dram, .ws, .stg, .cue, .callb, .harn, .wdr, .grm, .prj, .outr, .dig, .lane, .link, .swc, .sched, .topo, .host, .prm, .rid, .flt, .door, .rst]

/-- What a row reaches that also issues a request to the Carriage (R134). -/
def carriageUnits : List Part := .issued :: reactionUnits

/-- What a command reaches that reads the FIRMWARE window and programs the flash. -/
def flashUnits : List Part := .flash :: reactionUnits

/-- What a loss of power reaches: as a reset, and the box office die, which loses its supply or notes the 12 V main (R388). -/
def powerUnits : List Part := .boxDie :: reactionUnits

/-- What a register write can reach: a register of any block, and what a reset or a fault that it brings about reaches. -/
def accessUnits : List Part :=
  [.draws, .issued, .cyc, .written, .out, .dram, .ws, .stg, .cue, .callb, .harn, .wdr, .grm, .prj, .outr, .dig, .lane, .link, .swc, .sched, .topo, .host, .prm, .rid, .boxRx, .flt, .door, .rst]

/-- What a register read can reach: the value read, the registers that a read clears, and the violation count. -/
def readUnits : List Part :=
  [.draws, .cyc, .out, .harn, .wdr, .outr, .lane, .link, .swc, .sched, .host, .flt]

/-- The parts that a command may change: its own unit, the units it hands work to, the mailboxes where it ends a host command, and what a
fault it can raise may reach. -/
def mayChange (c : Instr) : List Part :=
  match c with
  | .open_ .. => [.draws, .cyc, .out, .dram, .cue, .harn, .host]
  | .auth .. => [.draws, .cyc, .out, .dram, .cue, .harn, .host]
  | .lockoutExpiry => [.host]
  | .authTimeout .. => [.host]
  | .close .. => [.draws, .cyc, .out, .dram, .cue, .harn, .host]
  | .keep .. => [.draws, .cyc, .out, .dram, .cue, .harn, .host]
  | .sessionTimeout .. => [.cyc, .host]
  | .post .. => [.draws, .cyc, .out, .dram, .cue, .harn, .host]
  | .read .. => [.draws, .cyc, .out, .dram, .cue, .harn, .host]
  | .commandEnd .. => [.host]
  | .bulkW .. => [.draws, .cyc, .out, .dram, .cue, .harn, .host]
  | .bulkR .. => reactionUnits
  | .evack .. => [.draws, .cyc, .out, .dram, .cue, .harn, .host]
  | .eventResend .. => [.draws, .out, .host]
  | .info .. => [.host]
  | .loadSheet .. => reactionUnits
  | .startRun .. => reactionUnits
  | .stop .. => [.draws, .cyc, .out, .cue, .grm, .dig, .host, .flt]
  | .stopRecovery .. => [.draws, .cyc, .out, .cue, .callb, .harn, .host]
  | .drainEnd => [.draws, .cyc, .out, .dram, .cue, .callb, .harn, .grm, .prj, .outr, .dig, .host, .flt]
  | .readmit .. => [.draws, .cue, .host]
  | .progress .. => reactionUnits
  | .pbAck .. => [.cyc, .out, .dram, .dig, .host]
  | .loadPlan .. => reactionUnits
  | .setLive .. => [.cyc, .out, .harn, .link, .swc, .topo, .host]
  | .place .. => carriageUnits
  | .admitLink .. => [.draws, .cyc, .out, .harn, .link, .swc, .host]
  | .admitWithdraw .. => [.draws, .cyc, .out, .harn, .link, .swc, .host]
  | .shardCreate .. => carriageUnits
  | .zeroFillDone .. => [.dram, .grm]
  | .shardRemove .. => reactionUnits
  | .promote .. => reactionUnits
  | .regRead .. => [.draws, .cyc, .out, .harn, .wdr, .outr, .lane, .link, .swc, .sched, .host, .flt]
  | .regWrite .. => accessUnits
  | .registerWrite .. => accessUnits
  | .enroll .. => [.draws, .host, .flash, .prm]
  | .revoke .. => [.host, .flash, .prm]
  | .operatorTableErase => [.flash, .prm]
  | .ident .. => [.dram, .host]
  | .attest .. => [.draws, .dram, .host]
  | .endorse .. => flashUnits
  | .fwStage .. => flashUnits
  | .fwActivate .. => [.out, .host, .prm, .flt, .door]
  | .fwCommit .. => [.draws, .host, .fuses, .flash, .prm]
  | .fwStatus .. => [.draws, .host]
  | .keyRevoke .. => [.draws, .host, .fuses]
  | .leaveInfo .. => [.host]
  | .boxLast .. => [.draws, .host]
  | .boxCopy .. => [.draws, .dram, .host]
  | .faultInfo .. => [.host]
  | .faultReact .. => [.host, .flt]
  | .faultInject .. => reactionUnits
  | .epochArm .. => accessUnits
  | .swCold .. => accessUnits
  | .swWarm .. => accessUnits
  | .softwareResetEnd .. => [.rst]
  | .rstBlock .. => accessUnits
  | .stateAudit .. => accessUnits
  | .auditDone .. => carriageUnits
  | .beat .. => accessUnits
  | .fatal .. => accessUnits
  | .nmiAck .. => accessUnits
  | .fltSrcCtrl .. => accessUnits
  | .schedShaper .. => accessUnits
  | .schedPolicer .. => accessUnits
  | .swcCredit .. => accessUnits
  | .localRes .. => accessUnits
  | .swcRtStatic .. => accessUnits
  | .swcRtSpray .. => accessUnits
  | .leaveCtrl .. => accessUnits
  | .lanePortCtrl .. => accessUnits
  | .outrCtrl .. => accessUnits
  | .wdrOvfCount .. => readUnits
  | .wdrVoidCount .. => readUnits
  | .harnSpillCount .. => readUnits
  | .harnMbrCnt .. => readUnits
  | .outrEvents .. => readUnits
  | .laneErrCount .. => readUnits
  | .linkErrCount .. => readUnits
  | .swcDropCount .. => readUnits
  | .schedQstat .. => readUnits
  | .mbxDropCount .. => readUnits
  | .mbxViol .. => readUnits
  | .tmarkEdge => [.cyc, .stg, .cue, .callb, .link, .swc]
  | .gridPointJudged => reactionUnits
  | .slewCorrection => [.time, .cyc, .written, .stg]
  | .holdoverExpiry => [.draws, .cyc, .out, .stg, .cue, .callb, .grm, .dig, .link, .swc, .host, .flt]
  | .noticeTimeout => [.stg]
  | .pllUnlock => reactionUnits
  | .pllRelock => [.draws, .cyc, .out, .stg, .cue, .callb, .grm, .dig, .link, .swc, .host, .flt]
  | .timeExchangeStart => [.cyc, .stg, .link, .swc]
  | .time .. => [.draws, .cyc, .stg, .link, .swc]
  | .noticeSend => [.draws, .cyc, .stg, .link, .swc]
  | .notice .. => [.cyc, .stg, .link, .swc]
  | .noticeApply => [.cyc, .stg]
  | .stepOpen => [.cyc, .out, .cue, .callb, .outr, .link, .swc, .host]
  | .cueLaunch .. => [.cyc, .out, .cue, .callb, .link, .swc, .host]
  | .deadline .. => [.cyc, .out, .cue, .host]
  | .actionTick .. => [.issued, .cyc, .out, .dram, .cue, .callb, .harn, .outr, .link, .swc, .host]
  | .contrib .. => carriageUnits
  | .partial_ .. => carriageUnits
  | .intakeResume .. => carriageUnits
  | .spillDone .. => carriageUnits
  | .reloadDone .. => carriageUnits
  | .scaleWindowFill .. => reactionUnits
  | .groomIssue .. => carriageUnits
  | .groomWritesDone .. => [.cyc, .out, .dram, .cue, .callb, .harn, .link, .swc, .host, .rid]
  | .castIssue .. => reactionUnits
  | .multicast .. => reactionUnits
  | .digestDone .. => reactionUnits
  | .headDigestFold .. => [.cue, .dig]
  | .slotRelease .. => carriageUnits
  | .window .. => [.harn, .link, .swc]
  | .mcast .. => reactionUnits
  | .broadcastRead .. => reactionUnits
  | .load .. => carriageUnits
  | .store .. => [.issued, .dram, .cue]
  | .zeroMoments .. => carriageUnits
  | .convert .. => reactionUnits
  | .patrolScrub .. => reactionUnits
  | .seedHdr .. => [.cyc, .dram, .grm, .link, .swc]
  | .seedCopy .. => [.cyc, .dram, .grm, .link, .swc]
  | .seedAck .. => reactionUnits
  | .seedHeaderSend .. => reactionUnits
  | .seedHeaderRetry .. => reactionUnits
  | .seedAbort .. => reactionUnits
  | .bandForm .. => reactionUnits
  | .bandStage .. => carriageUnits
  | .passIssue .. => reactionUnits
  | .passDone .. => reactionUnits
  | .bandSend .. => carriageUnits
  | .residualWrite .. => [.cyc, .dram, .cue, .prj]
  | .bandOut .. => reactionUnits
  | .call .. => [.cyc, .out, .cue, .callb, .link, .swc, .host]
  | .user .. => [.cyc, .link, .swc, .sched]
  | .playbillWrite => [.draws, .cyc, .out, .dram, .cue, .callb, .harn, .grm, .prj, .outr, .dig, .host, .flt]
  | .signatureComplete => [.draws, .cyc, .out, .dram, .dig, .host]
  | .superframeReceived .. => reactionUnits
  | .laneLocked .. => [.lane]
  | .laneMarked .. => [.lane, .link]
  | .blockLoss .. => reactionUnits
  | .markLoss .. => reactionUnits
  | .los .. => reactionUnits
  | .infoWordFixed .. => [.lane]
  | .superframeStart .. => [.out, .lane]
  | .idleRequest .. => [.lane]
  | .idleExitRequest .. => [.out, .lane]
  | .energyDetected .. => [.lane]
  | .wakeTimeout .. => reactionUnits
  | .dataFrame .. => reactionUnits
  | .linkCell .. => reactionUnits
  | .linkCellSend .. => [.out, .lane, .link]
  | .hello .. => reactionUnits
  | .helloSend .. => [.out, .lane, .link]
  | .rollcall .. => reactionUnits
  | .rollcallSend .. => [.out, .lane, .link]
  | .replayTimeout .. => reactionUnits
  | .portUp .. => [.draws, .cyc, .out, .link, .host]
  | .portDown .. => reactionUnits
  | .frameAtOutput .. => [.cyc, .swc, .sched]
  | .egressFrameStart .. => reactionUnits
  | .historyUpdate => [.swc]
  | .queueSample => [.sched]
  | .reorderTimeout .. => [.swc, .sched]
  | .reorderContextFree .. => [.swc]
  | .hostLinkUp .. => [.out, .host]
  | .dhcpTimeout .. => [.draws, .host]
  | .dhcpLease .. => [.host]
  | .icmpEcho .. => [.out]
  | .lldpSend .. => [.out, .host]
  | .lldpdu .. => [.host]
  | .sync .. => [.out, .host]
  | .ptpSyncLoss => [.host]
  | .prompterRelease .. => [.draws, .out, .flash, .prm, .flt, .rst]
  | .heartbeatTimeout => [.out, .host, .prm, .flt, .door]
  | .bootTimeout => [.out, .host, .prm, .flt, .door]
  | .nmiTimeout => [.out, .host, .prm, .flt, .door]
  | .restartRelease => [.door]
  | .aliveToggle => [.out, .door]
  | .leaveRequest .. => [.cyc, .cue, .rid]
  | .leaveGrant => [.rid]
  | .leaveRelease .. => [.rid]
  | .windowOpen .. => [.cyc, .rid]
  | .windowEnd .. => [.rid]
  | .issueTailEnd .. => [.rid]
  | .rampStep .. => [.rid]
  | .throttleUpdate .. => [.cyc, .rid]
  | .boxReading .. => [.cyc, .rid, .boxRx]
  | .boxRecord .. => [.cyc, .boxRx]
  | .boxLost => accessUnits
  | .readingClose .. => [.out, .boxDie]
  | .checkpoint => [.draws, .out, .boxDie]
  | .logRecord .. => [.draws, .out, .boxDie]
  | .boxPowerUp => [.boxDie]
  | .sealChange .. => [.boxDie]
  | .readLast => [.draws, .out]
  | .readId => [.out]
  | .readCkpt => [.draws, .out]
  | .readLog .. => [.draws, .out]
  | .status => [.out]
  | .setCap .. => [.boxDie]
  | .fwWrite .. => [.boxDie]
  | .boxFwCommit .. => [.draws, .boxDie]
  | .faultRaise .. => reactionUnits
  | .blockResetEnd => [.callb, .harn, .wdr, .grm, .prj, .outr, .dig, .host, .prm, .rid, .rst]
  | .reactionComplete .. => [.flt]
  | .conditionGone .. => [.flt, .rst]
  | .quietExpiry .. => [.draws, .cyc, .out, .host, .flt, .door]
  | .logDrain => [.dram, .flt]
  | .supplyExcursion .. => reactionUnits
  | .thermalThreshold .. => reactionUnits
  | .standbyPor .. => powerUnits
  | .mainPor .. => powerUnits
  | .resetN .. => reactionUnits
  | .warmN .. => reactionUnits
  | .warmEntryEnd => reactionUnits
  | .warmEntryTimeout => reactionUnits
  | .resetExit .. => [.cyc, .out, .lane, .rst]
  | .ondieReady => [.lane, .link, .rid, .door, .rst]
  | .refLock => [.stg, .lane, .link, .rst]
  | .refclkLate => [.cyc, .rst]
  | .lpddr6Trained => [.rst]
  | .optDone .. => reactionUnits
  | .memReady => [.rst]
  | .moveDone .. => [.cyc, .out, .cue, .callb, .link, .swc, .host]
  | .convertDone .. => [.cyc, .out, .cue, .callb, .link, .swc, .host]
  | .sampleCheckEnd .. => reactionUnits
  | .hostLinkDown .. => [.host]
  | .arpRequest .. => [.out]
  | .neighborDiscovery .. => [.out, .host]
  | .duplicateAddressDetection .. => [.host]
  | .announce .. => [.host]
  | .followUp .. => [.out, .host]
  | .delayResp .. => [.host]

end Machine
end Sys2Proof
end

