-- ==== Sys2Proof/Certificates/Slice0/Obligations.lean ====
section
/-! DEFINITION. What the provers are to prove. -/

open Sys2Proof Sys2Proof.Machine

/-- Sessions (R328, R329, R331 to R334, R322). An OPEN that offers and asks for what the module has gets the next session number and its
mailboxes, and OPEN_R goes back the way the OPEN came; it is READY at once while the operator table is empty. AUTH makes the session
READY with the operator's privilege, or closes it and counts a failure. CLOSE and KEEP are answered; one second without AUTH and four
KEEP_MS of silence close a session, and each time the other sessions stay; a lockout ends at its time. Only the case of a free session
is stated of OPEN. That the session number is drawn from a free value is the model's choice (log 4), as are the times in ticks of
0.5 ns (log 2). -/
def Obligations.SessionsOpenAndClose : Prop :=
  (∀ (d : Dgram) (s : State) (first : Nat), takes s 0x01 d = true → lockedOut s = false →
    (∀ x ∈ s.host.sessions, x.peer ≠ d.peer) → offersOne (payload d) = true → openOk (payload d) = true →
    s.host.sessions.length < 8 → freeRun s (leAt (payload d) 10 1) = some first →
    Completes (.open_ d) s (fun t => ∃ x, t.host.sessions = (noteDgram d s).host.sessions ++ [x] ∧ x.id = newSid s ∧ x.peer = d.peer ∧
      x.ready = s.prm.operators.isEmpty ∧ x.mbxFirst = first ∧ x.mbxCount = leAt (payload d) 10 1 ∧
      (∀ i : Fin 64, first ≤ i.val → i.val < first + leAt (payload d) 10 1 → t.host.mboxes[i.val] = { owner := some (newSid s) }) ∧
      t.out = .datagram d.port d.peer d.vlan (promptBytes 0 0x02 (newSid s) (hSeq d) 0xFF 0 0 x.openRPay) :: s.out)) ∧
  (∀ (d : Dgram) (s : State) (x : Session), takes s 0x03 d = true → findSession s (hSession d) = some x → x.ready = false →
    Completes (.auth d) s (fun t => match authPriv s x (payload d) with
      | some p => (∀ y ∈ t.host.sessions, y.id = x.id → y.ready = true ∧ y.priv = p) ∧ t.out = answer d 0x04 0 0 (leBytes 1 p) :: s.out
      | none => (∀ y ∈ t.host.sessions, y.id ≠ x.id) ∧ t.host.authFail = satAdd 0xFFFF s.host.authFail 1)) ∧
  (∀ (d : Dgram) (s : State), takes s 0x05 d = true →
    Completes (.close d) s (fun t => (∀ y ∈ t.host.sessions, y.id ≠ hSession d) ∧ (∀ i : Fin 64, (t.host.mboxes[i.val]).owner ≠ some (hSession d)) ∧
      (∀ y ∈ s.host.sessions, y.id ≠ hSession d → y ∈ t.host.sessions) ∧ t.out = answer d 0x06 0 0 [] :: s.out)) ∧
  (∀ (d : Dgram) (s : State), takes s 0x07 d = true →
    Completes (.keep d) s (fun t => (∀ y ∈ t.host.sessions, y.id = hSession d → y.lastAt = s.time) ∧
      t.out = answer d 0x08 0 0 (keepReply s) :: s.out)) ∧
  (∀ (i : BitVec 32) (s : State) (x : Session), findSession s i = some x → x.ready = false → x.openedAt + 1000 * ms ≤ s.time →
    Completes (.authTimeout i) s (fun t => t = closeSession i s ∧ (∀ y ∈ t.host.sessions, y.id ≠ i) ∧ ∀ y ∈ s.host.sessions, y.id ≠ i → y ∈ t.host.sessions)) ∧
  (∀ (i : BitVec 32) (s : State) (x : Session), findSession s i = some x → x.lastAt + 4 * x.keepMs * ms ≤ s.time →
    Completes (.sessionTimeout i) s (fun t => (∀ y ∈ t.host.sessions, y.id ≠ i) ∧ (∀ y ∈ s.host.sessions, y.id ≠ i → y ∈ t.host.sessions) ∧
      t.host.sticky = s.host.sticky ||| 0x20)) ∧
  (∀ (s : State) (u : Nat), s.host.lockUntil = some u → u ≤ s.time →
    Completes .lockoutExpiry s (fun t => t = { s with host := { s.host with lockUntil := none } }))

/-- Mailboxes and events (R335 to R337, R351). A POST with the next sequence number makes the mailbox BUSY and queues one command; a READ
of a DONE mailbox returns its status and result, with REPEAT from the second time on; COMMAND_END moves the result of an ended command
into its mailbox. EVACK takes out of its session's queue every event up to its number, and no later one and none of another session;
EVENT_RESEND sends again the events that have waited 20 ms, oldest first, and no other; whether they carry REPEAT is left open (log 47). -/
def Obligations.MailboxesPostReadAndEnd : Prop :=
  (∀ (d : Dgram) (s : State) (m : Fin 64), takes s 0x10 d = true → ownMbx s d = some m → hSeq d = (s.host.mboxes[m.val]).cseq + 1 →
    (s.host.mboxes[m.val]).st ≠ .busy →
    Completes (.post d) s (fun t => (t.host.mboxes[m.val]).st = .busy ∧ (t.host.mboxes[m.val]).cseq = hSeq d ∧
      (∃ c, t.host.cmds = insertCmd c s.host.cmds ∧ c.id = s.host.nextCmd ∧ c.mbx = m ∧ c.seq = hSeq d ∧ c.code = BitVec.ofNat 16 (leAt (payload d) 0 2) ∧
        c.args = (payload d).drop 8 ∧ c.port = d.port ∧ c.cycle = prompterCycle s.time) ∧ t.out = answerMbx d 0x11 0 stOk [] :: s.out)) ∧
  (∀ (d : Dgram) (s : State) (m : Fin 64), takes s 0x12 d = true → ownMbx s d = some m → hSeq d = (s.host.mboxes[m.val]).cseq →
    (s.host.mboxes[m.val]).st = .done →
    Completes (.read d) s (fun t => (t.host.mboxes[m.val]).st = .done ∧ (t.host.mboxes[m.val]).read = true ∧
      t.out = answerMbx d 0x13 (if (s.host.mboxes[m.val]).read then 1 else 0) (s.host.mboxes[m.val]).status (s.host.mboxes[m.val]).result :: s.out)) ∧
  (∀ (id : Nat) (s : State) (c : Cmd) (st : BitVec 16) (l : List Byte), s.host.cmds.find? (fun c => decide (c.id = id)) = some c → c.out = some (st, l) →
    (s.host.mboxes[c.mbx.val]).owner = some c.session → (s.host.mboxes[c.mbx.val]).cseq = c.seq → (s.host.mboxes[c.mbx.val]).st = .busy →
    Completes (.commandEnd id) s (fun t => (t.host.mboxes[c.mbx.val]).st = .done ∧ (t.host.mboxes[c.mbx.val]).status = st ∧
      (t.host.mboxes[c.mbx.val]).result = leBytes 2 c.code.toNat ++ zeros 6 ++ l)) ∧
  (∀ (d : Dgram) (s : State), takes s 0x31 d = true →
    Completes (.evack d) s (fun t => (∀ y ∈ t.host.sessions, y.id = hSession d → ∀ e ∈ y.events, hSeq d < e.eseq) ∧
      (∀ y ∈ s.host.sessions, y.id = hSession d → ∃ z ∈ t.host.sessions, z.id = y.id ∧ z.events = y.events.filter (fun e => decide (hSeq d < e.eseq))) ∧
      (∀ y ∈ s.host.sessions, y.id ≠ hSession d → y ∈ t.host.sessions) ∧ t.out = s.out)) ∧
  (∀ (i : BitVec 32) (s : State) (x : Session), findSession s i = some x →
    Completes (.eventResend i) s (fun t => (∀ y ∈ t.host.sessions, y.id = i → ∀ e ∈ y.events, s.time < e.sentAt + 20 * ms) ∧
      ∃ flags : List Byte, flags.length = (x.events.filter (fun e => decide (s.time ≥ e.sentAt + 20 * ms))).length ∧ (∀ f ∈ flags, f = 0 ∨ f = 1) ∧
        t.out = (((x.events.filter (fun e => decide (s.time ≥ e.sentAt + 20 * ms))).zip flags).map (fun p =>
          Out.datagram x.port x.peer x.vlan (promptBytes 0x10 0x30 x.id p.1.eseq 0xFF p.2 0 p.1.payload))).reverse ++ s.out))

/-- Bulk windows (R345 to R348). An accepted BULK_W stores its data at the window's place in the data space and leaves every other byte,
and one over the loaded image unloads the sheet; for KEY (0x0A) it goes into the key that ENROLL takes. An accepted BULK_R answers with
the bytes that stand there, after what its accesses report is taken in (R133), and changes none where they report nothing; for PRESULT
(0x04) it answers with bytes of the placement result. -/
def Obligations.BulkWindowsStoreAndLoad : Prop :=
  (∀ (d : Dgram) (s : State) (x : Session) (r : Nat × Nat), takes s 0x20 d = true → findSession s (hSession d) = some x →
    bulkRefused s x true (payload d).length (readBulk (payload d)) = none → (readBulk (payload d)).win ≠ 0x0A →
    winRange s (readBulk (payload d)) = some r → Memory.wf s.dram = true →
    Completes (.bulkW d) s (fun t =>
      ((readBulk (payload d)).win = 0x01 → overSheet s (readBulk (payload d)).offset (readBulk (payload d)).count = true → t.cue.sheet = none) ∧
      memRead t.dram (r.1 + (readBulk (payload d)).offset) (readBulk (payload d)).data.length = (readBulk (payload d)).data ∧
      (∀ a, a < r.1 + (readBulk (payload d)).offset ∨ r.1 + (readBulk (payload d)).offset + (readBulk (payload d)).data.length ≤ a → memByte t.dram a = memByte s.dram a) ∧
      t.out = answer d 0x21 0 stOk ((payload d).take 16) :: s.out)) ∧
  (∀ (d : Dgram) (s : State) (x : Session), takes s 0x20 d = true → findSession s (hSession d) = some x →
    bulkRefused s x true (payload d).length (readBulk (payload d)) = none → (readBulk (payload d)).win = 0x0A →
    Completes (.bulkW d) s (fun t => t.host.key.length = 2592 ∧
      (t.host.key.drop (readBulk (payload d)).offset).take (readBulk (payload d)).count = (readBulk (payload d)).data ∧
      (∀ i, i < 2592 → (i < (readBulk (payload d)).offset ∨ (readBulk (payload d)).offset + (readBulk (payload d)).count ≤ i) →
        byteAt t.host.key i = byteAt s.host.key i) ∧
      t.dram = s.dram ∧ t.out = answer d 0x21 0 stOk ((payload d).take 16) :: s.out)) ∧
  (∀ (d : Dgram) (errs : List AccErr) (s u : State) (x : Session) (r : Nat × Nat), takes s 0x22 d = true → findSession s (hSession d) = some x →
    bulkRefused s x false (payload d).length (readBulk (payload d)) = none → (readBulk (payload d)).win ≠ 0x04 →
    winRange s (readBulk (payload d)) = some r → u = readErrors (r.1 + (readBulk (payload d)).offset) (readBulk (payload d)).count errs (noteDgram d s) →
    Completes (.bulkR d errs) s (fun t => t.dram = u.dram ∧ (errs = [] → t.dram = s.dram) ∧
      t.out = answer d 0x23 0 stOk ((payload d).take 16 ++ memRead u.dram (r.1 + (readBulk (payload d)).offset) (readBulk (payload d)).count) :: u.out)) ∧
  (∀ (d : Dgram) (errs : List AccErr) (s : State) (x : Session), takes s 0x22 d = true → findSession s (hSession d) = some x →
    bulkRefused s x false (payload d).length (readBulk (payload d)) = none → (readBulk (payload d)).win = 0x04 →
    Completes (.bulkR d errs) s (fun t => t.dram = s.dram ∧
      t.out = answer d 0x23 0 stOk ((payload d).take 16 ++ ((presultBytes s).drop (readBulk (payload d)).offset).take (readBulk (payload d)).count) :: s.out))

/-- INFO, ENROLL and REVOKE (R331, R332, R338, R344), and the erase that a change of the operator table waits for (R362). INFO answers and
changes nothing else. ENROLL adds the key of the KEY window; REVOKE removes an entry and closes the sessions of that operator. -/
def Obligations.InfoAndOperatorTable : Prop :=
  (∀ (id : Nat) (s : State) (c : Cmd), cmdReady s id 0x0001 = some c →
    Completes (.info id) s (fun t => cmdResult t id = some (stOk, infoFields s) ∧ t = endCmd id stOk (infoFields s) s)) ∧
  (∀ (id : Nat) (s : State) (c : Cmd), cmdReady s id 0x0050 = some c → s.prm.eraseDue = none → installRefused s c = false →
    arg c 0 2 ≠ 0 → arg c 0 2 < 65536 → arg c 2 1 ≤ 2 → s.prm.operators.any (fun o => o.opid == BitVec.ofNat 16 (arg c 0 2)) = false →
    s.prm.operators.length < 16 →
    Completes (.enroll id) s (fun t => cmdResult t id = some (stOk, []) ∧
      t.prm.operators = s.prm.operators ++ [{ opid := BitVec.ofNat 16 (arg c 0 2), priv := arg c 2 1, key := padTo 2592 s.host.key }] ∧
      (c.priv = 3 → c.session ∈ t.host.installed) ∧ t.prm.eraseDue.isSome = true)) ∧
  (∀ (id : Nat) (s : State) (c : Cmd) (rest : List Operator), cmdReady s id 0x0051 = some c → s.prm.eraseDue = none →
    rest = s.prm.operators.filter (fun o => !(o.opid == BitVec.ofNat 16 (arg c 0 2))) → rest.length ≠ s.prm.operators.length →
    rest.any (fun o => decide (o.priv = 2)) = true →
    Completes (.revoke id) s (fun t => t.prm.operators = rest ∧ (∀ y ∈ t.host.sessions, y.opid ≠ BitVec.ofNat 16 (arg c 0 2)) ∧
      cmdResult t id = some (stOk, []))) ∧
  (∀ (s : State) (k : Fin 2) (u : Nat), s.prm.eraseDue = some (k, u) →
    Completes .operatorTableErase s (fun t => t.prm.eraseDue = none ∧ (k = 0 → t.flash.opt0 = [] ∧ t.flash.opt1 = s.flash.opt1) ∧
      (k = 1 → t.flash.opt1 = [] ∧ t.flash.opt0 = s.flash.opt0)))

/-- IDENT, ATTEST and ENDORSE (R357, R358, R370, R372). IDENT writes the identity record, and the endorsement if there is one, to the page
asked for; ATTEST writes the report body, its signature and 45 zero bytes; neither writes another byte. ENDORSE stores a blob that
verifies, as its read found it, refuses any other with ENDORSE, and with FLASH where the flash's write fails. -/
def Obligations.IdentityAndAttestation : Prop :=
  (∀ (id : Nat) (s : State) (c : Cmd), cmdReady s id 0x0060 = some c → Memory.wf s.dram = true →
    pageOk s (arg c 0 4) (idRecord s ++ (endorsement s).getD []).length = true →
    Completes (.ident id) s (fun t =>
      memRead t.dram (scratchBase + 4096 * arg c 0 4) (idRecord s ++ (endorsement s).getD []).length = idRecord s ++ (endorsement s).getD [] ∧
      (∀ a, a < scratchBase + 4096 * arg c 0 4 ∨ scratchBase + 4096 * arg c 0 4 + (idRecord s ++ (endorsement s).getD []).length ≤ a →
        memByte t.dram a = memByte s.dram a) ∧
      cmdResult t id = some (stOk, leBytes 4 (idRecord s ++ (endorsement s).getD []).length ++ leBytes 1 (endorsement s).isSome.toNat))) ∧
  (∀ (id : Nat) (s : State) (c : Cmd), cmdReady s id 0x0061 = some c → s.dig.signing = none → pageOk s (arg c 32 4) 5120 = true →
    Memory.wf s.dram = true →
    Completes (.attest id) s (fun t => cmdResult t id = some (stOk, leBytes 4 5120) ∧
      ∃ rnd out, out = attestBody s (c.args.take 32) ++ mldsaSign s.prm.keymem (attestBody s (c.args.take 32)) rnd ++ zeros 45 ∧
        memRead t.dram (scratchBase + 4096 * arg c 32 4) out.length = out ∧
        ∀ a, a < scratchBase + 4096 * arg c 32 4 ∨ scratchBase + 4096 * arg c 32 4 + out.length ≤ a → memByte t.dram a = memByte s.dram a)) ∧
  (∀ (m : MemCmd) (ok : Bool) (s u : State) (c : Cmd), cmdReady s m.id 0x0062 = some c → Reads s u m 0x0062 fwBase 7227 →
    Completes (.endorse m ok) s (fun t => t.dram = u.dram ∧ if arg c 0 4 = 7227 ∧ endorseOk u (fwWindow u 0 7227) = true then
        (ok = true → t.flash.endorse = fwWindow u 0 7227 ∧ cmdResult t m.id = some (stOk, [0])) ∧
        (ok = false → cmdResult t m.id = some (stRefused, [0x07]))
      else t.flash = s.flash ∧ cmdResult t m.id = some (stRefused, [0x0B])))

/-- Firmware (R363 to R366, R370, R373 to R375). FW_STAGE checks the staged image, as its read found it, and writes it to the other slot,
and where a write of the flash fails the control block copy in force stays; FW_ACTIVATE resets the Prompter and so closes every
session, and that the stage door is in BOOTING at once is the model's choice (log 28);
FW_COMMIT ends the trial and raises MIN_SVN if asked to, or is refused with MIN_SVN as it is; FW_STATUS answers and changes neither
flash nor fuses; KEY_REVOKE burns its bit. A release of the Prompter runs only an image whose slot checks out or that the boot record
vouches for, and loads KEYMEM with the identity key. -/
def Obligations.FirmwareUpdateAndRollback : Prop :=
  (∀ (m : MemCmd) (s u : State) (c : Cmd) (ok ctlOk : Bool), cmdReady s m.id 0x0063 = some c → s.cue.run = none →
    (ctlNow s).try_ = 0xFF → s.prm.trial = false → Reads s u m 0x0063 fwBase (min (arg c 0 4) 8388608) →
    Completes (.fwStage m ok ctlOk) s (fun t =>
      if checkFirmware u.fuses (fwWindow u) (fun n => decide (n = arg c 0 4)) = 0 ∧ ok = true ∧ ctlOk = true then
        slotBytes t (1 - u.prm.slot) = fwWindow u 0 (arg c 0 4) ∧ cmdResult t m.id = some (stOk, [0] ++ leBytes 1 (1 - u.prm.slot) ++
          leBytes 1 (imgSvn (fwWindow u 0 (arg c 0 4))) ++ zeros 5 ++ sha3 (fwWindow u 0 (arg c 0 4)))
      else (∃ l, cmdResult t m.id = some (stRefused, l)) ∧ (ctlCopy u = some 0 → t.flash.ctl0 = s.flash.ctl0) ∧
        (ctlCopy u ≠ some 0 → t.flash.ctl1 = s.flash.ctl1))) ∧
  (∀ (id : Nat) (s : State) (c : Cmd), cmdReady s id 0x0064 = some c → s.cue.run = none → (ctlNow s).try_ ≠ 0xFF →
    Completes (.fwActivate id) s (fun t => t.door.st = .booting ∧ t.host.sessions = [] ∧ t.prm.running = false)) ∧
  (∀ (id : Nat) (ok : Bool) (s : State) (c : Cmd), cmdReady s id 0x0065 = some c → s.prm.trial = true →
    Completes (.fwCommit id ok) s (fun t =>
      (ok = true → t.prm.trial = false ∧
        t.fuses.minSvn.val = (if arg c 0 1 = 1 ∧ s.prm.svn ≤ 64 then max s.fuses.minSvn.val s.prm.svn else s.fuses.minSvn.val) ∧
        cmdResult t id = some (stOk, [0] ++ leBytes 1 t.fuses.minSvn.val)) ∧
      (ok = false → t.prm.trial = true ∧ t.fuses = s.fuses ∧ cmdResult t id = some (stRefused, [7] ++ leBytes 1 s.fuses.minSvn.val)))) ∧
  (∀ (id : Nat) (s : State) (c : Cmd), cmdReady s id 0x0066 = some c →
    Completes (.fwStatus id) s (fun t => ∃ l, cmdResult t id = some (stOk, leBytes 1 (ctlNow s).active ++ leBytes 1 s.prm.slot ++
      leBytes 1 (ctlNow s).try_ ++ leBytes 1 (ctlNow s).tried ++ [bootByte s] ++ leBytes 1 s.fuses.minSvn.val ++
      leBytes 1 s.fuses.fwRevoke.toNat ++ [0] ++ l) ∧ t.flash = s.flash ∧ t.fuses = s.fuses)) ∧
  (∀ (id : Nat) (s : State) (c : Cmd), cmdReady s id 0x0067 = some c → arg c 0 1 ≤ 3 → arg c 0 1 ≠ s.prm.keyIdx → onlyKey s (arg c 0 1) = false →
    Completes (.keyRevoke id) s (fun t => t.fuses = { s.fuses with fwRevoke := s.fuses.fwRevoke ||| BitVec.ofNat 4 (1 <<< arg c 0 1) } ∧
      cmdResult t id = some (stOk, [0] ++ leBytes 1 t.fuses.fwRevoke.toNat))) ∧
  (∀ (s : State) (tiles : BitVec 8) (ok : Bool), s.door.st = .booting → s.prm.running = false → s.prm.halted = false →
    Completes (.prompterRelease tiles ok) s (fun t => t.prm.running = !t.prm.halted ∧ t.prm.tiles = tiles ∧
      t.prm.keymem = mldsaPrivate s.fuses.idseed ∧
      (t.prm.running = true → checkSlot s t.prm.slot = 0 ∨ (fastAllowed s t.prm.slot = true ∧ fastMatches s t.prm.slot = true))))

/-- LOAD_SHEET and START_RUN (R85, R93, R109, R341, with R132 and R133 for the read of the image). An image that is accepted as its read
found it is the loaded sheet with its heads and no slot, and PROGRAM is its SHA3-512; an accepted START_RUN begins a run at the sheet's
first step with no step open. Either writes the initial scales of the sheet's heads, and no other memory. -/
def Obligations.SheetLoadsAndRunStarts : Prop :=
  (∀ (m : MemCmd) (s u : State) (c : Cmd) (img : List Byte), cmdReady s m.id 0x0010 = some c → arg c 0 8 ≤ 939524096 →
    checkSheet s (memRead s.dram scratchBase (arg c 0 8)) ≠ .waiting → Reads s u m 0x0010 scratchBase (arg c 0 8) →
    img = memRead u.dram scratchBase (arg c 0 8) → checkSheet u img = .accepted → Memory.wf s.dram = true →
    Completes (.loadSheet m) s (fun t => t.cue.sheet = some (readSheet img) ∧ t.cue.program = sha3 img ∧ t.cue.run = none ∧
      t.harn.slots = [] ∧ t.harn.heads.length = (readSheet img).heads.length ∧ ScalesWritten (readSheet img) u t)) ∧
  (∀ (m : MemCmd) (s u : State) (c : Cmd) (sh : Sheet), cmdReady s m.id 0x0011 = some c → s.cue.sheet = some sh →
    checkStart s (memRead s.dram scratchBase sh.length) ≠ .waiting → Reads s u m 0x0011 scratchBase sh.length → u.cue.sheet = some sh →
    checkStart u (memRead u.dram scratchBase sh.length) = .accepted → Memory.wf s.dram = true →
    Completes (.startRun m) s (fun t => t.cue.sheet = some sh ∧ t.harn.slots = [] ∧
      (∃ r, t.cue.run = some r ∧ r.nextStep = sh.firstStep ∧ r.steps = [] ∧ r.ending = .none) ∧ ScalesWritten sh u t))

/-- STOP with MODE 0, STOP with MODE 1 and the end of the drain (R113, R315, R316, R342). The first takes effect once no step is open, and
answers with the last closed step; the second fails every open instance and empties the intake queue and, but
for the results that the updates still wait for, the Callboard at once; the drain ends when
nothing is in flight, or after 100 ms, and leaves no run, slot or band; the progress entry of each shard whose head the sheet names
holds the head's step and window, and no byte outside the progress entries changes. -/
def Obligations.RunStopsAndDrains : Prop :=
  (∀ (id : Nat) (s : State) (c : Cmd) (r : Run), cmdReady s id 0x0012 = some c → arg c 0 1 = 0 → s.cue.run = some r → r.ending ≠ .recovery →
    Completes (.stop id) s (fun t =>
      (r.steps ≠ [] → t.cue.run = some { r with ending := .stop } ∧ cmdResult t id = none) ∧
      (r.steps = [] → ∀ n sh, s.cue.lastClosed = some n → s.cue.sheet = some sh →
        t.cue.run = none ∧ t.cue.resuming = false ∧ cmdResult t id = some (stOk, stopFields true (BitVec.ofNat 64 n))))) ∧
  (∀ (id : Nat) (s : State) (c : Cmd) (r : Run), cmdReady s id 0x0012 = some c → arg c 0 1 = 1 → s.cue.run = some r → r.ending ≠ .recovery →
    Completes (.stopRecovery id) s (fun t => t.cue.run = some { r with
        ending := .recovery, drainAt := s.time, steps := r.steps.map (fun o => { o with insts := o.insts.map failInst }) } ∧
      t.harn.intake = [] ∧ t.callb.ctxs = s.callb.ctxs.filter (fun x => x.result.isSome) ∧ t.callb.held = [] ∧ t.callb.sums = [])) ∧
  (∀ (s : State) (r : Run), s.cue.run = some r → r.ending = .recovery → (drainBusy s = false ∨ r.drainAt + 100 * ms ≤ s.time) →
    Completes .drainEnd s (fun t => t.cue.run = none ∧ t.cue.resuming = true ∧ t.harn.slots = [] ∧ t.harn.jobs = [] ∧ t.harn.intake = [] ∧ t.prj.bands = [] ∧
      (∀ a, offProgress a → memByte t.dram a = memByte s.dram a) ∧
      (Memory.wf s.dram = true → ∀ i h hd, i ∈ shardIndexes s → headIdx s (readShard s i).hid = some h → s.harn.heads[h]? = some hd →
        memRead t.dram (progressTable + 64 * i) 64 =
          progressBytes { step := hd.step, base := hd.base, valid := true, released := hd.released })))

/-- READMIT, PROGRESS and PB_ACK (R123, R316, R349). READMIT notes each head that has lost the member; PROGRESS answers the shard's
progress entry, after what its reads of the shard table and of the entry report; PB_ACK frees the ring up to a record's end and answers the ring's use in KiB. -/
def Obligations.ReadmissionProgressAndRing : Prop :=
  (∀ (id : Nat) (s : State) (c : Cmd) (sh : Sheet), cmdReady s id 0x0013 = some c → s.cue.sheet = some sh →
    sh.companies.any (fun x => decide (x.number.toNat = arg c 0 2)) = true → arg c 2 1 ≤ 64 →
    Completes (.readmit id) s (fun t => cmdResult t id = some (stOk, []) ∧ t.cue.run = s.cue.run ∧
      ∀ h ∈ companyHeads s (BitVec.ofNat 10 (arg c 0 2)), ((s.harn.heads[h]?).map (fun x => x.lost.getLsbD (arg c 2 1))) = some true →
        (h, arg c 2 1) ∈ t.cue.readmit)) ∧
  (∀ (m : MemCmd) (s u v : State) (c : Cmd) (i : Nat), cmdReady s m.id 0x0014 = some c → Reads s u m 0x0014 shardTable tableBytes →
    findShard u (BitVec.ofNat 16 (arg c 0 2)) = some i → Reads u v m 0x0014 (progressTable + 64 * i) 64 →
    Completes (.progress m) s (fun t => t = endCmd m.id stOk (memRead v.dram (progressTable + 64 * i) 64) v ∧
      cmdResult t m.id = some (stOk, memRead v.dram (progressTable + 64 * i) 64))) ∧
  (∀ (id : Nat) (s : State) (c : Cmd) (r : Nat × Nat × Bool), cmdReady s id 0x0015 = some c → s.dig.ready = [] →
    s.dig.records.find? (fun r => decide (arg c 0 8 ≤ ringBytes) && decide (r.1 % ringBytes = arg c 0 8 % ringBytes)) = some r →
    Completes (.pbAck id) s (fun t => t.dig.freedTo = r.1 ∧ t.dig.records = s.dig.records.filter (fun x => decide (x.1 > r.1)) ∧ t.dram = s.dram ∧
      cmdResult t id = some (stOk, leBytes 4 ((s.dig.writtenTo - r.1 + 1023) / 1024))))

/-- PLAYBILL_WRITE and SIGNATURE_COMPLETE (R113, R208, R210 to R212). The oldest step whose cues have all ended gets its playbill, padded to
whole 64 bytes, in the ring, and closes. A signature that is complete takes 4,800 bytes of the ring, and the playbill that is due is
signed next. Both wait for room, and for the Carriage's earlier work; the bytes are stated where the record does not pass the ring's
end. Nothing else in memory changes, but for the progress entries of the step that closes. -/
def Obligations.PlaybillsAndSignaturesEnterTheRing : Prop :=
  (∀ (s : State) (sh : Sheet) (r : Run) (o : OpenStep) (rest : List OpenStep) (fin : W64 × BitVec 4 × W64) (pb : List Byte) (n : Nat),
    s.cue.sheet = some sh → s.cue.run = some r → r.steps = o :: rest → o.ended = some fin → s.prm.running = true → recovering s = false →
    foldPending s sh o.step = false → carriageClear s 4 = true → s.dig.ready = [] → s.dig.pbAhead.getD 0 = 0 →
    pb = playbill s sh r o fin (playbillDue sh r o.step) → n = (pb.length + 63) / 64 * 64 → ringRoom s n = true → Memory.wf s.dram = true →
    Completes .playbillWrite s (fun t => t.cue.lastClosed = some o.step ∧ openStep t o.step = none ∧ t.dig.last = BitVec.ofNat 32 o.step ∧
      t.dig.writtenTo = s.dig.writtenTo + n ∧ t.dig.records = s.dig.records ++ [(s.dig.writtenTo + n, o.step, false)] ∧
      (s.dig.writtenTo % ringBytes + n ≤ ringBytes → memRead t.dram (ringBase + s.dig.writtenTo % ringBytes) n = padTo n pb) ∧
      ∀ a, offRing s n a → offProgress a → memByte t.dram a = memByte s.dram a)) ∧
  (∀ (s : State) (x : Signing), s.dig.signing = some x → s.prm.running = true → s.prm.keymem ≠ [] → carriageClear s 4 = true → s.dig.ready = [] → s.dig.pbAhead ≠ some 0 →
    ringRoom s 4800 = true → Memory.wf s.dram = true →
    Completes .signatureComplete s (fun t => t.dig.writtenTo = s.dig.writtenTo + 4800 ∧ t.dig.ready = [] ∧
      t.dig.records = s.dig.records ++ [(s.dig.writtenTo + 4800, x.step, true)] ∧
      t.dig.signing = s.dig.due.map (fun y => { y with since := s.time }) ∧ t.dig.due = none ∧
      (s.dig.writtenTo % ringBytes + 4800 ≤ ringBytes → memRead t.dram (ringBase + s.dig.writtenTo % ringBytes) 4800 =
        padTo 4800 (sigHead s x ++ mldsaSign s.prm.keymem (sigHead s x) ((freeNow s).setWidth 256))) ∧
      ∀ a, offRing s 4800 a → memByte t.dram a = memByte s.dram a))

/-- STATE_AUDIT and AUDIT_DONE (R214, with R14, R132 to R134 and R137). A write of DIG_AUDIT with GO starts an audit of the shard it names, or is
refused with AUDIT_REFUSED: during a run, of a shard that is not here, or where the digests do not fit. The audit, in its turn at the
Carriage, and so after a zero fill that came before it, writes the W digests of its segments to the page, as the state words read, and
sets AUDIT_DONE; a write of GO in the same arena cycle then starts, or is refused, the next audit. -/
def Obligations.StateAuditsStartAndEnd : Prop :=
  (∀ (who : Requester) (v : W64) (s : State), reaches who .digAudit true s = true → s.dig.auditJob = none → fld v 63 63 = 1 →
    Completes (.stateAudit who v) s (fun t =>
      if auditRefused s (BitVec.ofNat 16 (fld v 47 32)) (fld v 31 14) then t.dig.auditJob = none ∧ t.dig.sticky = s.dig.sticky ||| 8
      else t.dig.auditJob = some ⟨BitVec.ofNat 16 (fld v 47 32), fld v 31 14, s.issued⟩ ∧ t.dig.sticky = s.dig.sticky)) ∧
  (∀ (errs : List AccErr) (s u : State) (j : AuditJob) (r q : Shard), s.dig.auditJob = some j → carriageTurn s 3 j.issue = true → shardOf s j.hid = some r →
    u = readErrors (stateAddr r 0) (8 * r.len) errs s → shardOf u j.hid = some q → Memory.wf s.dram = true →
    Completes (.auditDone errs) s (fun t => t.dig.sticky.getLsbD 2 = true ∧
      (lastWrite u .digAudit 0 = none → t.dig.auditJob = none ∧ t.dig.sticky = u.dig.sticky ||| 4) ∧
      (∀ v, lastWrite u .digAudit 0 = some v → v.getLsbD 63 = true → t.dig.auditJob =
        if auditRefused t (BitVec.ofNat 16 (fld v 47 32)) (fld v 31 14) then none
        else some ⟨BitVec.ofNat 16 (fld v 47 32), fld v 31 14, u.issued⟩) ∧
      memRead t.dram (scratchBase + 4096 * j.page) (auditDigests u j.hid q).length = auditDigests u j.hid q ∧
      (∀ a, a < scratchBase + 4096 * j.page ∨ scratchBase + 4096 * j.page + (auditDigests u j.hid q).length ≤ a → memByte t.dram a = memByte u.dram a)))

/-- Register accesses (R10, R13, R14, R440 to R446, R449). In a register whose write only sets fields, an RW field then reads what was
written, an RO field what it read before, and the rest zero; in a sticky register a one clears a bit that was set when the arena cycle
began and that the cycle has not set again, and no other bit changes. An access to an offset with no register, to a limited register
through the wrong window, or to a held block is counted and recorded and changes nothing else, and a read of it gives zero. REG_READ
answers the value of its register, and changes nothing where the register has no field that a read clears; REG_WRITE has the effect of
the same REGISTER_WRITE and ends with OK; the Prompter's own reads follow the same rules as WINDOW 3 (log 99). -/
def Obligations.RegisterAccessesReachTheirRegister : Prop :=
  (∀ (who : Requester) (r : Reg) (v : W64) (s : State), reaches who r true s = true → rwMask r ≠ 0 →
    Completes (.registerWrite who (regOffset r) v) s (fun t =>
      regValue (selOf who t) t r = (v &&& rwMask r) ||| (regValue (selOf who s) s r &&& roMask r))) ∧
  (∀ (who : Requester) (r : Reg) (v : W64) (s : State), reaches who r true s = true → isW1c r = true → r ≠ .fltFirst →
    Completes (.registerWrite who (regOffset r) v) s (fun t =>
      regValue (selOf who t) t r = regValue (selOf who s) s r &&& ~~~(v &&& cycleWord (selOf who s) s r))) ∧
  (∀ (who : Requester) (v : W64) (s : State), reaches who .fltFirst true s = true →
    Completes (.registerWrite who (regOffset .fltFirst) v) s (fun t =>
      t.flt.first = s.flt.first &&& ~~~(v &&& cycleWord (selOf who s) s .fltFirst &&& ones 63 63))) ∧
  (∀ (who : Requester) (off : Nat) (v : W64) (s : State), mayAccess who true s = true → off % 8 = 0 → off < 0x100_0000 → regAt off = none →
    Completes (.registerWrite who off v) s (fun t => Violated who 1 off true s t)) ∧
  (∀ (who : Requester) (r : Reg) (v : W64) (s : State), mayAccess who true s = true → limitKind who r true ≠ 0 →
    Completes (.registerWrite who (regOffset r) v) s (fun t => Violated who (limitKind who r true) (regOffset r) true s t)) ∧
  (∀ (who : Requester) (r : Reg) (v : W64) (s : State), mayAccess who true s = true → limitKind who r true = 0 → blockOut s r = true →
    Completes (.registerWrite who (regOffset r) v) s (fun t => Violated who 3 (regOffset r) true s t)) ∧
  (∀ (id : Nat) (s : State) (c : Cmd) (r : Reg) (w : Requester), cmdReady s id 0x0040 = some c → accessRefused c false = none →
    w = .window c.session (Fin.ofNat 3 (arg c 0 1)) → arg c 1 8 = regOffset r → limitKind w r false = 0 → blockOut s r = false → rcFields r = [] →
    r ≠ .prjStatus → readsOpen (selOf w s) s r = false →
    Completes (.regRead (.command id)) s (fun t => t = endCmd id stOk (leBytes 8 (regValue (selOf w s) s r).toNat) s ∧
      cmdResult t id = some (stOk, leBytes 8 (regValue (selOf w s) s r).toNat))) ∧
  (∀ (id : Nat) (s : State) (c : Cmd) (w : Requester), cmdReady s id 0x0040 = some c → accessRefused c false = none →
    w = .window c.session (Fin.ofNat 3 (arg c 0 1)) →
    Completes (.regRead (.command id)) s (fun t => ∃ u, t = endCmd id stOk (leBytes 8 (accessRead w (arg c 1 8) s).1.toNat) u ∧
      (regAt (arg c 1 8) = none → Violated w 1 (arg c 1 8) false s u ∧ cmdResult t id = some (stOk, zeros 8)) ∧
      (∀ r, regAt (arg c 1 8) = some r → limitKind w r false ≠ 0 →
        Violated w (limitKind w r false) (arg c 1 8) false s u ∧ cmdResult t id = some (stOk, zeros 8)) ∧
      (∀ r, regAt (arg c 1 8) = some r → limitKind w r false = 0 → blockOut s r = true →
        Violated w 3 (arg c 1 8) false s u ∧ cmdResult t id = some (stOk, zeros 8)))) ∧
  (∀ (r : Reg) (s : State), s.prm.running = true → blockOut s r = false → rcFields r = [] → r ≠ .prjStatus → readsOpen s.prm.sel s r = false →
    Completes (.regRead (.prompter (regOffset r))) s (fun t => t = emit (.regValue .prompter (regValue s.prm.sel s r)) s)) ∧
  (∀ (off : Nat) (s : State), s.prm.running = true → off % 8 = 0 → off < 0x100_0000 → regAt off = none →
    Completes (.regRead (.prompter off)) s (fun t => ∃ u, t = emit (.regValue .prompter 0) u ∧ Violated .prompter 1 off false s u)) ∧
  (∀ (id : Nat) (s : State) (c : Cmd) (w : Requester), cmdReady s id 0x0041 = some c → accessRefused c true = none →
    w = .window c.session (Fin.ofNat 3 (arg c 0 1)) → mayAccess w true s = true →
    Completes (.regWrite id) s (fun t => ∃ u, exec (.registerWrite w (arg c 1 8) (BitVec.ofNat 64 (arg c 9 8))) s = .next u ∧
      t = endCmd id stOk [] u ∧ ((u.host.cmds.find? (fun c => decide (c.id = id))).isSome = true → cmdResult t id = some (stOk, []))))

/-- Read-to-clear registers (R13, R14, R61, R94, R215, R238, R263, R293, R295, R352, R446): the read gives the value before what the arena
cycle has added, so the whole value where it has added nothing; it clears the counters of that register but for what was added, and
nothing else changes but the note that the cycle's reading is taken. -/
def Obligations.ReadsThatClear : Prop :=
  (∀ (sel : Selectors) (s : State) (r : Reg), cycleWord sel s r = regValue sel s r → readValue sel s r = regValue sel s r) ∧
  (∀ (who : Requester) (s : State), reaches who .wdrOvfCount false s = true → Completes (.wdrOvfCount who) s (fun t =>
    t = emit (.regValue who (readValue (selOf who s) s .wdrOvfCount)) (takeCycle (selOf who s) .wdrOvfCount (ones 63 0)
      ({ s with wdr := { s.wdr with ovf := added s.wdr.ovf (cycleWord (selOf who s) s .wdrOvfCount).toNat 47 0 } })))) ∧
  (∀ (who : Requester) (s : State), reaches who .wdrVoidCount false s = true → Completes (.wdrVoidCount who) s (fun t =>
    t = emit (.regValue who (readValue (selOf who s) s .wdrVoidCount)) (takeCycle (selOf who s) .wdrVoidCount (ones 63 0)
      ({ s with wdr := { s.wdr with void := added s.wdr.void (cycleWord (selOf who s) s .wdrVoidCount).toNat 47 0 } })))) ∧
  (∀ (who : Requester) (s : State), reaches who .harnSpillCount false s = true → Completes (.harnSpillCount who) s (fun t =>
    t = emit (.regValue who (readValue (selOf who s) s .harnSpillCount)) (takeCycle (selOf who s) .harnSpillCount (ones 63 0)
      ({ s with harn := { s.harn with
        spills := added s.harn.spills (cycleWord (selOf who s) s .harnSpillCount).toNat 31 0
        reloads := added s.harn.reloads (cycleWord (selOf who s) s .harnSpillCount).toNat 63 32 } })))) ∧
  (∀ (who : Requester) (s : State) (m : Fin 65), reaches who .harnMbrCnt false s = true → selMember (selOf who s) = some m → Completes (.harnMbrCnt who) s (fun t =>
    t = emit (.regValue who (readValue (selOf who s) s .harnMbrCnt)) (takeCycle (selOf who s) .harnMbrCnt (ones 63 0)
      ({ s with harn := { s.harn with members := vmod s.harn.members m (fun x =>
        { dup := added x.dup (cycleWord (selOf who s) s .harnMbrCnt).toNat 63 48, stale := added x.stale (cycleWord (selOf who s) s .harnMbrCnt).toNat 47 32
          early := added x.early (cycleWord (selOf who s) s .harnMbrCnt).toNat 31 16, mismatch := added x.mismatch (cycleWord (selOf who s) s .harnMbrCnt).toNat 15 0 }) } })))) ∧
  (∀ (who : Requester) (s : State), reaches who .outrEvents false s = true → Completes (.outrEvents who) s (fun t =>
    t = emit (.regValue who (readValue (selOf who s) s .outrEvents)) (takeCycle (selOf who s) .outrEvents (ones 63 0)
      ({ s with outr := { s.outr with
        exact := added s.outr.exact (cycleWord (selOf who s) s .outrEvents).toNat 63 48, growth := added s.outr.growth (cycleWord (selOf who s) s .outrEvents).toNat 47 32
        drift := added s.outr.drift (cycleWord (selOf who s) s .outrEvents).toNat 31 16, abandoned := added s.outr.abandoned (cycleWord (selOf who s) s .outrEvents).toNat 15 0 } })))) ∧
  (∀ (who : Requester) (s : State), reaches who .laneErrCount false s = true → Completes (.laneErrCount who) s (fun t =>
    t = emit (.regValue who (readValue (selOf who s) s .laneErrCount)) (takeCycle (selOf who s) .laneErrCount (ones 63 0)
      (modLane (selLane (selOf who s)) (fun x => { x with
        uncorr := added x.uncorr (cycleWord (selOf who s) s .laneErrCount).toNat 63 48
        corr := added x.corr (cycleWord (selOf who s) s .laneErrCount).toNat 47 16
        pattern := added x.pattern (cycleWord (selOf who s) s .laneErrCount).toNat 15 0 }) s)))) ∧
  (∀ (who : Requester) (s : State), reaches who .linkErrCount false s = true → Completes (.linkErrCount who) s (fun t =>
    t = emit (.regValue who (readValue (selOf who s) s .linkErrCount)) (takeCycle (selOf who s) .linkErrCount (ones 63 0)
      (modLink (selLink (selOf who s)) (fun l => { l with
        crcBad := added l.crcBad (cycleWord (selOf who s) s .linkErrCount).toNat 63 48, replays := added l.replays (cycleWord (selOf who s) s .linkErrCount).toNat 47 32
        naks := added l.naks (cycleWord (selOf who s) s .linkErrCount).toNat 31 16, dropped := added l.dropped (cycleWord (selOf who s) s .linkErrCount).toNat 15 0 }) s)))) ∧
  (∀ (who : Requester) (s : State), reaches who .swcDropCount false s = true → Completes (.swcDropCount who) s (fun t =>
    t = emit (.regValue who (readValue (selOf who s) s .swcDropCount)) (takeCycle (selOf who s) .swcDropCount (ones 63 0)
      ({ s with swc := { s.swc with
        pushout := added s.swc.pushout (cycleWord (selOf who s) s .swcDropCount).toNat 63 48, taildrop := added s.swc.taildrop (cycleWord (selOf who s) s .swcDropCount).toNat 47 32
        aged := added s.swc.aged (cycleWord (selOf who s) s .swcDropCount).toNat 31 16, policed := added s.swc.policed (cycleWord (selOf who s) s .swcDropCount).toNat 15 0 } })))) ∧
  (∀ (who : Requester) (s : State), reaches who .schedQstat false s = true → Completes (.schedQstat who) s (fun t =>
    t = emit (.regValue who (readValue (selOf who s) s .schedQstat)) (takeCycle (selOf who s) .schedQstat (ones 63 0)
      ({ s with sched := { s.sched with
        samples := vmod s.sched.samples (selSwPort (selOf who s)) (fun q => vmod q (selClass (selOf who s)) (fun x => { x with
          maxDepth := raised x.maxDepth (cycleWord (selOf who s) s .schedQstat).toNat 63 43
          maxDelay := raised x.maxDelay (cycleWord (selOf who s) s .schedQstat).toNat 31 0 })) } })))) ∧
  (∀ (who : Requester) (s : State), reaches who .mbxDropCount false s = true → Completes (.mbxDropCount who) s (fun t =>
    t = emit (.regValue who (readValue (selOf who s) s .mbxDropCount)) (takeCycle (selOf who s) .mbxDropCount (ones 63 0)
      ({ s with host := { s.host with
        dropped := added s.host.dropped (cycleWord (selOf who s) s .mbxDropCount).toNat 63 48, authFail := added s.host.authFail (cycleWord (selOf who s) s .mbxDropCount).toNat 47 32
        overrun := added s.host.overrun (cycleWord (selOf who s) s .mbxDropCount).toNat 31 16, evLost := added s.host.evLost (cycleWord (selOf who s) s .mbxDropCount).toNat 15 0 } })))) ∧
  (∀ (who : Requester) (s : State), reaches who .mbxViol false s = true → Completes (.mbxViol who) s (fun t =>
    t = emit (.regValue who (readValue (selOf who s) s .mbxViol)) (takeCycle (selOf who s) .mbxViol (ones 63 0)
      ({ s with flt := { s.flt with violCount := added s.flt.violCount (cycleWord (selOf who s) s .mbxViol).toNat 63 32 } }))))

/-- Register writes with an effect of their own (R99, R196, R234, R270, R276, R292, R383, R407): STG_CTRL with ARM, SCHED_SHAPER, SCHED_POLICER,
SWC_CREDIT and LOCAL_RES with the credit check, the two route registers, after which held frames are
routed again (R281), LEAVE_CTRL, LANE_PORT_CTRL, OUTR_CTRL and FLT_SRC_CTRL. That a write of STG_CTRL, or of a route register, is
remembered for the rest of its arena cycle is the model's way to have it after a hardware update of that cycle (R14, log 14). -/
def Obligations.AccessRowsWriteTheirFields : Prop :=
  (∀ (who : Requester) (v : W64) (s : State), reaches who .stgCtrl true s = true → s.stg.released = true → s.cue.run = none → v.getLsbD 12 = true →
    Completes (.epochArm who v) s (fun t => t = { s with
      written := s.written ++ [(.stgCtrl, 0, v)]
      stg := { s.stg with ctrl := maskIn s.stg.ctrl v (ones 25 16 ||| ones 11 0 ||| ones 12 12) } })) ∧
  (∀ (who : Requester) (v : W64) (s : State) (p : Port), reaches who .schedShaper true s = true → selFabric (selOf who s) = some p →
    Completes (.schedShaper who v) s (fun t => (t.sched.shaper[p.val])[(selClass (selOf who s)).val] = newBucket v s.time ∧
      t = { s with sched := { s.sched with shaper := t.sched.shaper } })) ∧
  (∀ (who : Requester) (v : W64) (s : State) (x : Port × Fin 2), reaches who .schedPolicer true s = true → selPolicer (selOf who s) = some x →
    Completes (.schedPolicer who v) s (fun t => (t.sched.policer[x.1.val])[x.2.val] = newBucket v s.time ∧
      t = { s with sched := { s.sched with policer := t.sched.policer } })) ∧
  (∀ (who : Requester) (v : W64) (s : State) (high : Bool), reaches who (if high then .swcCreditHi else .swcCreditLo) true s = true →
    Completes (.swcCredit who high v) s (fun t =>
      if creditOk (if high then s.swc.creditLo else v) (if high then v else s.swc.creditHi) (fld s.swc.ctrl 29 8) then
        t.swc.creditLo = (if high then s.swc.creditLo else v) ∧ t.swc.creditHi = (if high then v else s.swc.creditHi)
      else t = swcSticky bCreditBad s)) ∧
  (∀ (who : Requester) (v : W64) (s : State), reaches who .swcCtrl true s = true →
    Completes (.localRes who v) s (fun t => if creditOk s.swc.creditLo s.swc.creditHi (fld v 29 8) then fld t.swc.ctrl 29 8 = fld v 29 8
      else fld t.swc.ctrl 29 8 = fld s.swc.ctrl 29 8 ∧ t.swc.sticky = (swcSticky bCreditBad s).swc.sticky)) ∧
  (∀ (who : Requester) (v : W64) (s : State), reaches who .swcRtStatic true s = true →
    Completes (.swcRtStatic who v) s (fun t => t = { routeHeld (modRoute (selOf who s) (fun e => { e with valid := v.getLsbD 63, static := v.setWidth 6 }) s) with
      written := t.written })) ∧
  (∀ (who : Requester) (v : W64) (s : State), reaches who .swcRtSpray true s = true →
    Completes (.swcRtSpray who v) s (fun t => t = { routeHeld (modRoute (selOf who s) (fun e => { e with spray := v }) s) with written := t.written })) ∧
  (∀ (who : Requester) (v : W64) (s : State), reaches who .leaveCtrl true s = true →
    Completes (.leaveCtrl who v) s (fun t => t.rid.ctrl = v &&& (ones 63 32 ||| ones 15 8))) ∧
  (∀ (who : Requester) (v : W64) (s : State), reaches who .lanePortCtrl true s = true →
    Completes (.lanePortCtrl who v) s (fun t => (t.lane.ports[(selLanePort (selOf who s)).val]).ctrl = v &&& (ones 7 2 ||| ones 0 0))) ∧
  (∀ (who : Requester) (v : W64) (s : State), reaches who .outrCtrl true s = true →
    Completes (.outrCtrl who v) s (fun t => t = { s with outr := { s.outr with ctrl := v &&& (ones 47 32 ||| ones 19 12 ||| ones 8 4 ||| ones 0 0) } })) ∧
  (∀ (who : Requester) (v : W64) (s : State) (i : SrcId), reaches who .fltSrcCtrl true s = true → selSource (selOf who s) = some i →
    Completes (.fltSrcCtrl who v) s (fun t => if (allowedReacts i).contains (fld v 2 0) then (t.flt.sources[i.val]).react.toNat = fld v 2 0 ∧ t.flt.reactBad = false
      else t.flt.sources = s.flt.sources ∧ t.flt.reactBad = true))

/-- The stage door (R403, R406, R413, R415, R416). The first beat starts it, a beat of the last plus one keeps it, any other restarts the
Prompter, as do a FATAL, a missed beat, a late boot and an unanswered NMI, until restarts run out and the door gives up. NMI_ACK ends the
NMI; the Prompter is released 1 ms after a restart; ALIVE toggles on its grid while all is well. -/
def Obligations.DoorBeatsAndRestarts : Prop :=
  (∀ (v : W64) (s : State), reaches .prompter .fltBeat true s = true → v.getLsbD 17 = false → v.getLsbD 16 = false →
    Completes (.beat .prompter v) s (fun t =>
      (s.door.st = .booting → t.door.st = .running ∧ t.door.beat = v.setWidth 16 ∧ t.door.beatAt = s.time) ∧
      (s.door.st = .running → v.setWidth 16 = s.door.beat + 1 → t = { s with door := { s.door with beat := v.setWidth 16, beatAt := s.time } }) ∧
      (s.door.st = .running → v.setWidth 16 ≠ s.door.beat + 1 → mayRestart s = true → DoorRestarts s t))) ∧
  (∀ (v : W64) (s : State), reaches .prompter .fltBeat true s = true → v.getLsbD 17 = true → (s.flt.sources[srcFwFatal.val]).st ≠ .active →
    (s.flt.sources[srcFwFatal.val]).react = 4 → s.door.st = .running → mayRestart s = true →
    Completes (.fatal .prompter v) s (fun t => (t.flt.sources[srcFwFatal.val]).st = .active ∧ DoorRestarts s t)) ∧
  (∀ (v : W64) (s : State), reaches .prompter .fltBeat true s = true → v.getLsbD 17 = false → v.getLsbD 16 = true → s.door.st = .running →
    v.setWidth 16 = s.door.beat + 1 →
    Completes (.nmiAck .prompter v) s (fun t => t = { s with flt := { s.flt with nmiAt := none }, door := { s.door with beat := v.setWidth 16, beatAt := s.time } })) ∧
  (∀ (s : State), s.door.st = .running → s.door.beatAt + hbTo s + aoCycle ≤ s.time →
    Completes .heartbeatTimeout s (fun t => (mayRestart s = true → DoorRestarts s t) ∧
      (mayRestart s = false → t.door.st = .givenUp ∧ t.host.sessions = [] ∧ t.prm.running = false))) ∧
  (∀ (s : State), s.door.st = .booting → s.door.bootAt + bootTo s + aoCycle ≤ s.time → mayRestart s = true →
    Completes .bootTimeout s (fun t => DoorRestarts s t)) ∧
  (∀ (s : State) (u : Nat), s.flt.nmiAt = some u → u + 10 * ms ≤ s.time → s.door.st = .running → mayRestart s = true →
    Completes .nmiTimeout s (fun t => DoorRestarts s t)) ∧
  (∀ (s : State), s.door.st = .restarting → s.door.restartAt + ms ≤ s.time →
    Completes .restartRelease s (fun t => t = { s with door := { s.door with st := .booting, bootAt := s.time } })) ∧
  (∀ (s : State), s.rst.porAt < s.time → (s.time - s.rst.porAt) % togglePeriod = 0 → s.door.toggleAt ≠ s.time → aliveOk s = true →
    Completes .aliveToggle s (fun t => t.door.aliveOn = true ∧ t.door.level = !(s.door.aliveOn && s.door.level) ∧
      t.out = .alive (!(s.door.aliveOn && s.door.level)) :: s.out))

/-- Fault sources (R403, R404, R406, R409, R418, R429, R430, R456). A raise makes the source ACTIVE with its INDEX, counts it and brings its
reaction; one of a source that is ACTIVE already is counted where the source is of the event kind, and brings no reaction. The source is
QUIET when the reaction is complete or the condition gone, and OK after the quiet time, when RECOVERIES rises. SUPPLY's condition is gone
1 ms after its last rail is back in range, and stands while one is out (the rail events of the operand are the model's, log 112). The
log's front record goes to the log region, at 64 × (SEQ mod the number of places): that place is the model's choice (log 37). A block
reset of a reaction ends for each unit after its own 1 µs, and the unit comes back at its reset values. HEARTBEAT, which only the door
raises (log 37), and reactions of code 5 are left out of the first clause and of the rows of its kind. -/
def Obligations.FaultSourcesRaiseAndClear : Prop :=
  (∀ (r : Raise) (s : State), r.index.toNat < indexCount r.src → r.src ≠ srcHeartbeat → (s.flt.sources[r.src.val]).st ≠ .active → reactOf s r.src ≠ 5 →
    Completes (.faultRaise [r]) s (fun t => (t.flt.sources[r.src.val]).st = .active ∧ (t.flt.sources[r.src.val]).index = r.index ∧
      (t.flt.sources[r.src.val]).events = satAdd 0xFFFF (s.flt.sources[r.src.val]).events 1 ∧
      (reactOf s r.src = 1 → t.flt.intr = s.flt.intr ||| BitVec.ofNat 32 (1 <<< r.src.val)) ∧ (reactOf s r.src = 2 → t.flt.nmiAt.isSome = true))) ∧
  (∀ (r : Raise) (s : State), r.index.toNat < indexCount r.src → r.src ≠ srcHeartbeat → (s.flt.sources[r.src.val]).st = .active →
    Completes (.faultRaise [r]) s (fun t => (t.flt.sources[r.src.val]).st = .active ∧ t.flt.intr = s.flt.intr ∧ t.flt.nmiAt = s.flt.nmiAt ∧
      (isLevel r.src = true → t.flt = s.flt) ∧
      (isLevel r.src = false → (t.flt.sources[r.src.val]).index = r.index ∧
        (t.flt.sources[r.src.val]).events = satAdd 0xFFFF (s.flt.sources[r.src.val]).events 1))) ∧
  (∀ (ev : RailEvent) (s : State), ev.out = true → (s.flt.sources[srcSupply.val]).st ≠ .active → reactOf s srcSupply ≠ 5 →
    Completes (.supplyExcursion ev) s (fun t => (t.flt.sources[srcSupply.val]).st = .active ∧
      (t.flt.sources[srcSupply.val]).index = BitVec.ofNat 4 ev.rail.val ∧ (ev.rail, none) ∈ t.rst.rails)) ∧
  (∀ (ev : RailEvent) (s : State), ev.out = false →
    Completes (.supplyExcursion ev) s (fun t => t = { s with rst := { s.rst with rails := t.rst.rails } } ∧
      (∀ x ∈ t.rst.rails, x.1 = ev.rail → x.2.isSome = true) ∧ ((ev.rail, none) ∈ s.rst.rails → (ev.rail, some s.time) ∈ t.rst.rails))) ∧
  (∀ (trip : Bool) (s : State), (s.flt.sources[(if trip then srcThermTrip else srcThermWarn).val]).st ≠ .active →
    reactOf s (if trip then srcThermTrip else srcThermWarn) ≠ 5 →
    Completes (.thermalThreshold trip) s (fun t => (t.flt.sources[(if trip then srcThermTrip else srcThermWarn).val]).st = .active)) ∧
  (∀ (i : SrcId) (s : State), isLevel i = false → i ≠ srcHeartbeat → reactionDone s i = true → (s.flt.sources[i.val]).st = .active →
    Completes (.reactionComplete i) s (fun t => t = modSource i (fun x => { x with st := .quiet, since := s.time }) s)) ∧
  (∀ (i : SrcId) (s : State), isLevel i = true → conditionGone s i = true → (s.flt.sources[i.val]).st = .active →
    Completes (.conditionGone i) s (fun t => t = modSource i (fun x => { x with st := .quiet, since := s.time })
      (if i = srcSupply then { s with rst := { s.rst with rails := [] } } else s))) ∧
  (∀ (s : State), (s.flt.sources[srcSupply.val]).st = .active → s.rst.asserted.getLsbD 1 = false →
    (∀ x ∈ s.rst.rails, ∃ u, x.2 = some u ∧ u + ms ≤ s.time) →
    Completes (.conditionGone srcSupply) s (fun t => (t.flt.sources[srcSupply.val]).st = .quiet ∧ t.rst.rails = [])) ∧
  (∀ (s : State), (s.rst.asserted.getLsbD 1 = true ∨ ∃ x ∈ s.rst.rails, ∀ u, x.2 = some u → s.time < u + ms) →
    Completes (.conditionGone srcSupply) s (fun t => t = s)) ∧
  (∀ (i : SrcId) (s : State), (s.flt.sources[i.val]).st = .quiet → (s.flt.sources[i.val]).since + quietTime s + aoCycle ≤ s.time →
    Completes (.quietExpiry i) s (fun t => (t.flt.sources[i.val]).st = .ok ∧
      (t.flt.sources[i.val]).recoveries = satAdd 0xFFFF (s.flt.sources[i.val]).recoveries 1 ∧ (t.flt.sources[i.val]).aliveHeld = false ∧
      (i = srcHeartbeat → t.door.run = 0))) ∧
  (∀ (s : State) (r : LogRec) (rest : List LogRec), s.flt.queue = r :: rest → s.prm.running = true → s.rst.memReady = true →
    carriageClear s 4 = true → Memory.wf s.dram = true →
    Completes .logDrain s (fun t => t.flt.queue = rest ∧
      memRead t.dram (logBase + 64 * (r.seq.toNat % (logBytes / 64))) (logBytes64 r).length = logBytes64 r ∧
      ∀ a, a < logBase + 64 * (r.seq.toNat % (logBytes / 64)) ∨ logBase + 64 * (r.seq.toNat % (logBytes / 64)) + (logBytes64 r).length ≤ a →
        memByte t.dram a = memByte s.dram a)) ∧
  (∀ (s : State), Completes .blockResetEnd s (fun t => t.rst.block = s.rst.block ∧
    t.rst.reactEnds = s.rst.reactEnds.filter (fun x => decide (s.time < x.2)) ∧
    (∀ x ∈ s.rst.reactEnds, x.2 ≤ s.time → t.rst.reactBlock.getLsbD x.1 = false) ∧
    (∀ u, (∀ x ∈ s.rst.reactEnds, x.2 ≤ s.time → x.1 ≠ u) → t.rst.reactBlock.getLsbD u = s.rst.reactBlock.getLsbD u) ∧
    (s.rst.reactBlock.getLsbD unitWardrobe = true → s.rst.block.getLsbD unitWardrobe = false →
      (∃ x ∈ s.rst.reactEnds, x.1 = unitWardrobe ∧ x.2 ≤ s.time) → t.wdr = {})))

/-- FAULT_INFO, FAULT_REACT and FAULT_INJECT (R407, R420): the report of every source, a reaction from the allowed set, and a raise whose log
number is answered. -/
def Obligations.FaultCommandsEnd : Prop :=
  (∀ (id : Nat) (s : State) (c : Cmd), cmdReady s id 0x0080 = some c →
    Completes (.faultInfo id) s (fun t => cmdResult t id = some (stOk, leBytes 8 s.flt.first.toNat ++ leBytes 8 (regValue {} s .fltSdoor).toNat ++
      leBytes 8 (regValue {} s .fltFence).toNat ++ leBytes 8 (regValue {} s .fltQueue).toNat ++ s.flt.sources.toList.flatMap sourceInfo) ∧ t.flt = s.flt)) ∧
  (∀ (id : Nat) (s : State) (c : Cmd) (i : SrcId), cmdReady s id 0x0081 = some c → arg c 0 1 = i.val → (allowedReacts i).contains (arg c 1 1) = true →
    Completes (.faultReact id) s (fun t => (t.flt.sources[i.val]).react.toNat = arg c 1 1 ∧ t.flt.reactBad = false ∧ cmdResult t id = some (stOk, []))) ∧
  (∀ (id : Nat) (s : State) (c : Cmd) (i : SrcId), cmdReady s id 0x0082 = some c → s.cue.run = none → arg c 0 1 = i.val → i ≠ srcHeartbeat →
    arg c 1 1 < indexCount i → (s.flt.sources[i.val]).st ≠ .active → reactOf s i ≠ 4 → reactOf s i ≠ 5 →
    Completes (.faultInject id) s (fun t => (t.flt.sources[i.val]).st = .active ∧ (t.flt.sources[i.val]).index = BitVec.ofNat 4 (arg c 1 1) ∧
      (s.flt.queue.length < 256 → cmdResult t id = some (stOk, leBytes 8 s.flt.logSeq.toNat))))

/-- Reset sources (R423 to R427, R429, R430, R439, R456, R457). A COLD source clears the working state and keeps fuses and flash; of the
fault collector only what waits on the Prompter or on a step boundary goes, which is the model's reading (logs 38 and 68). A WARM source
starts the warm entry, holds nothing yet and clears RST_BLOCK. RST_BLOCK sets its bits, with a unit newly held or released at its reset
values, is refused, or does nothing under a wider reset. A timed source ends; POWER clears faults, Prompter state and backup registers as
well, and takes MAIN_POR with it. MAIN_POR counts SUPPLY without its reaction; that the 12 V rail's loss is told to the box office is
the model's reading (log 38). -/
def Obligations.ResetSourcesAndReaches : Prop :=
  (∀ (who : Requester) (v : W64) (s : State), reaches who .rstCtrl true s = true → fld v 63 56 = 0xB7 → v.getLsbD 1 = true → s.rst.exiting = false →
    Completes (.swCold who v) s (fun t => ColdReached s t ∧ t.rst.asserted.getLsbD 4 = true ∧ t.rst.end4 = s.time + ms ∧ t.flt = { s.flt with
        intr := 0, nmiAt := none, team := s.flt.team &&& ~~~s.flt.liftTeam, array := s.flt.array &&& ~~~s.flt.liftArray, liftTeam := 0, liftArray := 0 } ∧
      t.prm.retained = s.prm.retained ∧ t.rst.backup = s.rst.backup)) ∧
  (∀ (who : Requester) (v : W64) (s : State), reaches who .rstCtrl true s = true → fld v 63 56 = 0xB7 → v.getLsbD 1 = false → v.getLsbD 0 = true →
    s.rst.held = false → s.rst.exiting = false →
    Completes (.swWarm who v) s (fun t => t.rst.warmAt = some (s.rst.warmAt.getD s.time) ∧ t.rst.warmFor.getLsbD 5 = true ∧ t.rst.asserted.getLsbD 5 = true ∧
      t.rst.held = false ∧ t.rst.block = 0 ∧ t.rst.reactBlock = 0 ∧ t.cue = s.cue ∧ t.host = s.host)) ∧
  (∀ (who : Requester) (v : W64) (s : State), reaches who .rstBlock true s = true →
    Completes (.rstBlock who v) s (fun t =>
      if blockRefused (v.setWidth 19) s then t.rst = { s.rst with sticky := s.rst.sticky ||| 0x10 } ∧ t = { s with rst := t.rst, cyc := t.cyc }
      else if s.rst.held || s.rst.warmAt.isSome then t = s
      else t.rst = { s.rst with block := v.setWidth 19 } ∧
        (v.getLsbD 13 ≠ s.rst.block.getLsbD 13 → (v.getLsbD 13 = true ∨ s.rst.reactBlock.getLsbD 13 = false) → t.wdr = {}))) ∧
  (∀ (b : Fin 7) (s : State), 4 ≤ b.val → s.rst.asserted.getLsbD b.val = true → s.rst.warmFor.getLsbD b.val = false → timerEnd s b ≤ s.time →
    Completes (.softwareResetEnd b) s (fun t => t = releaseBit b s ∧ t.rst.asserted.getLsbD b.val = false)) ∧
  (∀ (s : State), s.rst.asserted.getLsbD 0 = false →
    Completes (.standbyPor true) s (fun t => ColdReached s t ∧ t.flt = {} ∧ t.prm = {} ∧ t.rst.backup = Vector.replicate 16 0 ∧ t.rst.asserted.getLsbD 0 = true ∧
      t.rst.asserted.getLsbD 1 = true ∧
      t.boxDie = { s.boxDie with powered := false })) ∧
  (∀ (s : State), s.rst.asserted.getLsbD 0 = true →
    Completes (.standbyPor false) s (fun t => t = emit (.rails true) (releaseBit 0 { s with rst := { s.rst with porAt := s.time } }) ∧
      t.rst.asserted.getLsbD 0 = false)) ∧
  (∀ (rail : Fin 8) (s : State), rail.val ≠ 7 → s.rst.asserted.getLsbD 1 = false →
    Completes (.mainPor true rail) s (fun t => ColdReached s t ∧ t.rst.asserted.getLsbD 1 = true ∧
      (rail.val = 0 → t.boxDie = { s.boxDie with mainLow := true, mainOff := true }) ∧ (rail.val ≠ 0 → t.boxDie = s.boxDie) ∧
      (s.rst.exiting = false → (s.flt.sources[srcSupply.val]).st ≠ .active → (t.flt.sources[srcSupply.val]).st = .active ∧
        (t.flt.sources[srcSupply.val]).index = BitVec.ofNat 4 rail.val ∧
        (t.flt.sources[srcSupply.val]).events = satAdd 0xFFFF (s.flt.sources[srcSupply.val]).events 1))) ∧
  (∀ (rail : Fin 8) (s : State), rail.val ≠ 7 → s.rst.asserted.getLsbD 0 = true → Completes (.mainPor false rail) s (fun t => t = s)) ∧
  (∀ (rail : Fin 8) (s : State), rail.val ≠ 7 → s.rst.asserted.getLsbD 0 = false → s.rst.asserted.getLsbD 1 = true →
    Completes (.mainPor false rail) s (fun t => t.rst.asserted.getLsbD 1 = false ∧ t.boxDie = { s.boxDie with mainLow := false } ∧
      ∀ x ∈ t.rst.rails, x.1 = 7)) ∧
  (∀ (s : State), s.rst.asserted.getLsbD 2 = false →
    Completes (.resetN true) s (fun t => ColdReached s t ∧ t.rst.asserted.getLsbD 2 = true ∧ t.boxDie = s.boxDie)) ∧
  (∀ (s : State), s.rst.asserted.getLsbD 2 = true → Completes (.resetN false) s (fun t => t = releaseBit 2 s)) ∧
  (∀ (s : State), s.rst.asserted.getLsbD 3 = false → s.rst.held = false → s.rst.exiting = false →
    Completes (.warmN true) s (fun t => t.rst.warmAt = some (s.rst.warmAt.getD s.time) ∧ t.rst.asserted.getLsbD 3 = true ∧ t.rst.held = false ∧ t.cue = s.cue))

/-- Warm entry and the way out of reset (R424, R425, R427, R433, R434, R437, R438). The warm entry ends in WARM reach, which keeps memory
and fault sources, or after 50 µs, and never before it, in COLD reach. RESET_EXIT starts when no source is asserted; the on-die units, the PLL lock and a late
lock, the training, the equaliser table and MEM_READY follow. -/
def Obligations.WarmEntryAndExit : Prop :=
  (∀ (s : State) (u : Nat), s.rst.warmAt = some u → s.time < u + 50 * us →
    Completes .warmEntryEnd s (fun t => t.rst.held = true ∧ t.rst.warmAt = none ∧ t.dram = s.dram ∧ t.ws = [] ∧ t.cue = {} ∧ t.harn = {} ∧ t.stg = {} ∧
      t.host.sessions = [] ∧ t.prm.running = false ∧ t.prm.retained = s.prm.retained ∧ t.flt.sources = s.flt.sources ∧ t.fuses = s.fuses)) ∧
  (∀ (s : State) (u : Nat), s.rst.warmAt = some u → u + 50 * us ≤ s.time →
    Completes .warmEntryTimeout s (fun t => ColdReached s t ∧ t.rst.sticky.getLsbD 1 = true)) ∧
  (∀ (s : State) (samples : List (List (BitVec 6))), s.rst.held = true → s.rst.asserted = 0 → s.rst.warmAt = none →
    Completes (.resetExit samples) s (fun t => t.rst.held = false ∧ t.rst.exiting = true ∧ t.rst.exit = exitCode s.rst.widest ∧ t.rst.causeSeen = s.rst.seen ∧
      (s.rst.widest = .warm → t.rst.choice = s.rst.choice) ∧
      (s.rst.widest ≠ .warm → t.rst.choice = match (readStrap (samples.take 4)).1 with
        | some k => BitVec.ofNat 4 k
        | none => 0))) ∧
  (∀ (s : State) (u : Nat), s.rst.warmAt = some u → u + 50 * us ≤ s.time → Completes .warmEntryEnd s (fun t => t = s)) ∧
  (∀ (s : State), s.rst.exiting = true → s.rst.ondie = false →
    Completes .ondieReady s (fun t => t.rst.ondie = true ∧ t.door.st = .booting ∧ t.door.bootAt = s.time ∧ t.rid.released = true)) ∧
  (∀ (s : State), s.rst.held = false → s.rst.warmAt = none → s.rst.refLock = false →
    Completes .refLock s (fun t => t.rst.refLock = true ∧ t.stg = { s.stg with released := true })) ∧
  (∀ (s : State), s.rst.held = false → s.rst.warmAt = none → s.rst.refLock = false → s.rst.exitAt + 10 * ms ≤ s.time →
    Completes .refclkLate s (fun t => t.rst = { s.rst with sticky := s.rst.sticky ||| 8 } ∧ t = { s with rst := t.rst, cyc := t.cyc })) ∧
  (∀ (s : State), s.rst.exiting = true → s.rst.ondie = true → s.rst.exit ≠ 1 →
    Completes .lpddr6Trained s (fun t => t = { s with rst := { s.rst with trained := true } })) ∧
  (∀ (s : State) (reads : List (Option (List Byte))) (b : List Byte), s.rst.held = false → s.rst.optDone = false → readsEnded s reads = true →
    ((reads.take 3).find? (fun x => x.isSome)).bind id = some b → tableOk b = true → (∀ l, l < 512 → (tableEntry b l).isSome = true) →
    Completes (.optDone reads) s (fun t => t.rst.optDone = true ∧ t.lane.loaded = true ∧
      (s.rst.choice.getLsbD 1 = true → ∀ l : Fin 512, (t.lane.lanes[l.val]).entry = defaultEntry) ∧
      (s.rst.choice.getLsbD 1 = false → ∀ l : Fin 512, some (t.lane.lanes[l.val]).entry = tableEntry b l.val))) ∧
  (∀ (s : State), s.rst.held = false → s.rst.optDone = false → s.rst.choice.getLsbD 1 = false → reactOf s srcLane ≠ 5 →
    Completes (.optDone [none, none, none]) s (fun t => t.rst.optDone = true ∧ (∀ l : Fin 512, (t.lane.lanes[l.val]).entry = defaultEntry) ∧
      (t.flt.sources[srcLane.val]).st = .active)) ∧
  (∀ (s : State), s.rst.choice.getLsbD 1 = false → Completes (.optDone [none]) s (fun t => t = s)) ∧
  (∀ (s : State), s.rst.exiting = true → s.rst.ondie = true → (s.rst.exit = 1 ∨ s.rst.trained = true) →
    Completes .memReady s (fun t => t.rst.memReady = true ∧ t.rst.ready = true ∧ t.rst.exiting = false ∧ t.rst.exits = satAdd 0xFFFF s.rst.exits 1 ∧ t.rst.seen = 0))

/-- The stage clock (R97, R99, R100, R103). A TMARK edge loads the epoch when armed and no run is active; a judged grid point takes the
captured offset or counts a miss, and two misses in a row are HOLDOVER; a slew moves the clock one tick; a second of HOLDOVER ends in
FREE; 64 periods with no notice leave MACHINE; a lost lock stops the clock and a found one leaves it FREE, which a cued run still active
cannot go on in. An edge finds STG_CTRL as it stood before a write of its own arena cycle, whose ARM stays set (R14, log 14). -/
def Obligations.StageClockFollowsTheGrid : Prop :=
  (∀ (s : State) (c : W64), s.stg.released = true → s.stg.st ≠ .stopped →
    c = (if (lastWrite s .stgCtrl 0).isSome then cycleWord {} s .stgCtrl else s.stg.ctrl) →
    Completes .tmarkEdge s (fun t => t.stg.inForce = c &&& ~~~(put 1 1 12) ∧
      (c.getLsbD 12 = true → s.cue.run = none → t.stg.now = s.stg.epochReg ∧ t.stg.epoch = s.stg.epochReg ∧ t.stg.grid = 0 ∧
        t.stg.st = (if c.getLsbD 7 then .machine else .rack)) ∧
      (c.getLsbD 12 = true → s.cue.run ≠ none → t.stg.now = s.stg.now ∧ t.stg.sticky.getLsbD 3 = true) ∧
      (c.getLsbD 12 = true → lastWrite s .stgCtrl 0 = none → t.stg.ctrl.getLsbD 12 = false) ∧
      (∀ v, lastWrite s .stgCtrl 0 = some v → v.getLsbD 12 = true → t.stg.ctrl = s.stg.ctrl) ∧
      (c.getLsbD 12 = false → t.stg.now = s.stg.now ∧ t.stg.st = s.stg.st))) ∧
  (∀ (s : State), s.stg.released = true → tracking s = true → gridPoint s s.stg.nextK + 16 < (s.stg.now.toNat : Int) → reactOf s srcStageHold ≠ 5 →
    Completes .gridPointJudged s (fun t => t.stg.nextK = s.stg.nextK + 1 ∧ t.stg.captured = none ∧
      (∀ p, s.stg.captured = some p → t.stg.missed = 0 ∧ t.stg.slew = s.stg.slew - p ∧ (s.stg.st = .holdover → t.stg.st = alignedState s)) ∧
      (s.stg.captured = none → t.stg.missed = s.stg.missed + 1 ∧ t.stg.sticky.getLsbD 0 = true ∧
        (s.stg.missed ≥ 1 → s.stg.st ≠ .holdover → t.stg.st = .holdover ∧ t.stg.holdAt = s.time ∧ t.stg.sticky.getLsbD 1 = true)))) ∧
  (∀ (s : State), s.stg.released = true → tracking s = true → s.stg.slew ≠ 0 → s.stg.sinceSlew + 1 ≥ 4096 →
    Completes .slewCorrection s (fun t => t = { passCycle s with
      time := s.time + 1
      stg := { s.stg with now := s.stg.now + (if s.stg.slew > 0 then 2 else 0), slew := s.stg.slew + (if s.stg.slew > 0 then -1 else 1), sinceSlew := 0 } })) ∧
  (∀ (s : State), s.stg.st = .holdover → s.stg.holdAt + 1000 * ms ≤ s.time →
    Completes .holdoverExpiry s (fun t => t.stg.st = .free ∧ t.stg.now = s.stg.now ∧ t.stg.slew = 0)) ∧
  (∀ (s : State), s.stg.st = .machine → stgRoot s = false → s.stg.noticeAt + 64 * tmarkPeriod ≤ s.time →
    Completes .noticeTimeout s (fun t => t = { s with stg := { s.stg with st := .rack } })) ∧
  (∀ (s : State), s.stg.released = true → s.stg.st ≠ .stopped → reactOf s srcStagePll ≠ 5 →
    Completes .pllUnlock s (fun t => t.stg.st = .stopped ∧ t.stg.now = s.stg.now ∧ t.stg.sticky.getLsbD 4 = true)) ∧
  (∀ (s : State), s.stg.st = .stopped → Completes .pllRelock s (fun t => t.stg = { s.stg with st := .free } ∧
    ∀ r sh, s.cue.run = some r → s.cue.sheet = some sh → sh.liberty = false → t.cue.sticky.getLsbD 6 = true))

/-- The time tree (R97, R101, R260, R261). A leader starts an exchange each period, takes THETA from its answer and averages sixteen; the notice
of a period carries GRID less THETA; a rack takes the notices of its own leader once each; a notice due moves the grid by slew, by a
load when no run is active, or not at all, and its flags move the clock between RACK and MACHINE. That MACHINE in a notice needs an
exchange held and HOLD is counted from the last usable exchange (log 57), that a correction adds to what is left of an unfinished one
(log 95), and what a notice with both flags does (log 94) are the model's choices. -/
def Obligations.TimeTreeAndNotices : Prop :=
  (∀ (s : State), s.stg.released = true → stgLeader s = true → tracking s = true → s.stg.exchangeK ≠ some (periodNow s) → isOpen s (stgParent s) = true →
    (s.lane.ports[(stgParent s).val]).startAt.isSome = true →
    Completes .timeExchangeStart s (fun t => t.stg = { s.stg with
      exchange := some ((s.lane.ports[(stgParent s).val]).startSfc, (s.lane.ports[(stgParent s).val]).startStg), exchangeK := some (periodNow s) })) ∧
  (∀ (s : State) (pk : Packet) (sfc : BitVec 16) (t1 t4 : W64), pk.kind = kTime → lengthOk pk = true → s.stg.released = true → (byteAt pk.bytes 0).getLsbD 0 = true →
    (byteAt pk.bytes 0).getLsbD 1 = true → (byteAt pk.bytes 0).getLsbD 2 = false → s.stg.exchange = some (sfc, t1) → stgLeader s = true →
    leAt pk.bytes 2 2 = sfc.toNat → sfcTick s (stgParent s) (BitVec.ofNat 16 (leAt pk.bytes 4 2)) = some t4 →
    Completes (.time (stgParent s) pk) s (fun t => t.stg.exchange = none ∧ t.stg.usableAt = s.time ∧ t.stg.now = s.stg.now ∧
      t.stg.thetas = (((leAt pk.bytes 16 8 : Int) - t1.toNat) - ((t4.toNat : Int) - (leAt pk.bytes 24 8 : Int))) :: s.stg.thetas.take 15 ∧
      t.stg.theta = thetaMean t.stg.thetas)) ∧
  (∀ (s : State), s.stg.released = true → stgLeader s = true → tracking s = true → s.stg.noticeK ≠ some (periodNow s) →
    Completes .noticeSend s (fun t => t.stg.noticeK = some (periodNow s) ∧ t.stg.noticeAt = s.time ∧
      ∃ n, t.stg.notices = s.stg.notices ++ [n] ∧ n.grid = BitVec.ofInt 32 (s.stg.grid.toInt - s.stg.theta) ∧
        n.hold = decide (s.stg.usableAt + 16 * tmarkPeriod ≤ s.time) ∧ (n.hold = true → t.stg.sticky.getLsbD 2 = true) ∧
        n.machine = (!s.stg.thetas.isEmpty && decide (s.stg.theta.natAbs ≤ 10) && decide (stgDepth s ≤ 8)))) ∧
  (∀ (s : State) (p : Port) (pk : Packet), pk.kind = kNotice → lengthOk pk = true → s.stg.released = true →
    s.stg.seen.contains (BitVec.ofNat 10 (leAt pk.bytes 0 2), BitVec.ofNat 64 (leAt pk.bytes 8 8)) = false → BitVec.ofNat 10 (leAt pk.bytes 0 2) = stgRack s →
    Completes (.notice p pk) s (fun t => t.stg.noticeAt = s.time ∧ t.stg.notices = s.stg.notices ++ [⟨BitVec.ofNat 64 (leAt pk.bytes 8 8), BitVec.ofNat 32 (leAt pk.bytes 4 4),
        (byteAt pk.bytes 2).toNat.testBit 0, (byteAt pk.bytes 2).toNat.testBit 1⟩] ∧
      t.stg.seen = (stgRack s, BitVec.ofNat 64 (leAt pk.bytes 8 8)) :: s.stg.seen.take 3)) ∧
  (∀ (s : State) (n : NoticeRec) (rest : List NoticeRec), s.stg.released = true → tracking s = true → s.stg.notices = n :: rest → gridPoint s n.k.toNat ≤ (s.stg.now.toNat : Int) →
    Completes .noticeApply s (fun t => t.stg.notices = rest ∧
      ((n.grid.toInt - s.stg.grid.toInt).natAbs ≤ 1000 → t.stg.grid = n.grid ∧ t.stg.now = s.stg.now ∧ t.stg.slew = s.stg.slew + (n.grid.toInt - s.stg.grid.toInt)) ∧
      ((n.grid.toInt - s.stg.grid.toInt).natAbs > 1000 → s.cue.run = none → t.stg.grid = n.grid ∧
        t.stg.now = BitVec.ofInt 64 ((s.stg.now.toNat : Int) + (n.grid.toInt - s.stg.grid.toInt))) ∧
      ((n.grid.toInt - s.stg.grid.toInt).natAbs > 1000 → s.cue.run ≠ none → t.stg.grid = s.stg.grid ∧ t.stg.now = s.stg.now ∧ t.stg.st = s.stg.st ∧
        t.stg.sticky.getLsbD 5 = true) ∧
      (((n.grid.toInt - s.stg.grid.toInt).natAbs ≤ 1000 ∨ s.cue.run = none) → t.stg.noticeAt = s.time ∧
        (s.stg.st = .rack → n.machine = true → t.stg.st = .machine) ∧
        (s.stg.st = .machine → stgRoot s = false → n.hold = true → t.stg.st = .rack) ∧
        ((s.stg.st = .rack → n.machine = false) → (s.stg.st = .machine → stgRoot s = true ∨ n.hold = false) → t.stg.st = s.stg.st))))

/-- Steps and cues (R113, R114, R118, R119, R121, R122). A step opens behind those that are open; a cue that may launch is launched at the
tick it is now; a running cue past its deadline is LATE, also where its action tick falls in the same tick; at the action tick the
missing members of the head are counted, and a cue that is DONE before it has missed none. The late policy (R120, R121, R123): a missing
lead, and any missing member under WAIT, leaves the cue WAITING; under EXCLUDE a member that is no lead is left out of the instance, and
at MISS_N misses the company is re-formed without it. That re-forming clears the bit also in a head where the member is a lead is the
model's choice (log 96). -/
def Obligations.StepsOpenAndCuesLaunch : Prop :=
  (∀ (s : State) (sh : Sheet) (r : Run), s.cue.sheet = some sh → s.cue.run = some r → mayOpen s sh r = true →
    Completes .stepOpen s (fun t => t.cue.stepNow = r.nextStep ∧
      ∃ r', t.cue.run = some r' ∧ r'.nextStep = r.nextStep + 1 ∧ r'.steps.map (fun o => o.step) = r.steps.map (fun o => o.step) ++ [r.nextStep])) ∧
  (∀ (s : State) (sh : Sheet) (r : Run) (o : OpenStep) (i : Inst) (w : CueWord) (step cue : Nat), s.cue.sheet = some sh → s.cue.run = some r → openStep s step = some o →
    instOf s step cue = some i → cueWord s cue = some w → mayLaunch s sh r o i w = true →
    Completes (.cueLaunch step cue) s (fun t => ∃ i', instOf t step cue = some i' ∧ i'.launched = true ∧ i'.launchAt = s.stg.now.toNat)) ∧
  (∀ (s : State) (i : Inst) (w : CueWord) (step cue : Nat), instOf s step cue = some i → cueWord s cue = some w → i.st = .running → tickReached s i w 0 = true →
    Completes (.deadline step cue) s (fun t => (∃ i', instOf t step cue = some i' ∧ i'.st = .late ∧ i'.late = true) ∧ t.cue.sticky = s.cue.sticky ||| 1)) ∧
  (∀ (s : State) (i : Inst) (w : CueWord) (step cue : Nat), instOf s step cue = some i → cueWord s cue = some w → i.acted = false → tickReached s i w (cGrace w) = true →
    headed (cKind w) = false →
    Completes (.actionTick step cue) s (fun t => t = modInst step cue (fun i => { i with acted := true }) (makeLate step cue s))) ∧
  (∀ (s : State) (i : Inst) (w : CueWord) (step cue h : Nat) (sh : SheetHead) (hd : Head), instOf s step cue = some i → cueWord s cue = some w → i.acted = false →
    tickReached s i w (cGrace w) = true → headed (cKind w) = true → headIdx s (cHid w) = some h → sheetHead s h = some sh → s.harn.heads[h]? = some hd →
    Completes (.actionTick step cue) s (fun t => ∃ i', instOf t step cue = some i' ∧ i'.acted = true ∧
      (i.st = .done → t = clearMisses h (modInst step cue (fun i => { i with acted := true }) s)) ∧
      (i.st ≠ .done → i'.missing = ((slotsOf hd.expected).filter (fun m => decide (unreceived s h step m > 0))).length))) ∧
  (∀ (s : State) (i : Inst) (w : CueWord) (step cue h m : Nat) (sh : SheetHead) (hd : Head), instOf s step cue = some i → cueWord s cue = some w → i.acted = false →
    tickReached s i w (cGrace w) = true → headed (cKind w) = true → headIdx s (cHid w) = some h → sheetHead s h = some sh → s.harn.heads[h]? = some hd →
    i.st ≠ .done → m ∈ slotsOf hd.expected → unreceived s h step m > 0 →
    Completes (.actionTick step cue) s (fun t =>
      (memberCount t sh.company m).missed = satAdd 0xFFFF (memberCount s sh.company m).missed 1 ∧
      ((sh.leads.getLsbD m = true ∨ cLate w ≠ 1) → ∃ i', instOf t step cue = some i' ∧ i'.waited = true) ∧
      (sh.leads.getLsbD m = true → t.cue.sticky.getLsbD 3 = true) ∧
      (cLate w ≠ 1 → t.harn = s.harn) ∧
      (cLate w = 1 → sh.leads.getLsbD m = false → (∃ i', instOf t step cue = some i' ∧ i'.leftOut = true) ∧ t.cue.sticky.getLsbD 1 = true ∧
        cGrace w ≤ (memberCount t sh.company m).worst ∧
        ∃ hd', t.harn.heads[h]? = some hd' ∧ hd'.expected.getLsbD m = false ∧ hd'.leftOut.getLsbD m = true) ∧
      (cLate w = 1 → sh.leads.getLsbD m = false → cMissN w ≤ min 15 ((memberCount s sh.company m).consec.toNat + 1) →
        t.cue.sticky.getLsbD 2 = true ∧ (memberCount t sh.company m).excluded = true ∧
        ∀ k sk hk, sheetHead s k = some sk → sk.company = sh.company → t.harn.heads[k]? = some hk → hk.expected.getLsbD m = false ∧ hk.lost.getLsbD m = true)))

/-- Plans, the live set and admissions (R299, R300, R306, R307, R310 to R314). LOAD_PLAN: an image that passes every check of Table
Topology-2 is committed: its plan is in force, every module of it is live, and nothing is placed; it answers PLAN_ID. SET_LIVE: bit i
of the bitmap keeps entry i of the plan. ADMIT with 1 opens an OFF_BOOK link whatever its peer; ADMIT with 0 sends a link back to
OFF_BOOK where its peer does not fit. PLACE: the rows and the digest that placement computes are in force, and it answers the number of
rows and the digest; it is refused with FULL where a module would hold too many states, and with NO_SPINE where an upper head has no
plane. The memory is read as it stands after what the reads of the command report is taken in (log 98). -/
def Obligations.PlansLiveSetAndAdmissions : Prop :=
  (∀ (m : MemCmd) (s u : State) (c : Cmd) (b : List Byte), cmdReady s m.id 0x0020 = some c → arg c 0 4 ≤ 1048576 →
    Reads s u m 0x0020 planWindow (arg c 0 4) → b = memRead u.dram planWindow (arg c 0 4) → checkPlan u b = none →
    Completes (.loadPlan m) s (fun t => t.topo.plan = some (readPlan b) ∧ t.topo.live = planSerials (readPlan b) ∧ t.topo.placed = false ∧
      cmdResult t m.id = some (stOk, reasonFields 0 0 ++ leBytes 8 (readPlan b).id.toNat) ∧
      t = endCmd m.id stOk (reasonFields 0 0 ++ leBytes 8 (readPlan b).id.toNat) (commitPlan (readPlan b) u))) ∧
  (∀ (id : Nat) (s : State) (c : Cmd) (p : Plan), cmdReady s id 0x0021 = some c → s.cue.run = none → s.topo.plan = some p →
    Completes (.setLive id) s (fun t => cmdResult t id = some (stOk, []) ∧ t.topo.plan = some p ∧ t.topo.live =
        ((planSerials p).zipIdx.filter (fun x => (byteAt c.args (x.2 / 8)).getLsbD (x.2 % 8))).map (·.1))) ∧
  (∀ (id : Nat) (s : State) (c : Cmd) (p : Port) (r : Roll), cmdReady s id 0x0023 = some c → arg c 1 1 = 1 → arg c 0 1 = p.val →
    (s.link[p.val]).state = .offBook → (s.link[p.val]).peerRoll = some r →
    Completes (.admitLink id) s (fun t => cmdResult t id = some (stOk, []) ∧ (t.link[p.val]).state = .opened ∧ (t.link[p.val]).hostAdmit = true)) ∧
  (∀ (id : Nat) (s : State) (c : Cmd) (p : Port) (r : Roll), cmdReady s id 0x0023 = some c → arg c 1 1 = 0 → arg c 0 1 = p.val →
    (s.link[p.val]).state = .opened → (s.link[p.val]).peerRoll = some r → peerMatches s p r = false →
    Completes (.admitWithdraw id) s (fun t => cmdResult t id = some (stOk, []) ∧ (t.link[p.val]).state = .offBook ∧ (t.link[p.val]).hostAdmit = false)) ∧
  (∀ (m : MemCmd) (s u v : State) (c : Cmd) (p : Plan) (req : List PlaceShard) (cs : List PlaceCompany), cmdReady s m.id 0x0022 = some c → s.cue.run = none →
    s.topo.plan = some p → 72 * arg c 0 2 + 32 * arg c 2 4 ≤ 133169152 →
    Reads s u m 0x0022 placeWindow (72 * arg c 0 2 + 32 * arg c 2 4) → Reads u v m 0x0022 shardTable tableBytes →
    cs = (List.range (arg c 0 2)).map (fun i => readPlaceCompany (memRead v.dram (placeWindow + 72 * i) 72)) →
    req = (List.range (arg c 2 4)).map (fun i => readPlaceShard (memRead v.dram (placeWindow + 72 * arg c 0 2 + 32 * i) 32)) →
    Completes (.place m) s (fun t =>
      ((∃ l ∈ (assignShards v p req).2, l > 40000000000) → t = endCmd m.id stFull [] v) ∧
      ((∀ l ∈ (assignShards v p req).2, l ≤ 40000000000) → (∃ x ∈ req, x.upper = true ∧ upperPlane v p x.hid = none) → t = endCmd m.id stNoSpine [] v) ∧
      ((∀ l ∈ (assignShards v p req).2, l ≤ 40000000000) → (∀ x ∈ req, x.upper = true → (upperPlane v p x.hid).isSome = true) →
        (placeRecords v p (assignShards v p req).1 = none → t = endCmd m.id stFull [] v) ∧
        (∀ w, placeRecords v p (assignShards v p req).1 = some w → t.topo.placed = true ∧ t.topo.rows = placeRows w p cs (assignShards v p req).1 ∧
          t.topo.placeDigest = placeDigest (assignShards v p req).1 ∧ t.dram = w.dram ∧
          cmdResult t m.id = some (stOk, leBytes 4 t.topo.rows.length ++ zeros 4 ++ t.topo.placeDigest)))))

/-- Shards (R136, R137, R138, R153). SHARD_CREATE writes an OWNER record with no steps done and starts its zero fill; ZERO_FILL_DONE,
in its turn at the Carriage (R134), leaves the record's state bytes zero; SHARD_REMOVE frees the record; PROMOTE makes an understudy the owner, with no partner. No
other byte of memory changes but for the words that the command's reads of the shard table lose (R133, log 98). -/
def Obligations.ShardsCreateFillRemoveAndPromote : Prop :=
  (∀ (m : MemCmd) (s u : State) (c : Cmd) (i base : Nat), cmdReady s m.id 0x0030 = some c → arg c 2 8 ≠ 0 → arg c 2 8 ≤ 2 ^ 32 →
    Reads s u m 0x0030 shardTable tableBytes →
    findShard u (BitVec.ofNat 16 (arg c 0 2)) = none → freeRecord u = some i → findRoom u (arg c 2 8) = some base → Memory.wf u.dram = true →
    Completes (.shardCreate m) s (fun t => cmdResult t m.id = some (stOk, leBytes 8 base) ∧ t.grm.fills = u.grm.fills ++ [(i, u.issued)] ∧
      readShard t i = { hid := BitVec.ofNat 16 (arg c 0 2), role := roleOwner, seedout := false, diverged := false, uport := 0, uslot := 0, len := arg c 2 8
                        base := base, age := 0, p1 := 0x3FE0_0000_0000, p2 := 0x3FE0_0000_0000, partner := 0, last := 0xFFFF_FFFF_FFFF_FFFF } ∧
      (∀ a, a < shardAddr i ∨ shardAddr i + 64 ≤ a → memByte t.dram a = memByte u.dram a))) ∧
  (∀ (ri : Fin 4096) (s : State) (n : Nat), (ri.val, n) ∈ s.grm.fills → carriageTurn s 3 n = true →
    Completes (.zeroFillDone ri) s (fun t => (∀ f ∈ t.grm.fills, f.1 ≠ ri.val) ∧
      (∀ k, k < stateSize (readShard s ri.val).len → memByte t.dram ((readShard s ri.val).base + k) = 0) ∧
      (∀ a, a < (readShard s ri.val).base ∨ (readShard s ri.val).base + stateSize (readShard s ri.val).len ≤ a → memByte t.dram a = memByte s.dram a))) ∧
  (∀ (m : MemCmd) (s u : State) (c : Cmd) (i : Nat), cmdReady s m.id 0x0031 = some c → Reads s u m 0x0031 shardTable tableBytes →
    findShard u (BitVec.ofNat 16 (arg c 0 2)) = some i →
    runNames u (BitVec.ofNat 16 (arg c 0 2)) = false → Memory.wf u.dram = true →
    Completes (.shardRemove m) s (fun t => cmdResult t m.id = some (stOk, []) ∧ (readShard t i).role = roleFree ∧ (∀ f ∈ t.grm.fills, f.1 ≠ i) ∧
      (∀ a, a < shardAddr i ∨ shardAddr i + 64 ≤ a → memByte t.dram a = memByte u.dram a))) ∧
  (∀ (m : MemCmd) (s u : State) (c : Cmd) (i : Nat), cmdReady s m.id 0x0032 = some c → s.cue.run = none → Reads s u m 0x0032 shardTable tableBytes →
    findShard u (BitVec.ofNat 16 (arg c 0 2)) = some i → (readShard u i).role = roleUnderstudy → Memory.wf u.dram = true →
    Completes (.promote m) s (fun t => cmdResult t m.id = some (stOk, []) ∧
      readShard t i = { readShard u i with role := roleOwner, uport := 0, uslot := 0, partner := 0 } ∧
      (∀ a, a < shardAddr i ∨ shardAddr i + 64 ≤ a → memByte t.dram a = memByte u.dram a)))

/-- Leave (R126, R376 to R386, R400). LEAVE_REQUEST queues the request; LEAVE_GRANT books the class's watts, never above the pool;
LEAVE_RELEASE and WINDOW_END end a grant, which stays as a tail while it has issues in flight, and ISSUE_TAIL_END ends the tail.
WINDOW_OPEN opens a window where it fits and defers it where it does not. RAMP_STEP counts a µs of the ramp. THROTTLE_UPDATE raises
the level above 98% of CAP and lowers it after 16 updates below 94%. LEAVE_INFO answers Table Leave-6. -/
def Obligations.LeaveIsGrantedRampedAndEnded : Prop :=
  (∀ (id : Nat) (s : State) (c : Cmd), cmdReady s id 0x0070 = some c →
    Completes (.leaveInfo id) s (fun t => cmdResult t id = some (stOk, leBytes 2 ((capNow s).getD 0) ++ leBytes 2 ((s.rid.board.map (·.1)).getD 0) ++
      leBytes 2 (fld s.rid.ctrl 63 48) ++ leBytes 2 (didtNow s) ++ leBytes 2 (fld s.rid.ctrl 47 32) ++ leBytes 2 (held s) ++
      leBytes 2 s.rid.pest.toNat ++ leBytes 1 s.rid.level ++ [0]) ∧ t.rid = s.rid)) ∧
  (∀ (step cue : Nat) (s : State) (i : Inst) (w : CueWord), instOf s step cue = some i → cueWord s cue = some w → mayRequest s step cue i w = true →
    Completes (.leaveRequest step cue) s (fun t => (⟨step, cue, BitVec.ofNat 4 (cLclass w), s.time⟩ : LeaveReq) ∈ t.rid.requests ∧
      t.rid.requests.length = s.rid.requests.length + 1 ∧ (∀ q ∈ s.rid.requests, q ∈ t.rid.requests) ∧ t.rid.grants = s.rid.grants)) ∧
  (∀ (s : State) (q : LeaveReq) (rest : List LeaveReq), s.rid.requests = q :: rest → endsFirst s = false → windowsFirst s = false →
    grantFits s (classWatts q.lclass.toNat + (if libertyMode s then 0 else soonWatts s)) (ordinaryRamp s) = true →
    Completes .leaveGrant s (fun t => held t = held s + classWatts q.lclass.toNat ∧ held t ≤ poolNow s ∧
      t = { s with rid := { s.rid with
        requests := rest, nextId := s.rid.nextId + 1
        grants := s.rid.grants ++ [{ id := s.rid.nextId, window := none, step := q.step, cue := q.cue, lclass := q.lclass
                                     watts := classWatts q.lclass.toNat, ramp := ordinaryRamp s, rampAt := s.time, grantedAt := s.time }] } })) ∧
  (∀ (grant : Nat) (s : State) (g : Grant) (win : Bool), findGrant s grant = some g → (if win then endDue s g else releaseDue s g) = true →
    Completes (if win then .windowEnd grant else .leaveRelease grant) s (fun t =>
      (g.inFlight = 0 → t = { s with rid := { s.rid with grants := s.rid.grants.filter (fun x => !decide (x.id = grant)) } }) ∧
      (g.inFlight ≠ 0 → t = modGrant grant (fun x => { x with st := .tail }) s))) ∧
  (∀ (step entry tk : Nat) (s : State) (p : PreGrant), openTick s step entry = some tk → endsFirst s = false → earlierWindow s tk step entry = false →
    windowGrant s step entry = none → preGrantOf s entry = some p →
    Completes (.windowOpen step entry) s (fun t => ∃ g, t.rid.grants = s.rid.grants ++ [g] ∧ g.window = some entry ∧ g.step = step ∧
      g.startTick = tk ∧ g.endTick = tk + p.length ∧ g.watts = max p.watts (classWatts p.lclass.toNat) ∧
      (if grantFits s g.watts p.ramp then g.st = .running ∧ t.rid.sticky = s.rid.sticky
       else g.st = .deferred ∧ t.rid.sticky = s.rid.sticky ||| 8))) ∧
  (∀ (grant : Nat) (s : State) (g : Grant), findGrant s grant = some g → g.st = .tail → g.inFlight = 0 →
    Completes (.issueTailEnd grant) s (fun t => t = { s with rid := { s.rid with grants := s.rid.grants.filter (fun x => !decide (x.id = grant)) } })) ∧
  (∀ (grant : Nat) (s : State) (g : Grant), findGrant s grant = some g → ramping g = true → g.rampAt + us ≤ s.time →
    Completes (.rampStep grant) s (fun t => t = modGrant grant (fun x => { x with rampUs := x.rampUs + 1, rampAt := x.rampAt + us }) s)) ∧
  (∀ (pest : BitVec 16) (s : State) (cap : Nat), s.rid.released = true → s.rid.throttleAt + us ≤ s.time → capNow s = some cap →
    Completes (.throttleUpdate pest) s (fun t => t.rid.pest = pest ∧ t.rid.throttleAt = s.rid.throttleAt + us ∧ t.rid.grants = s.rid.grants ∧
      (100 * pest.toNat > 98 * cap → t.rid.level = min 7 (s.rid.level + 1)) ∧
      (100 * pest.toNat < 94 * cap → t.rid.level = (if s.rid.lowUs = 15 then s.rid.level - 1 else s.rid.level)) ∧
      (94 * cap ≤ 100 * pest.toNat → 100 * pest.toNat ≤ 98 * cap → t.rid.level = s.rid.level ∧ t.rid.lowUs = 0) ∧
      (0 < t.rid.level → t.rid.sticky.getLsbD 0 = true)))

/-- The box office receiver and its host commands (R378, R383, R385, R396, R400). BOX_READING keeps the reading, and a valid one sets
BOARD_CAP and DIDT; BOX_RECORD files a record by its MAGIC; BOX_LOST sets LOST after 10 ms with no reading. BOX_LAST answers the
last reading; BOX_COPY writes the held readings from FROM on, and then the other records, to the page asked for, and no other byte of
memory. That a reading is held whatever its CRC, and sets the cap only once the riding master is released, is the model's choice (log
30), as are the place of a record of any other MAGIC among the log records (log 31) and the polynomial of the CRC-32 (log 7). -/
def Obligations.BoxOfficeReceiverKeepsAndCopies : Prop :=
  (∀ (bytes : List Byte) (crc : BitVec 32) (s : State),
    Completes (.boxReading bytes crc) s (fun t => t.boxRx.readings = (bytes :: s.boxRx.readings).take 4096 ∧ t.boxDie = s.boxDie ∧
      (crcOk bytes crc = true → leAt bytes 0 4 = readingMagic → t.boxRx.last = bytes ∧ t.boxRx.valid = true ∧
        (s.rid.released = true → t.rid.board = some (leAt bytes 0x20 2, leAt bytes 0x22 2) ∧ t.rid.lastAt = s.time ∧ t.rid.lost = false)) ∧
      (crcOk bytes crc = false → t.boxRx.sticky.getLsbD 0 = true ∧ t.rid = s.rid ∧ t.boxRx.last = s.boxRx.last))) ∧
  (∀ (bytes : List Byte) (crc : BitVec 32) (s : State),
    Completes (.boxRecord bytes crc) s (fun t =>
      (crcOk bytes crc = false → t.boxRx.sticky.getLsbD 0 = true) ∧
      (crcOk bytes crc = true → leAt bytes 0 4 = ckptMagic → t = { s with boxRx := { s.boxRx with ckpts := (bytes :: s.boxRx.ckpts).take 4 } }) ∧
      (crcOk bytes crc = true → leAt bytes 0 4 = identMagic → t = { s with boxRx := { s.boxRx with ident := bytes } }) ∧
      (leAt bytes 0 4 ≠ ckptMagic → leAt bytes 0 4 ≠ identMagic → t.boxRx.logs = (bytes :: s.boxRx.logs).take 4 ∧ t.boxRx.readings = s.boxRx.readings))) ∧
  (∀ (s : State), s.rid.released = true → s.rid.lost = false → s.rid.lastAt + 10 * ms ≤ s.time → reactOf s srcBox ≠ 5 →
    Completes .boxLost s (fun t => t.rid.lost = true ∧ t.rid.sticky.getLsbD 4 = true ∧ t.boxRx.sticky.getLsbD 3 = true ∧ t.rid.board = s.rid.board ∧
      (t.flt.sources[srcBox.val]).st = .active)) ∧
  (∀ (id : Nat) (s : State) (c : Cmd) (r : List Byte) (rest : List (List Byte)), cmdReady s id 0x0071 = some c → s.boxRx.readings = r :: rest →
    Completes (.boxLast id) s (fun t => t = endCmd id stOk (r.take 192) s ∧ cmdResult t id = some (stOk, r.take 192))) ∧
  (∀ (id : Nat) (s : State) (c : Cmd) (r : List Byte) (rest : List (List Byte)) (out : List Byte), cmdReady s id 0x0072 = some c →
    (s.boxRx.readings.reverse.filter (fun r => decide (arg c 0 8 ≤ leAt r 8 8))).take (arg c 8 4) = r :: rest →
    out = (r :: rest).flatten ++ s.boxRx.ckpts.reverse.flatten ++ s.boxRx.ident ++ s.boxRx.logs.reverse.flatten →
    pageOk s (arg c 12 4) out.length = true → Memory.wf s.dram = true →
    Completes (.boxCopy id) s (fun t => memRead t.dram (scratchBase + 4096 * arg c 12 4) out.length = out ∧ t.boxRx = s.boxRx ∧
      (∀ a, a < scratchBase + 4096 * arg c 12 4 ∨ scratchBase + 4096 * arg c 12 4 + out.length ≤ a → memByte t.dram a = memByte s.dram a) ∧
      cmdResult t id = some (stOk, leBytes 8 (leAt r 8 8) ++ leBytes 4 (r :: rest).length)))

/-- The box office die (R389, R392 to R396, R398, R399). READING_CLOSE adds the interval's energy, chains the reading to the one
before and sends it in its frame; CHECKPOINT sends the checkpoint and the identity block and stores energy and chain; LOG_RECORD writes
the record that is due; BOX_POWER_UP starts BOOT on, and the chain from what was stored; SEAL_CHANGE counts an opening, and a closing
drops a staged image, in an unpowered die too. None of them changes the rest of the module but what it sends and the free values drawn.
The stored ceiling and that no reading closes before a late checkpoint are the model's choice (log 32), as are the order of the log
records that are due (log 31), the rounding of POWER and the times of a minute (log 114), and the closing in an unpowered die (log 115). -/
def Obligations.BoxOfficeDieMeters : Prop :=
  (∀ (energy : Vector W64 8) (power : Vector (BitVec 16) 8) (slow : W64) (s : State), s.boxDie.powered = true → s.boxDie.closeAt ≤ s.time →
    ckptLate s.boxDie = false →
    Completes (.readingClose energy power slow) s (fun t => t.boxDie.energy = addEnergy s.boxDie.energy energy ∧ t.boxDie.seq = s.boxDie.seq + 1 ∧
      t.boxDie.slow = slow ∧ t.boxDie.closeAt = s.boxDie.closeAt + ms ∧ t.boxDie.chain = sha3 (s.boxDie.chain ++ (t.boxDie.last.take 0x78)) ∧
      t.out = framed t.boxDie.last :: s.out ∧ (∀ i : Fin 8, leAt t.boxDie.last (0x68 + 2 * i.val) 2 = meanPower energy[i] power[i]) ∧
      (slow.toNat < s.boxDie.minuteSlow.toNat + slowMinute → t.boxDie.minutes = s.boxDie.minutes) ∧
      (s.boxDie.minuteSlow.toNat + slowMinute ≤ slow.toNat → t.boxDie.minutes = s.boxDie.minutes ++
        [(Vector.ofFn (fun (i : Fin 8) => t.boxDie.energy[i] - s.boxDie.minuteEnergy[i])).toList] ∧ t.boxDie.minuteEnergy = t.boxDie.energy) ∧
      (∀ c d, s.boxDie.capNext = some (c, d) → t.boxDie.cap = c ∧ t.boxDie.didt = d ∧ t.boxDie.capNext = none) ∧
      t = { s with boxDie := t.boxDie, out := t.out })) ∧
  (∀ (energy : Vector W64 8) (power : Vector (BitVec 16) 8) (slow : W64) (s : State), ckptLate s.boxDie = true →
    Completes (.readingClose energy power slow) s (fun t => t = s)) ∧
  (∀ (s : State) (seq : W64) (chain : List Byte), s.boxDie.ckptDue = some (seq, chain) → s.boxDie.powered = true →
    Completes .checkpoint s (fun t => t.boxDie.ckptDue = none ∧ t.boxDie.ckpt.take 128 = ckptHead s seq chain ∧
      t.boxDie.stored = some (s.boxDie.energy, s.boxDie.chain, s.boxDie.seq - 1 + 2048) ∧
      t.out = framed (boxIdBlock s.boxDie) :: framed t.boxDie.ckpt :: s.out ∧ t.boxDie.energy = s.boxDie.energy ∧
      t = { s with boxDie := t.boxDie, out := t.out, draws := t.draws })) ∧
  (∀ (cause : LogCause) (s : State), logIsDue s.boxDie cause = true → s.boxDie.powered = true →
    Completes (.logRecord cause) s (fun t => t.boxDie.logDue = (if cause = .hourly then s.boxDie.logDue else s.boxDie.logDue.erase cause) ∧
      t.boxDie.minutes = (if cause = .hourly then s.boxDie.minutes.drop 60 else s.boxDie.minutes) ∧
      t.boxDie.energy = s.boxDie.energy ∧ t.boxDie.chain = s.boxDie.chain ∧ t = { s with boxDie := t.boxDie, out := t.out, draws := t.draws } ∧
      ∃ r, r.take (logBody s.boxDie cause).length = logBody s.boxDie cause ∧ t.boxDie.logs = (r :: s.boxDie.logs).take 7000 ∧ t.out = framed r :: s.out)) ∧
  (∀ (s : State), s.boxDie.powered = false → s.rst.asserted.getLsbD 0 = false →
    Completes .boxPowerUp s (fun t => t = { s with boxDie := t.boxDie } ∧ t.boxDie.powered = true ∧ t.boxDie.boot = s.boxDie.boot + 1 ∧
      (∀ e ch q, s.boxDie.stored = some (e, ch, q) → t.boxDie.energy = e ∧ t.boxDie.seq = q ∧
        t.boxDie.chain = sha3 (ch ++ leBytes 4 (s.boxDie.boot + 1).toNat) ∧ t.boxDie.stored = some (e, ch, q + 2048)) ∧
      t.boxDie.closeAt = s.rst.porAt + ms)) ∧
  (∀ (s : State), s.boxDie.powered = false → s.boxDie.sealOpen = true →
    Completes (.sealChange false) s (fun t => t = { s with boxDie := { s.boxDie with sealOpen := false, staged := none, switchTo := none } })) ∧
  (∀ (high : Bool) (s : State), s.boxDie.powered = true → s.boxDie.sealOpen ≠ high →
    Completes (.sealChange high) s (fun t => t = { s with boxDie := t.boxDie } ∧ t.boxDie.sealOpen = high ∧ t.boxDie.sealEvent = true ∧
      t.boxDie.energy = s.boxDie.energy ∧ (high = true → t.boxDie.sealCnt = s.boxDie.sealCnt + 1 ∧ t.boxDie.staged = s.boxDie.staged) ∧
      (high = false → t.boxDie.sealCnt = s.boxDie.sealCnt ∧ t.boxDie.staged = none ∧ t.boxDie.switchTo = none)))

/-- The box office's SPI port (R397 to R399). The reads answer what the die holds and change nothing else. SET_CAP stores values in
range and refuses others; FW_WRITE is refused while the seal is closed; FW_COMMIT takes an image that verifies. The opcode of a frame
picks its command. That STATUS bit 0 is BUSY while a committed image waits is the model's choice (log 32), as are the parts of an image
(log 31) and the frames of READ_LOG and FW_COMMIT, with their arguments little-endian (log 116). -/
def Obligations.BoxOfficePortAnswers : Prop :=
  (∀ (s : State), s.boxDie.powered = true → s.boxDie.last ≠ [] → Completes .readLast s (fun t => t = emit (.boxPort s.boxDie.last) s)) ∧
  (∀ (s : State), s.boxDie.powered = true → Completes .readId s (fun t => t = emit (.boxPort (boxIdBlock s.boxDie)) s)) ∧
  (∀ (s : State), s.boxDie.powered = true → s.boxDie.ckpt ≠ [] → Completes .readCkpt s (fun t => t = emit (.boxPort s.boxDie.ckpt) s)) ∧
  (∀ (index : BitVec 32) (s : State) (r : List Byte), s.boxDie.powered = true → s.boxDie.logs[index.toNat]? = some r → r ≠ [] →
    Completes (.readLog index) s (fun t => t = emit (.boxPort r) s)) ∧
  (∀ (s : State), s.boxDie.powered = true → Completes .status s (fun t => ∃ b, t = emit (.boxPort [b]) s ∧
    b.getLsbD 0 = s.boxDie.switchTo.isSome ∧ b.getLsbD 1 = s.boxDie.lastOk)) ∧
  (∀ (cap didt : BitVec 16) (s : State), s.boxDie.powered = true → Completes (.setCap cap didt) s (fun t =>
    if 600 ≤ cap.toNat ∧ cap.toNat ≤ 950 ∧ 10 ≤ didt.toNat ∧ didt.toNat ≤ 200 then
      t = { s with boxDie := { s.boxDie with capNext := some (cap.toNat, didt.toNat), lastOk := true } }
    else t = { s with boxDie := { s.boxDie with lastOk := false } })) ∧
  (∀ (offset : BitVec 32) (data : List Byte) (s : State), s.boxDie.powered = true → Completes (.fwWrite offset data) s (fun t =>
    if s.boxDie.sealOpen then t.boxDie.lastOk = true ∧ t.boxDie.switchTo = s.boxDie.switchTo ∧
      ∃ l, t.boxDie.staged = some l ∧ ∀ k b, data[k]? = some b → (offset.toNat + k, b) ∈ l ∧ ∀ x, (offset.toNat + k, x) ∈ l → x = b
    else t = { s with boxDie := { s.boxDie with lastOk := false } })) ∧
  (∀ (len : BitVec 32) (s : State), s.boxDie.powered = true → Completes (.boxFwCommit len) s (fun t =>
    if s.boxDie.sealOpen = true ∧ s.boxDie.staged.isSome = true ∧ boxImageOk s.boxDie (Config.boxImage (stagedImage s len.toNat)) = true then
      t.boxDie = { s.boxDie with switchTo := some (Config.boxImage (stagedImage s len.toNat)).2.2.2, lastOk := true }
    else t.boxDie = { s.boxDie with lastOk := false })) ∧
  (∀ (dummy : Byte), portCommand [0x01, dummy] = some .readLast ∧ portCommand [0x02, dummy] = some .readId ∧ portCommand [0x03, dummy] = some .readCkpt ∧
    portCommand [0x05, dummy] = some .status) ∧
  (∀ (n len : BitVec 32) (cap didt : BitVec 16) (dummy : Byte), portCommand (0x04 :: leBytes 4 n.toNat ++ [dummy]) = some (.readLog n) ∧
    portCommand (0x10 :: leBytes 2 cap.toNat ++ leBytes 2 didt.toNat ++ [dummy]) = some (.setCap cap didt) ∧
    portCommand (0x21 :: leBytes 4 len.toNat ++ [dummy]) = some (.boxFwCommit len)) ∧
  (∀ (offset : BitVec 32) (data : List Byte) (dummy : Byte), data.length = 256 →
    portCommand (0x20 :: leBytes 4 offset.toNat ++ data ++ [dummy]) = some (.fwWrite offset data))

/-- Contributions, partials and windows (R71, R75, R77, R82, R86, R88, R151). A contribution or a child's partial behind which no
older one of its key waits, and that passes every test of Table Harness-6, is added to the slot's exact accumulators once, for a
spilled slot in its image in LPDDR6, and its member's RECEIVED bit is set; one that a test drops is counted under that test and
adds nothing. The first contribution of a key arms a descriptor for it (R66, R69, R87): a resident one, or a spilled one where none is
free. In float mode (R78, R79) the members are added in slot order, and one that comes early is parked; in liberty mode each is added as
it comes. A contribution taken from the intake queue goes the same way, after the older ones of its key, and leaves the queue. A WINDOW
of the parent, or of the partner, shows what was sent as accepted. -/
def Obligations.ContributionsAreAddedOnce : Prop :=
  (∀ (fromChild : Bool) (p : Port) (pk : Packet) (s u : State) (h : Nat) (x : Slot), pk.kind = (if fromChild then kPartial else kContrib) → lengthOk pk = true →
    chunkRoom s (chunks pk) = true → u = takeHanded p pk s → behind u pk u.harn.intake = false → intakeTest pk u = .take h →
    slotOf u h (pSeg pk) = some x → teamOut u (slotTeam u x) = false → slotAcc x ≠ 6 → Memory.wf s.dram = true →
    Completes (if fromChild then .partial_ p pk .clean else .contrib p pk .clean) s (fun t => ∃ y, slotOf t h (pSeg pk) = some y ∧
      y.received = x.received ||| slotBit (pMslot pk) ∧ y.void = (addExact (withSum u x) (contrUnits x pk)).void ∧
      y.blkovf = x.blkovf ||| contrOvf x pk ∧ t.harn.intake = s.harn.intake ∧
      (x.st ≠ .spilled → y.acc = (addExact x (contrUnits x pk)).acc ∧ t.dram = s.dram) ∧
      (x.st = .spilled → ∃ image, image = imageBytes (addExact (withSum u x) (contrUnits x pk)) ∧
        memRead t.dram (spillAddr (x.index - residents)) image.length = image ∧
        ∀ a, (a < spillAddr (x.index - residents) ∨ spillAddr (x.index - residents) + image.length ≤ a) → memByte t.dram a = memByte s.dram a))) ∧
  (∀ (fromChild : Bool) (p : Port) (pk : Packet) (s u : State) (h : Nat) (sh : SheetHead) (hd : Head) (x : Slot), pk.kind = (if fromChild then kPartial else kContrib) →
    lengthOk pk = true → chunkRoom s (chunks pk) = true → u = takeHanded p pk s → behind u pk u.harn.intake = false → intakeTest pk u = .take h →
    slotOf u h (pSeg pk) = none → sheetHead u h = some sh → u.harn.heads[h]? = some hd → Memory.wf s.dram = true →
    ((∃ i, freeResident u = some i ∧ x.index = i ∧ x.st = .armed) ∨ (freeResident u = none ∧ ∃ i, freeImage u = some i ∧ x.index = residents + i ∧ x.st = .spilled)) →
    x = { index := x.index, head := h, seg := pSeg pk, st := x.st, fmt := sh.fmt, seglen := segLen sh (pSeg pk), step := hd.step,
          scale := (windowEntry hd (pSeg pk)).getD 0, expected := hd.expected, acc := List.replicate (segLen sh (pSeg pk)) 0 } →
    slotAcc x ≠ 6 → teamOut u (slotTeam u x) = false →
    Completes (if fromChild then .partial_ p pk .clean else .contrib p pk .clean) s (fun t => ∃ y, slotOf t h (pSeg pk) = some y ∧
      y.index = x.index ∧ y.step = hd.step ∧ y.fmt = sh.fmt ∧ y.seglen = x.seglen ∧ y.scale = x.scale ∧ y.expected = hd.expected ∧ y.received = slotBit (pMslot pk) ∧
      (x.st = .armed → y.acc = (addExact x (contrUnits x pk)).acc ∧ t.dram = s.dram) ∧
      (x.st = .spilled → t.harn.spills = satAdd 0xFFFF_FFFF s.harn.spills 1 ∧ ∃ image, image = imageBytes (addExact x (contrUnits x pk)) ∧
        memRead t.dram (spillAddr (x.index - residents)) image.length = image ∧
        ∀ a, (a < spillAddr (x.index - residents) ∨ spillAddr (x.index - residents) + image.length ≤ a) → memByte t.dram a = memByte s.dram a))) ∧
  (∀ (fromChild : Bool) (p : Port) (pk : Packet) (s u : State) (h : Nat) (x z : Slot), pk.kind = (if fromChild then kPartial else kContrib) → lengthOk pk = true →
    chunkRoom s (chunks pk) = true → u = takeHanded p pk s → behind u pk u.harn.intake = false → intakeTest pk u = .take h →
    slotOf u h (pSeg pk) = some x → teamOut u (slotTeam u x) = false → slotAcc x = 6 → x.st ≠ .spilled →
    z = { x with received := x.received ||| slotBit (pMslot pk), blkovf := x.blkovf ||| contrOvf x pk } →
    Completes (if fromChild then .partial_ p pk .clean else .contrib p pk .clean) s (fun t => ∃ y, slotOf t h (pSeg pk) = some y ∧ y.received = z.received ∧
      (libertyMode u = true → y.acc = (addFloat z (contrFloats x pk)).acc ∧ y.parked = x.parked) ∧
      (libertyMode u = false → nextMember x = some (pMslot pk) →
        y.acc = (unpark (x.parked.length + 1) { addFloat z (contrFloats x pk) with added := x.added ||| slotBit (pMslot pk) }).acc) ∧
      (libertyMode u = false → nextMember x ≠ some (pMslot pk) → y.acc = x.acc ∧ y.parked = x.parked ++ [⟨pMslot pk, contrFloats x pk, 0, 0⟩]))) ∧
  (∀ (fromChild : Bool) (p : Port) (pk : Packet) (s u : State) (bit : Nat), pk.kind = (if fromChild then kPartial else kContrib) → lengthOk pk = true →
    chunkRoom s (chunks pk) = true → u = takeHanded p pk s → behind u pk u.harn.intake = false → intakeTest pk u = .drop bit →
    Completes (if fromChild then .partial_ p pk .clean else .contrib p pk .clean) s (fun t => t.harn.slots = s.harn.slots ∧ t.harn.intake = s.harn.intake ∧
      t.dram = s.dram ∧ t.harn.sticky = s.harn.sticky ||| BitVec.ofNat 10 (1 <<< bit))) ∧
  (∀ (k : Nat) (s : State) (w : Waiting) (h : Nat) (x : Slot), s.harn.intake[k]? = some w → behind s w.packet (s.harn.intake.take k) = false →
    intakeTest w.packet s = .take h → slotOf s h (pSeg w.packet) = some x → teamOut s (slotTeam s x) = false → slotAcc x ≠ 6 →
    Completes (.intakeResume k .clean) s (fun t => t.harn.intake = s.harn.intake.eraseIdx k ∧ ∃ y, slotOf t h (pSeg w.packet) = some y ∧
      y.received = x.received ||| slotBit (pMslot w.packet) ∧ (x.st ≠ .spilled → y.acc = (addExact x (contrUnits x w.packet)).acc))) ∧
  (∀ (p : Port) (pk : Packet) (s : State) (h : Nat) (sh : SheetHead), pk.kind = kWindow → lengthOk pk = true → headIdx s (pHid pk) = some h →
    sheetHead s h = some sh →
    Completes (.window p pk) s (fun t => t.harn.slots.length = s.harn.slots.length ∧ t.dram = s.dram ∧ (pHid pk, p, pStep pk, pSeg pk) ∈ t.harn.peers ∧
      ∀ y ∈ t.harn.slots, y.head = h → covers (pStep pk) (pSeg pk) y.step y.seg = true →
        (sh.root = false → (shardOf (takeHanded p pk s) sh.hid).any (fun r => decide (r.role = roleOwner) && addrOf (takeHanded p pk s) r.partner == some pk.src) = false →
          y.sentUp = true → y.accepted = true) ∧
        (sh.root = true ∨ (shardOf (takeHanded p pk s) sh.hid).any (fun r => decide (r.role = roleOwner) && addrOf (takeHanded p pk s) r.partner == some pk.src) = true →
          y.forwarded = true → y.fwdAccepted = true)))

/-- Slots (R69, R82, R85, R89, R90, R92). SPILL_DONE, in its turn, writes the image of a sum that is not ZERO into the spill region,
leaves the slot SPILLED and counts it; RELOAD_DONE takes the sum back from the image, leaves the slot FILLING, and fires it if it
meets the fire rule. That a slot with ZERO = 1 moves without an image, where Table Harness-5 says that the image is written, is the
model's choice (log 52). What the check of the slot's memory reports: a corrected error changes no value, an uncorrectable word makes its
elements void, and an uncorrectable descriptor is FENCED, its elements void, whether the slot is spilled or reloaded. SCALE_WINDOW_FILL takes the entry from SCALES; SLOT_RELEASE frees the slot, and the head's window then counts
the segment as released, or the head goes on to its next step. -/
def Obligations.SlotsSpillReloadAndRelease : Prop :=
  (∀ (idx : Fin 32768) (s : State) (x : Slot), s.harn.slots.find? (fun x => decide (x.index = idx.val) && decide (x.st = .spilling)) = some x →
    slotOf s x.head x.seg = some x → carriageTurn s 2 x.issue = true → Memory.wf s.dram = true →
    Completes (.spillDone idx .clean) s (fun t => ∃ u, t = moveSlots u ∧
      slotOf u x.head x.seg = some { x with st := .spilled, index := residents + x.image, acc := [] } ∧
      t.harn.spills = satAdd 0xFFFF_FFFF s.harn.spills 1 ∧ (x.zero = true → t.dram = s.dram) ∧
      (x.zero = false → memRead t.dram (spillAddr x.image) (imageBytes x).length = imageBytes x ∧
        ∀ a, (a < spillAddr x.image ∨ spillAddr x.image + (imageBytes x).length ≤ a) → memByte t.dram a = memByte s.dram a))) ∧
  (∀ (idx : Fin 32768) (ws : List Nat) (s : State) (x : Slot), s.harn.slots.find? (fun x => decide (x.index = idx.val) && decide (x.st = .spilling)) = some x →
    slotOf s x.head x.seg = some x → carriageTurn s 2 x.issue = true → reactOf s srcArenaCorr ≠ 5 → reactOf s srcArenaUncorr ≠ 5 →
    Completes (.spillDone idx .corrected) s (fun t => t.harn.sticky.getLsbD bEccCorr = true ∧ ∃ u, t = moveSlots u ∧
      slotOf u x.head x.seg = some { x with st := .spilled, index := residents + x.image, acc := [] }) ∧
    Completes (.spillDone idx (.words ws)) s (fun t => t.harn.sticky.getLsbD bEccUncorr = true ∧ ∃ u z, t = moveSlots u ∧ slotOf u x.head x.seg = some z ∧
      z.st = .spilled ∧ z.void = x.void ||| voidBits (badElems x ws)) ∧
    Completes (.spillDone idx .descriptor) s (fun t => t.harn.sticky.getLsbD bFenced = true ∧ t.dram = s.dram ∧ ∃ u z, t = moveSlots u ∧
      slotOf u x.head x.seg = some z ∧ z.st = .fenced ∧ z.parked = [] ∧ (∀ j, j < x.seglen → j < 256 → z.void.getLsbD j = true))) ∧
  (∀ (idx : Fin 32768) (s : State) (x : Slot), s.harn.slots.find? (fun x => decide (x.index = idx.val) && decide (x.st = .reloading)) = some x →
    slotOf s x.head x.seg = some x → carriageTurn s 2 x.issue = true → reactOf s srcArenaUncorr ≠ 5 →
    Completes (.reloadDone idx ⟨[], .descriptor⟩) s (fun t => t.harn.sticky.getLsbD bFenced = true ∧ ∃ u z, t = settle (moveSlots u) ∧
      slotOf u x.head x.seg = some z ∧ z.st = .fenced ∧ (∀ j, j < x.seglen → j < 256 → z.void.getLsbD j = true))) ∧
  (∀ (idx : Fin 32768) (errs : List AccErr) (s u : State) (x y : Slot) (acc : List (BitVec 96)),
    s.harn.slots.find? (fun x => decide (x.index = idx.val) && decide (x.st = .reloading)) = some x → carriageTurn s 2 x.issue = true →
    u = (if x.zero then s else readErrors (spillAddr x.image) 3072 errs s) → slotOf u x.head x.seg = some y → y.st ≠ .fenced → y.hasFired = false →
    sheetHead u x.head ≠ none → acc = (if y.zero then List.replicate y.seglen 0
      else (imageAcc u.dram y y.image).zipIdx.map (fun a => if y.void.getLsbD a.2 then 0 else a.1)) →
    Completes (.reloadDone idx ⟨errs, .clean⟩) s (fun t => ∃ v, t = settle (moveSlots v) ∧ ∃ z, slotOf v x.head x.seg = some z ∧ z.acc = acc ∧
      z.received = y.received ∧ (fireRule y = false → z = { y with st := .filling, acc := acc }) ∧ (fireRule y = true → z.hasFired = true))) ∧
  (∀ (head : Fin 4096) (seg : BitVec 24) (errs : List AccErr) (s u : State) (sh : SheetHead) (hd x : Head), mayFill s head.val seg.toNat = true →
    carriageClear s 2 = true → s.harn.heads[head.val]? = some x → u = readErrors (scaleAddr x seg.toNat 0) 4 errs s → sheetHead u head.val = some sh →
    u.harn.heads[head.val]? = some hd →
    Completes (.scaleWindowFill head seg errs) s (fun t => t.dram = u.dram ∧ t.harn.slots = u.harn.slots ∧
      ∃ y, t.harn.heads[head.val]? = some y ∧ y.window = hd.window ++ [(seg.toNat, readScales u sh hd seg.toNat)])) ∧
  (∀ (head : Fin 4096) (seg : BitVec 24) (s : State) (hd : Head), slotReady (endJobs head.val seg.toNat s) head.val seg.toNat = true →
    s.harn.heads[head.val]? = some hd →
    hd.base ≤ seg.toNat → seg.toNat < hd.base + 256 →
    Completes (.slotRelease head seg .clean) s (fun t => slotOf t head.val seg.toNat = none ∧ ∃ y, t.harn.heads[head.val]? = some y ∧
      (y.step = hd.step + 1 ∨ (y.step = hd.step ∧ (seg.toNat < y.base ∨ y.released.getLsbD (seg.toNat - y.base) = true)))))

/-- The update (R114, R134, R142 to R146, R149). GROOM_ISSUE of a fired segment, the first in sheet order, computes a new state word
for every element from the stored word, the sum and the clipping factor, and counts the segment; GROOM_WRITES_DONE, in its turn at
the Carriage, writes those words. -/
def Obligations.UpdatesComputeAndWriteState : Prop :=
  (∀ (head : Fin 4096) (seg : BitVec 24) (s u : State) (sh : SheetHead) (x : Slot) (c : Nat) (w : CueWord) (img : Sheet) (r q : Shard) (p : Sys2Proof.Machine.PSet) (cf : ZF)
      (gr : Grant), sheetHead s head.val = some sh → firedSlot s head.val seg.toNat = some x → reducerWord s head.val = some (c, w) → s.cue.sheet = some img →
    shardOf s sh.hid = some r → img.psets[cPset w]? = some p → sh.root = true → cKind w = cReduceUpdate → jobOf s head.val seg.toNat x.step = none →
    writesQueued s head.val seg.toNat = false → permitted s x.step c = true → filling s sh.hid = false → unitHeld s unitGroom = false →
    zeroPending s sh.hid x.step c = false → resumeDone s sh.hid x.step seg.toNat = false → r.role ≠ roleSeeding → clipFactor s x.step w p = some cf →
    grantFor s x.step c w = some gr → mayIssueGroom s gr = true → sheetFirst s x.step c (groomReady s) = true →
    u = advanceAge sh.hid x.step c p s → shardOf u sh.hid = some q →
    Completes (.groomIssue head seg [] .clean) s (fun t => t.dram = u.dram ∧ t.grm.segCount = s.grm.segCount + 1 ∧
      ∃ j, jobOf t head.val seg.toNat x.step = some j ∧ j.wReady = true ∧ j.writesDone = false ∧
        j.state = (List.range x.seglen).map (fun i => (groomElem p q.p1 q.p2 ((readWords u q (256 * seg.toNat) x.seglen).getD i 0) (slotGrad x i) cf
          (fun site => srDraw img.seed (BitVec.ofNat 64 x.step) sh.hid site (BitVec.ofNat 32 (256 * seg.toNat + i)))).word) ∧ j.w = j.state.map wordW)) ∧
  (∀ (head : Fin 4096) (seg : BitVec 24) (s : State) (sh : SheetHead) (j : Job) (r : Shard) (i : Nat), sheetHead s head.val = some sh →
    s.harn.jobs.find? (fun j => decide (j.head = head.val) && decide (j.seg = seg.toNat) && !j.bcast && !j.band && !j.writesDone && j.wReady) = some j →
    carriageTurn s 1 j.issue = true → findShard s sh.hid = some i → readShard s i = r → stateAddr r (256 * seg.toNat + j.state.length) ≤ stateBytes → Memory.wf s.dram = true →
    Completes (.groomWritesDone head seg) s (fun t =>
      memRead t.dram (stateAddr r (256 * seg.toNat)) (8 * j.state.length) = j.state.flatMap (fun w => leBytes 8 w.toNat) ∧
      (∀ a, (a < stateAddr r (256 * seg.toNat) ∨ stateAddr r (256 * seg.toNat + j.state.length) ≤ a) → (a < shardAddr i ∨ shardAddr i + 64 ≤ a) →
        memByte t.dram a = memByte s.dram a)))

/-- Casts (R57, R114, R147, R148). CAST_ISSUE casts, for the cue that is first in sheet order, the fired sums of a REDUCE, the new W
of a REDUCE_UPDATE, and the W of a BROADCAST, with the conversion and the scales of the cue. -/
def Obligations.SegmentsAreCast : Prop :=
  (∀ (head : Fin 4096) (seg : BitVec 24) (s : State) (sh : SheetHead) (img : Sheet) (x : Slot) (c : Nat) (w : CueWord), sheetHead s head.val = some sh →
    s.cue.sheet = some img → unitHeld s unitWardrobe = false → shardRole s sh.hid ≠ roleUnderstudy → firedSlot s head.val seg.toNat = some x →
    reducerWord s head.val = some (c, w) → sh.root = true → permitted s x.step c = true → cKind w = cReduce → jobOf s head.val seg.toNat x.step = none →
    wardrobeTurn s x.step c = true →
    Completes (.castIssue head seg .clean) s (fun t => ∃ j, jobOf t head.val seg.toNat x.step = some j ∧ j.cast = true ∧
      j.codes = (castFor s sh x.step seg.toNat w x.scale ((List.range x.seglen).map (slotVal x))).codes ∧
      j.dscale = (castFor s sh x.step seg.toNat w x.scale ((List.range x.seglen).map (slotVal x))).dscale)) ∧
  (∀ (head : Fin 4096) (seg : BitVec 24) (s : State) (sh : SheetHead) (img : Sheet) (x : Slot) (c : Nat) (w : CueWord) (j : Job), sheetHead s head.val = some sh →
    s.cue.sheet = some img → unitHeld s unitWardrobe = false → shardRole s sh.hid ≠ roleUnderstudy → firedSlot s head.val seg.toNat = some x →
    reducerWord s head.val = some (c, w) → sh.root = true → permitted s x.step c = true → cKind w = cReduceUpdate →
    jobOf s head.val seg.toNat x.step = some j → j.wReady = true → j.cast = false →
    shardRole s sh.hid ≠ roleSeeding → wardrobeTurn s x.step c = true →
    Completes (.castIssue head seg .clean) s (fun t => ∃ k, jobOf t head.val seg.toNat x.step = some k ∧ k.cast = true ∧ k.w = j.w ∧
      k.codes = (castFor s sh x.step seg.toNat w x.scale (wVals j.w [])).codes)) ∧
  (∀ (head : Fin 4096) (seg : BitVec 24) (s : State) (sh : SheetHead) (img : Sheet) (w : CueWord) (j : Job), sheetHead s head.val = some sh →
    s.cue.sheet = some img → unitHeld s unitWardrobe = false → shardRole s sh.hid ≠ roleUnderstudy → firedSlot s head.val seg.toNat = none →
    s.harn.jobs.find? (fun j => decide (j.head = head.val) && decide (j.seg = seg.toNat) && j.bcast && !j.cast) = some j → cueWord s j.cue = some w →
    s.harn.jobs.find? (isJob head.val seg.toNat j.step true false) = some j → wardrobeTurn s j.step j.cue = true →
    Completes (.castIssue head seg .clean) s (fun t => t.dram = s.dram ∧ ∃ k, t.harn.jobs.find? (isJob head.val seg.toNat j.step true false) = some k ∧ k.cast = true ∧
      k.codes = (castFor s sh j.step seg.toNat w 0 (wVals j.w [])).codes ∧ k.nscale = forceBytes s head.val seg.toNat sh))

/-- Multicasts (R25, R84, R147, R148, R152, R165, R282). MULTICAST stores a cast segment once and starts its copies to the group when
there is credit for all of them, and waits while there is none; at an understudy the cast goes to the compare buffer, where it meets
the owner's multicast of the segment or waits for it, and other bits mark the record DIVERGED. That an own cast meets an owner's
multicast that came first is the model's choice (log 73): R152 gives the other order. An MCAST that reaches a forwarding
module has its next scales taken in, which changes no other byte of memory, is kept as S where the head is an upper head, and goes on to
the group; one that reaches an understudy is compared, and one that reaches another root goes nowhere. -/
def Obligations.MulticastsGoToTheGroup : Prop :=
  (∀ (head : Fin 4096) (seg : BitVec 24) (s u : State) (sh : SheetHead) (j : Job) (w : LocalWait), sheetHead s head.val = some sh →
    unsentJob s head.val seg.toNat = some j → shardRole s sh.hid ≠ roleUnderstudy → w = mcastWait head.val sh (jobPacket s sh (castDst s j.cue) j) s →
    w.ports ≠ [] → u = modJob head.val seg.toNat j.step j.bcast j.band (fun y => { y with sent := true, bufs := y.bufs ++ [s.swc.nextBuf] }) s →
    Completes (.multicast head seg) s (fun t =>
      (localReady s (pkCells w.packet) = true → t = endJob j (enterLocal w u)) ∧ (localReady s (pkCells w.packet) = false → t = s) ∧
      w.ports = group s head.val ∧ w.packet.kind = kMcast ∧ pSeg w.packet = seg.toNat)) ∧
  (∀ (head : Fin 4096) (seg : BitVec 24) (s : State) (sh : SheetHead) (j : Job) (own : Compare), sheetHead s head.val = some sh →
    unsentJob s head.val seg.toNat = some j → shardRole s sh.hid = roleUnderstudy →
    own = ⟨sh.hid, BitVec.ofNat 32 j.step, seg.toNat, true, compareBytes (jobPacket s sh (castDst s j.cue) j)⟩ →
    Completes (.multicast head seg) s (fun t =>
      (meets s sh.hid own.step own.seg true = false → t.grm.compare = s.grm.compare ++ [own]) ∧
      (∀ c, s.grm.compare = [c] → meets s sh.hid own.step own.seg true = true → t.grm.compare = [] ∧
        (c.bytes = own.bytes → t.grm.sticky = s.grm.sticky ∧ t.dram = s.dram) ∧
        (c.bytes ≠ own.bytes → reactOf s srcMirror ≠ 5 → t.grm.sticky.getLsbD 8 = true ∧ (t.flt.sources[srcMirror.val]).st = .active)))) ∧
  (∀ (p : Port) (pk : Packet) (s u : State) (h : Nat) (sh : SheetHead) (q : Packet), pk.kind = kMcast → lengthOk pk = true → compareFull s pk = false →
    u = takeHanded p pk s → headIdx u (pHid pk) = some h → sheetHead u h = some sh → pSeg pk < segsOf sh.len → pCount pk = segLen sh (pSeg pk) →
    q = { pk with dest := 0xFFFF, src := srcAddr u, resend := false } →
    Completes (.mcast p pk) s (fun t =>
      (sh.root = true → shardRole u sh.hid = roleUnderstudy → t = compareEntry sh.hid (pStep pk) (pSeg pk) false (compareBytes pk) u) ∧
      (sh.root = true → shardRole u sh.hid ≠ roleUnderstudy → t = u) ∧
      (sh.root = false → (byteAt pk.bytes 3).getLsbD 0 = true → t = originate (harnPort sh.hid) q (group u h) u) ∧
      (∀ a, Memory.wf s.dram = true → (headScaled sh = true → ∀ hd, u.harn.heads[h]? = some hd → a < scaleAddr hd (pSeg pk) 0 ∨
        scaleAddr hd (pSeg pk) 0 + (segLen sh (pSeg pk) + 63) / 64 ≤ a) → sh.root = false → memByte t.dram a = memByte s.dram a) ∧
      (sh.root = false → (byteAt pk.bytes 3).getLsbD 0 = false → (∃ v, t = originate (harnPort sh.hid) q (group v h) v ∧ group v h = group u h) ∧
        (isUpper u sh.hid = true → ∃ x ∈ t.prj.upper, x.head = h ∧ x.step = pStep pk ∧ x.seg = pSeg pk ∧
          ∀ f, fmtOf (pFmt pk) = some f → x.codes = (unpackCodes f (pCount pk) (pk.bytes.drop 32)).map (BitVec.ofNat 32)) ∧
        ∀ hd, u.harn.heads[h]? = some hd → headScaled sh = true → Memory.wf s.dram = true → ∀ b, b < (segLen sh (pSeg pk) + 63) / 64 →
          memByte t.dram (scaleAddr hd (pSeg pk) b) = BitVec.ofNat 8 (twos 6 (scaleExp (byteAt pk.bytes (16 + b)))))))

/-- Segment and head digests (R114, R205, R206, R207). DIGEST_DONE puts the digests of a segment into the buffer, for the cue that is
first in sheet order: BCAST of a broadcast, OUT of a restored band, IN, OUT and, for an update, W of a reduced segment, and IN alone
where no cast is made. HEAD_DIGEST_FOLD takes a whole part of a head out of the buffer and folds it, in segment order, into one digest
of the step; which digests a BCAST fold covers where two cues of the step name the head is the model's choice (log 101). -/
def Obligations.DigestsAreBufferedAndFolded : Prop :=
  (∀ (head : Fin 4096) (seg : BitVec 24) (s : State) (sh : SheetHead) (j : Job), sheetHead s head.val = some sh → unitHeld s unitDigest = false →
    digRoom s = true → s.harn.jobs.find? (fun j => decide (j.head = head.val) && decide (j.seg = seg.toNat) && j.cast && !j.digest) = some j →
    digestTurn s j.step j.cue = true → (j.bcast = true ∨ j.band = true ∨ ∃ x, slotOf s head.val seg.toNat = some x) →
    Completes (.digestDone head seg .clean) s (fun t => t.dram = s.dram ∧
      (j.bcast = true → t.dig.buffer = s.dig.buffer ++ [⟨sh.hid, j.step, 4, seg.toNat, digOut 4 (castDst s j.cue) sh.hid j⟩]) ∧
      (j.bcast = false → j.band = true → t.dig.buffer = s.dig.buffer ++ [⟨sh.hid, j.step, 2, seg.toNat, digOut 2 (castDst s j.cue) sh.hid j⟩]) ∧
      (j.bcast = false → j.band = false → ∀ x, slotOf s head.val seg.toNat = some x →
        t.dig.buffer = s.dig.buffer ++ [⟨sh.hid, x.step, 1, seg.toNat, digIn sh x⟩, ⟨sh.hid, j.step, 2, seg.toNat, digOut 2 (castDst s j.cue) sh.hid j⟩] ++
          (if j.wReady then [⟨sh.hid, j.step, 3, seg.toNat, digW sh.hid j.step seg.toNat j.w⟩] else []) ∧
        ∃ y, slotOf t head.val seg.toNat = some y ∧ y.inDigest = true))) ∧
  (∀ (head : Fin 4096) (seg : BitVec 24) (s : State) (sh : SheetHead) (x : Slot) (c : Nat) (w : CueWord), sheetHead s head.val = some sh →
    unitHeld s unitDigest = false → digRoom s = true →
    s.harn.jobs.find? (fun j => decide (j.head = head.val) && decide (j.seg = seg.toNat) && j.cast && !j.digest) = none →
    slotOf s head.val seg.toNat = some x → x.hasFired = true → x.inDigest = false → reducerWord s head.val = some (c, w) →
    (sh.root = false ∨ x.dropped = true ∨ cKind w = cProject) → digestTurn s x.step c = true →
    Completes (.digestDone head seg .clean) s (fun t => t.dram = s.dram ∧ slotOf t head.val seg.toNat = some { x with inDigest := true } ∧
      t.dig.buffer = s.dig.buffer ++ [⟨sh.hid, x.step, 1, seg.toNat, digIn sh x⟩])) ∧
  (∀ (head : Fin 4096) (step : Nat) (part : DigestPart) (s : State) (sh : SheetHead) (o : OpenStep) (mine : List SegDigest) (fmt : Nat),
    sheetHead s head.val = some sh → openStep s step = some o → head.val < o.heads.length → unitHeld s unitDigest = false →
    mine = s.dig.buffer.filter (fun d => d.hid == sh.hid && decide (d.step = step) && decide (d.part = partCode part)) → segsOf sh.len ≤ mine.length →
    (part = .inp → fmt = wantedFmt sh true) → (part = .w → fmt = 5) → (part = .out → ∀ c, reducer s head.val = some c → fmt = castDst s c) →
    (part = .out → ∃ c, reducer s head.val = some c) → (part = .bcast → ∃ img w, s.cue.sheet = some img ∧
      img.cues.find? (fun c => decide (cKind c = cBroadcast) && cHid c == sh.hid) = some w ∧ fmt = (cConv w).dst) →
    Completes (.headDigestFold head step part) s (fun t => (∀ d ∈ t.dig.buffer, ¬(d.hid = sh.hid ∧ d.step = step ∧ d.part = partCode part)) ∧
      ∃ o' y, openStep t step = some o' ∧ o'.heads[head.val]? = some y ∧ (partCode part, sha3 (digHeader (partCode part + 0x80) fmt sh.hid 0 step
        (segsOf sh.len) ++ (sortBy (fun a b => decide (a.seg ≤ b.seg)) mine).flatMap (·.hash))) ∈ y.digests))

/-- BROADCAST, MOVE and CONVERT (R60, R114, R134, R141, R148, R150), each first in the order of its unit. BROADCAST_READ takes the W
of the next segment from the state words; LOAD and STORE copy scratch pages and working space, and change nothing else of either
memory; ZERO_MOMENTS leaves every M and V of the shard zero and every W as it was; CONVERT writes working space alone; MOVE_DONE, in
its turn, and CONVERT_DONE end the instance. -/
def Obligations.BroadcastsMovesAndConversions : Prop :=
  (∀ (step cue : Nat) (s : State) (i : Inst) (w : CueWord) (h : Nat) (r : Shard) (sh : SheetHead), running s step cue cBroadcast = some (i, w) →
    headIdx s (cHid w) = some h → shardOf s (cHid w) = some r → sheetHead s h = some sh → i.nextSeg < segsOf sh.len → filling s sh.hid = false →
    unitHeld s unitGroom = false → carriageClear s 1 = true → sheetFirst s step cue (groomReady s) = true →
    Completes (.broadcastRead step cue []) s (fun t => t.dram = s.dram ∧ (∃ i', instOf t step cue = some i' ∧ i'.nextSeg = i.nextSeg + 1) ∧
      t.harn.jobs = s.harn.jobs ++ [{ head := h, seg := i.nextSeg, step := step, cue := cue, bcast := true, wReady := true, writesDone := true
                                      w := (readWords s r (256 * i.nextSeg) (segLen sh i.nextSeg)).map wordW }])) ∧
  (∀ (step cue : Nat) (errs : List AccErr) (s u : State) (i : Inst) (w : CueWord), running s step cue cMove = some (i, w) → i.started = false →
    cMoveOp w = 0 → moveFirst s step cue = true → u = readErrors (scratchBase + 4096 * cPage w) (4096 * cPages w) errs s → Memory.wf u.ws = true →
    Completes (.load step cue errs) s (fun t => t.dram = u.dram ∧
      memRead t.ws (64 * cWsoff w) (4096 * cPages w) = memRead u.dram (scratchBase + 4096 * cPage w) (4096 * cPages w) ∧
      (∀ a, a < 64 * cWsoff w ∨ 64 * cWsoff w + 4096 * cPages w ≤ a → memByte t.ws a = memByte u.ws a))) ∧
  (∀ (step cue : Nat) (s : State) (i : Inst) (w : CueWord), running s step cue cMove = some (i, w) → i.started = false → cMoveOp w = 1 →
    moveFirst s step cue = true → Memory.wf s.dram = true →
    Completes (.store step cue) s (fun t => t.ws = s.ws ∧
      memRead t.dram (scratchBase + 4096 * cPage w) (4096 * cPages w) = memRead s.ws (64 * cWsoff w) (4096 * cPages w) ∧
      (∀ a, a < scratchBase + 4096 * cPage w ∨ scratchBase + 4096 * cPage w + 4096 * cPages w ≤ a → memByte t.dram a = memByte s.dram a))) ∧
  (∀ (step cue : Nat) (s : State) (i : Inst) (w : CueWord) (r : Shard) (k : Nat), running s step cue cMove = some (i, w) → i.started = false → cMoveOp w = 2 →
    findShard s (cZeroHid w) = some k → readShard s k = r → updatePending s r.hid step cue = false → filling s r.hid = false →
    moveFirst s step cue = true → stateAddr r r.len ≤ stateBytes → Memory.wf s.dram = true →
    Completes (.zeroMoments step cue []) s (fun t => t.ws = s.ws ∧ readShard t k = { r with age := 0, p1 := zOne, p2 := zOne } ∧
      (∀ e, e < r.len → memRead t.dram (stateAddr r e) 4 = memRead s.dram (stateAddr r e) 4 ∧ memRead t.dram (stateAddr r e + 4) 4 = zeros 4) ∧
      ∀ a, (a < stateAddr r 0 ∨ stateAddr r r.len ≤ a) → (a < shardAddr k ∨ shardAddr k + 64 ≤ a) → memByte t.dram a = memByte s.dram a)) ∧
  (∀ (step cue : Nat) (s : State) (i : Inst) (w : CueWord) (img : Sheet) (f : SFmt), running s step cue cConvert = some (i, w) → s.cue.sheet = some img →
    i.started = false → movePending s step cue = false → unitHeld s unitWardrobe = false → fmtOf (cConv w).dst = some f →
    wardrobeTurn s step cue = true →
    Completes (.convert step cue .clean) s (fun t => t.dram = s.dram ∧ (∃ i', instOf t step cue = some i' ∧ i'.started = true) ∧
      t.ws = ((List.range (cBlocks w)).foldl (fun t b => convertGroup step cue w f img.seed [] s b t) s).ws)) ∧
  (∀ (step cue : Nat) (conv : Bool) (s : State) (i : Inst) (w : CueWord), running s step cue (if conv then cConvert else cMove) = some (i, w) → i.started = true →
    (conv = false → i.finished = false ∧ carriageTurn s 3 i.issue = true) →
    Completes (if conv then .convertDone step cue else .moveDone step cue) s (fun t => t.dram = s.dram ∧ t.ws = s.ws ∧
      ∃ i', instOf t step cue = some i' ∧ i'.finished = true ∧ i'.st = .done))

/-- Patrol scrub and the Outrider (R132, R133, R197 to R200, R202). A scrub, with no request waiting at the Carriage, changes nothing
where the access is clean or shows its own tag; a corrected one is counted and raises DRAM_CORR; an uncorrectable one in the state
region, or one with another tag, leaves its four words void. Outside the data space there is no access to scrub: that it then faults is
the model's choice (log 65), as is the tag 0 of a part of the state region that no shard holds (log 91). A check that ends drops out of
its sample, and the last one frees the context. An exact check that passes changes nothing else; one that differs is counted, raises
OUTRIDER, and is latched in OUTR_MISS where EXACT_MISS was clear. The end of the last tolerance check takes the sample's GMAX and DRIFT
into the head's baseline, and after the learning samples tests them first. What a sample without DRIFT adds is the model's choice (log
100). -/
def Obligations.ScrubsAndSampleChecks : Prop :=
  (∀ (access : Nat) (e : Option AccErrKind) (s : State), access < dataSpaceAccesses → carriageClear s 6 = true →
    (e = none ∨ e = some (.tag (tagOf s access))) → Completes (.patrolScrub access e) s (fun t => t = s)) ∧
  (∀ (access : Nat) (s : State), access < dataSpaceAccesses → carriageClear s 6 = true → reactOf s srcDramCorr ≠ 5 →
    Completes (.patrolScrub access (some .corrected)) s (fun t => t.grm.sticky.getLsbD 5 = true ∧ (t.flt.sources[srcDramCorr.val]).st = .active ∧ t.dram = s.dram)) ∧
  (∀ (access : Nat) (e : AccErrKind) (s : State), 32 * access + 32 ≤ stateBytes → carriageClear s 6 = true → reactOf s srcDramUncorr ≠ 5 →
    (e = .uncorrectable ∨ ∃ b, e = .tag b ∧ b ≠ tagOf s access) → Memory.wf s.dram = true →
    Completes (.patrolScrub access (some e)) s (fun t => (t.flt.sources[srcDramUncorr.val]).st = .active ∧
      (e ≠ .uncorrectable → t.grm.sticky.getLsbD 7 = true) ∧
      memRead t.dram (32 * access) 32 = (List.replicate 4 (leBytes 8 voidWord.toNat)).flatten ∧
      (∀ a, a < 32 * access ∨ 32 * access + 32 ≤ a → memByte t.dram a = memByte s.dram a))) ∧
  (∀ (access : Nat) (err : Option AccErrKind) (s : State), dataSpaceAccesses ≤ access → exec (.patrolScrub access err) s = .fault .outsideDataSpace) ∧
  (∀ (head : Fin 4096) (seg : BitVec 24) (block : Fin 4) (check : Fin 7) (seen : CheckSeen) (s : State) (x : Sample) (sh : SheetHead) (l r : List Sample)
      (p : Sample → Bool), p = (fun y => decide (y.head = head.val) && decide (y.seg = seg.toNat) && decide (y.block = block.val) &&
      y.checks.contains check.val && y.ready.contains check.val) → s.outr.ctxs = l ++ x :: r → (∀ y ∈ l, p y = false) → p x = true →
    unitHeld s unitOutrider = false → sheetHead s head.val = some sh → (check.val < 5 → reactOf s srcOutrider ≠ 5) →
    Completes (.sampleCheckEnd head seg block check seen) s (fun t =>
      t.outr.ctxs = l ++ (if x.checks.filter (fun k => !decide (k = check.val)) = [] then r
        else { x with checks := x.checks.filter (fun k => !decide (k = check.val)) } :: r) ∧
      (check.val < 5 → checkSeen x check.val seen = .same → t = { s with outr := { s.outr with ctxs := t.outr.ctxs } }) ∧
      (∀ e, check.val < 5 → checkSeen x check.val seen = .differs e → t.outr.exact = satAdd 0xFFFF s.outr.exact 1 ∧ t.outr.sticky.getLsbD 0 = true ∧
        (s.outr.sticky.getLsbD 0 = true → t.outr.miss = s.outr.miss) ∧
        (s.outr.sticky.getLsbD 0 = false → fld t.outr.miss 63 60 = check.val ∧ fld t.outr.miss 59 44 = sh.hid.toNat ∧ fld t.outr.miss 43 20 = seg.toNat ∧
          fld t.outr.miss 19 18 = block.val ∧ fld t.outr.miss 17 12 = e.toNat ∧ fld t.outr.miss 11 0 = x.step % 4096) ∧
        (t.flt.sources[srcOutrider.val]).st = .active ∧
        ∀ o, openStep s x.step = some o → ∃ o', openStep t x.step = some o' ∧ o'.exact = o.exact + 1) ∧
      (5 ≤ check.val → (5 ∈ x.checks.filter (fun k => !decide (k = check.val)) ∨ 6 ∈ x.checks.filter (fun k => !decide (k = check.val))) →
        t = { s with outr := { s.outr with ctxs := t.outr.ctxs } }))) ∧
  (∀ (head : Fin 4096) (seg : BitVec 24) (block : Fin 4) (check : Fin 7) (seen : CheckSeen) (s : State) (x : Sample) (sh : SheetHead) (hd : Head) (g : Int) (b : Baseline), 5 ≤ check.val →
    s.outr.ctxs.find? (fun x => decide (x.head = head.val) && decide (x.seg = seg.toNat) && decide (x.block = block.val) &&
      x.checks.contains check.val && x.ready.contains check.val) = some x → unitHeld s unitOutrider = false → sheetHead s head.val = some sh →
    (∀ k ∈ x.checks, 5 ≤ k → k = check.val) → s.harn.heads[head.val]? = some hd → x.gmax = some g → b = hd.baseline →
    Completes (.sampleCheckEnd head seg block check seen) s (fun t => ∃ y, t.harn.heads[head.val]? = some { hd with baseline := y } ∧
      (b.count < 4096 → y.count = b.count + 1 ∧ t.outr.sticky = s.outr.sticky ∧ t.outr.growth = s.outr.growth ∧ t.outr.drift = s.outr.drift ∧
        y.sumG = b.sumG + g ∧ y.sumD = b.sumD + ((x.drift.getD 0 : Nat) : Int) ∧
        (if b.count = 4095 then y.baseG = (b.sumG + g) / 16 ∧ y.baseD = (b.sumD + ((x.drift.getD 0 : Nat) : Int)) / 16 else y.baseG = b.baseG ∧ y.baseD = b.baseD)) ∧
      (4096 ≤ b.count → y.count = b.count ∧ y.baseG = b.baseG + (256 * g - b.baseG) / 256 ∧
        (∀ d, x.drift = some d → y.baseD = b.baseD + (256 * (d : Int) - b.baseD) / 256) ∧ (x.drift = none → y.baseD = b.baseD) ∧
        (if fld x.ctrl 15 12 ≠ 0 ∧ 256 * g > b.baseG + 256 * (fld x.ctrl 15 12 : Int) then
          t.outr.sticky.getLsbD 2 = true ∧ t.outr.growth = satAdd 0xFFFF s.outr.growth 1 else t.outr.growth = s.outr.growth) ∧
        (∀ d, x.drift = some d →
          if fld x.ctrl 19 16 ≠ 0 ∧ 256 * (d : Int) > b.baseD + 256 * (fld x.ctrl 19 16 : Int) then
            t.outr.sticky.getLsbD 3 = true ∧ t.outr.drift = satAdd 0xFFFF s.outr.drift 1 else t.outr.drift = s.outr.drift) ∧
        (x.drift = none → t.outr.drift = s.outr.drift))))

/-- Seeding (R134, R137, R154, R155, R156, Table Groom-9). An owner between steps sends the header of the shard at the head of its
queue, at first and again after a refusal; the receiver takes its values. A copy is written, once the record's zero fill is over, and
its seed bit set, and the last one makes the shard an understudy where no run is active. Acknowledgements confirm the header and count copies, the last one ends the seeding, and a
refusal or an unreachable partner ends it without a mirror. -/
def Obligations.SeedingCopiesAShard : Prop :=
  (∀ (errs : List AccErr) (s u : State) (q : SeedOut) (i : Nat) (r : Shard) (retry : Bool) (pk : Packet), s.grm.seedQueue.head? = some q → q.headerSent = false →
    betweenSteps s q.hid = true → carriageClear s 5 = true → (if retry then ∃ d, q.retryAt = some d ∧ d ≤ s.time else q.retryAt = none) →
    findShard s q.hid = some i → u = readErrors (shardAddr i) 64 errs s → u.grm.seedQueue = s.grm.seedQueue → shardOf u q.hid = some r →
    pk = seedHdrPacket q.hid [r.age, r.p1.setWidth 64, r.p2.setWidth 64, r.last] 0xFFFF (srcAddr u) →
    Completes (if retry then .seedHeaderRetry errs else .seedHeaderSend errs) s (fun t => t.dram = u.dram ∧
      (∃ q', t.grm.seedQueue.head? = some q' ∧ q' = { q with headerSent := true, retryAt := none, kept := [(headerSeg, pk)] }) ∧
      t = toPartner r pk (modSeed q.hid (fun y => { y with headerSent := true, retryAt := none, kept := [(headerSeg, pk)] }) u))) ∧
  (∀ (p : Port) (pk : Packet) (s u : State) (i : Nat) (r : Shard), pk.kind = kSeedHdr → lengthOk pk = true → u = takeHanded p pk s →
    findShard u (pHid pk) = some i → readShard u i = r → r.role = roleSeeding → Memory.wf s.dram = true →
    Completes (.seedHdr p pk) s (fun t =>
      (u.grm.seedIn = none → t.grm.seedIn = some { hid := r.hid } ∧ readShard t i = { r with
        age := BitVec.ofNat 64 (hdrWord pk 0), p1 := BitVec.ofNat 48 (hdrWord pk 1), p2 := BitVec.ofNat 48 (hdrWord pk 2), last := BitVec.ofNat 64 (hdrWord pk 3) }) ∧
      (∀ a, a < shardAddr i ∨ shardAddr i + 64 ≤ a → memByte t.dram a = memByte s.dram a) ∧
      (∀ x, u.grm.seedIn = some x → t = ackSeed r (if x.hid = r.hid then 0 else 2) headerSeg u))) ∧
  (∀ (p : Port) (pk : Packet) (s u : State) (i : Nat) (r : Shard) (x : SeedIn), pk.kind = kSeedCopy → lengthOk pk = true →
    filling s (pHid pk) = false → u = takeHanded p pk s →
    findShard u (pHid pk) = some i → readShard u i = r → r.role = roleSeeding → u.grm.seedIn = some x → x.hid = r.hid → copySeg pk < shardSegs r →
    copyCount pk = min 256 (r.len - 256 * copySeg pk) → copySeg pk ∉ x.map → stateAddr r (256 * copySeg pk + copyCount pk) ≤ stateBytes → Memory.wf s.dram = true →
    Completes (.seedCopy p pk) s (fun t =>
      memRead t.dram (stateAddr r (256 * copySeg pk)) ((pk.bytes.drop 16).take (8 * copyCount pk)).length = (pk.bytes.drop 16).take (8 * copyCount pk) ∧
      (∀ a, (a < stateAddr r (256 * copySeg pk) ∨ stateAddr r (256 * copySeg pk) + ((pk.bytes.drop 16).take (8 * copyCount pk)).length ≤ a) →
        (a < shardAddr i ∨ shardAddr i + 64 ≤ a) → memByte t.dram a = memByte s.dram a) ∧
      ((s.cue.run ≠ none ∨ x.map.length + 1 ≠ shardSegs r) → t.grm.seedIn = some { x with map := x.map ++ [copySeg pk] }) ∧
      (s.cue.run = none → x.map.length + 1 = shardSegs r → t.grm.seedIn = none ∧ readShard t i = { r with role := roleUnderstudy }))) ∧
  (∀ (p : Port) (pk : Packet) (s u : State) (q : SeedOut) (i : Nat) (r : Shard), pk.kind = kSeedAck → lengthOk pk = true → u = takeHanded p pk s →
    u.grm.seedQueue.head? = some q → q.hid = pHid pk → q.headerSent = true → findShard u (pHid pk) = some i → readShard u i = r → Memory.wf s.dram = true →
    u.grm.seedErrs = [] →
    Completes (.seedAck p pk []) s (fun t =>
      (byteAt pk.bytes 2 = 0 → leAt pk.bytes 4 3 = headerSeg → ∃ q', t.grm.seedQueue.head? = some q' ∧ q'.hid = q.hid ∧ q'.headerOk = true ∧ q'.done = q.done) ∧
      (byteAt pk.bytes 2 = 0 → leAt pk.bytes 4 3 ≠ headerSeg → leAt pk.bytes 4 3 ∈ q.unacked → q.done + 1 ≠ shardSegs r →
        ∃ q', t.grm.seedQueue.head? = some q' ∧ q'.hid = q.hid ∧ q'.done = q.done + 1) ∧
      (byteAt pk.bytes 2 = 0 → leAt pk.bytes 4 3 ≠ headerSeg → leAt pk.bytes 4 3 ∈ q.unacked → q.done + 1 = shardSegs r →
        (∀ y ∈ t.grm.seedQueue, y.hid ≠ pHid pk) ∧ readShard t i = { r with seedout := false }) ∧
      (byteAt pk.bytes 2 = 1 → (∀ y ∈ t.grm.seedQueue, y.hid ≠ pHid pk) ∧ t.grm.sticky.getLsbD 10 = true ∧ readShard t i = { r with partner := 0, seedout := false }))) ∧
  (∀ (hid : BitVec 16) (s : State) (i : Nat) (r : Shard), findShard s hid = some i → readShard s i = r → r.role = roleOwner → r.seedout = true →
    reachable s r = false → Memory.wf s.dram = true → s.grm.seedErrs = [] →
    Completes (.seedAbort hid) s (fun t => (∀ y ∈ t.grm.seedQueue, y.hid ≠ hid) ∧ t.grm.sticky.getLsbD 10 = true ∧
      readShard t i = { r with partner := 0, seedout := false }))

/-- The bands of a PROJECT at a root, formed and staged (R69, R114, R134, R166, R170, R173). BAND_FORM adds the residuals to a fired
segment's sums, and the slot drains; BAND_STAGE casts the result: to Z8e, whose codes and e1 stay in staging, or with RANK 0b00
straight to the upper head's format under its scale in force; with its last segment the band goes on. The codes and scale bytes are those
of round_to and of the upper head's entry; e1 is G' − C in Z16. -/
def Obligations.BandsFormAndStage : Prop :=
  (∀ (head : Fin 4096) (seg : BitVec 24) (errs : List AccErr) (s u : State) (sh : SheetHead) (x : Slot) (c : Nat) (w : CueWord) (hd : Head) (b : Band),
    projectSlot s head.val seg.toNat = some (sh, x, c, w) → s.harn.heads[head.val]? = some hd → teamOut s (slotTeam s x) = false →
    carriageClear s 3 = true → (∀ y ∈ s.prj.bands, y.head = head.val → y.step < x.step → y.band = bandOf w seg.toNat → stagingHeld y = false) →
    b = (findBand s head.val x.step (bandOf w seg.toNat)).getD { head := head.val, cue := c, step := x.step, band := bandOf w seg.toNat } →
    ((findBand s head.val x.step (bandOf w seg.toNat)).isSome = true ∨ stagingFits s w sh.len (bandOf w seg.toNat) = true) →
    (∀ y ∈ b.formed, y.1 ≠ seg.toNat) → seg.toNat ∉ b.staged → sheetFirst s x.step c (formReady s (slotTeam s x)) = true →
    u = (if residualZero s x.step w then s else readErrors (hd.resAt + 512 * seg.toNat) (2 * x.seglen) errs s) →
    u.prj.bands = s.prj.bands → slotOf u head.val seg.toNat = some x →
    Completes (.bandForm head seg errs .clean) s (fun t => t.dram = u.dram ∧ (∃ b', findBand t head.val x.step (bandOf w seg.toNat) = some b' ∧
      b'.formed = b.formed ++ [(seg.toNat, ((slotGrads x).zipIdx.map (fun z => zAdd z.1 (residual u hd x.step w (256 * seg.toNat + z.2)))).map (·.v))] ∧
      b'.st = b.st ∧ b'.info = b.info ++ [(seg.toNat, x.scale, x.blkovf)]) ∧
      ∃ y, slotOf t head.val seg.toNat = some y ∧ y.st = (if x.st = .fenced then .fenced else .draining))) ∧
  (∀ (head : Fin 4096) (seg : BitVec 24) (s : State) (sh : SheetHead) (x : Slot) (c : Nat) (w : CueWord) (img : Sheet) (b : Band) (zs : List (BitVec 48))
      (o : CastOut), projectSlot s head.val seg.toNat = some (sh, x, c, w) → s.cue.sheet = some img →
    findBand s head.val x.step (bandOf w seg.toNat) = some b → b.cue = c → b.formed.find? (fun y => decide (y.1 = seg.toNat)) = some (seg.toNat, zs) →
    seg.toNat ∉ b.staged → unitHeld s unitWardrobe = false → wardrobeTurn s x.step c = true →
    (cRank w = 0 → ∃ a u v e, upperOpen s w x.step = some (a, u, v) ∧ windowEntry v seg.toNat = some e) →
    o = castSeg ⟨1, 6, 1, cPrnd w, false, 2⟩ (zs.map zVal) (fun _ => 0)
      (fun i => srDraw img.seed (BitVec.ofNat 64 x.step) sh.hid 0x21 (BitVec.ofNat 32 (256 * seg.toNat + i))) →
    Completes (.bandStage head seg .clean) s (fun t => ∃ b', findBand t head.val x.step (bandOf w seg.toNat) = some b' ∧ b'.staged = b.staged ++ [seg.toNat] ∧
      b'.st = (if b'.staged.length = (bandSegs w sh.len (bandOf w seg.toNat)).2 then (if cRank w = 0 then .send else .project) else b.st) ∧
      (cRank w = 0 → ∀ a ush uhd e, upperOpen s w x.step = some (a, ush, uhd) → windowEntry uhd seg.toNat = some e →
        b'.pCast = b.pCast ++ (List.range ((zs.length + 63) / 64)).map (fun j =>
          let r := castSeg ⟨1, 6, ush.fmt.toNat, cPrnd w, cPovf w, 1⟩ (((zs.map zVal).drop (64 * j)).take 64) (fun _ => entryExp e ((4 * seg.toNat + j) % 4))
            (fun i => srDraw img.seed (BitVec.ofNat 64 x.step) (cUhid w) 0x22 (BitVec.ofNat 32 (64 * (4 * seg.toNat + j) + i)))
          (4 * seg.toNat + j, r.codes, r.dscale.getD 0 0))) ∧
      (cRank w ≠ 0 → b'.cCodes = b.cCodes ++ (List.range o.dscale.length).map (fun j => (4 * seg.toNat + j, (o.codes.drop (64 * j)).take 64, o.dscale.getD j 0)) ∧
        b'.e1 = b.e1 ++ [(seg.toNat, (List.range zs.length).map (fun i =>
          BitVec.ofNat 16 (toZ16 (zSub (zRead (if (zVal (zs.getD i 0)).isNone then zVoid else zs.getD i 0))
            (zIn (blockVal .z8e (o.codes.drop (64 * (i / 64))) (o.dscale.getD (i / 64) 0) (i % 64))))).1))])))

/-- The bands of a PROJECT at a root, sent and restored (R86, R114, R134, R165, R168 to R171). BAND_SEND casts the blocks of P whose
scale in force is held, and the band goes on with its last block; the segment whose blocks are all cast is contributed as slot 64, and
with RANK 0b00 the cast band is; RESIDUAL_WRITE writes the new residuals and nothing else; BAND_OUT casts the restored band with the
conversion and the scales of the cue, one multicast job for each segment. -/
def Obligations.BandsSendAndRestore : Prop :=
  (∀ (head : Fin 4096) (band : Nat) (s : State) (b : Band) (sh ush : SheetHead) (w : CueWord) (a : Nat) (uhd : Head) (bl : List (List (BitVec 32) × Byte)),
    bandIn s head.val band (fun b => b.st == .send) = some b → findBand s head.val b.step band = some b → bandWord s b = some (sh, w) →
    upperOpen s w b.step = some (a, ush, uhd) → unitHeld s unitWardrobe = false → permitted s b.step b.cue = true → wardrobeTurn s b.step b.cue = true →
    cRank w = 0 → castBlocks s head.val b.step band ush.len = some bl → chunkRoom s (upperChunks ush band) = true →
    Completes (.bandSend head band .clean) s (fun t => findBand t head.val b.step band = some { b with st := .residual } ∧
      ∃ q, t = enter q .clean (modBand head.val b.step band (fun y => { y with st := .residual }) s) ∧ q = upperContrib ush b.step band bl (srcAddr s) ∧
        q.kind = kContrib ∧ pHid q = ush.hid ∧ pMslot q = 64 ∧ pStep q = BitVec.ofNat 32 b.step ∧ (bl.length ≤ 4 → (q.bytes.drop 12).take 4 = padTo 4 (bl.map (·.2))))) ∧
  (∀ (head : Fin 4096) (band g : Nat) (s : State) (b : Band) (img : Sheet) (sh ush : SheetHead) (w : CueWord) (a : Nat) (uhd : Head),
    bandIn s head.val band (fun b => b.st == .send) = some b → findBand s head.val b.step band = some b → bandWord s b = some (sh, w) →
    upperOpen s w b.step = some (a, ush, uhd) → unitHeld s unitWardrobe = false → permitted s b.step b.cue = true → wardrobeTurn s b.step b.cue = true →
    s.cue.sheet = some img → cRank w ≠ 0 → g ∈ upperSegs w sh.len band → dueBlocks w sh.len uhd b g ≠ [] → chunkRoom s (upperChunks ush g) = true →
    Completes (.bandSend head band .clean) s (fun t => ∃ b' l, findBand t head.val b.step band = some b' ∧ b'.pCast = b.pCast ++ l ∧ l ≠ [] ∧
      (∀ y ∈ l, (bandBlocks w sh.len band).1 ≤ y.1 ∧ y.1 < (bandBlocks w sh.len band).1 + (bandBlocks w sh.len band).2 ∧
        (windowEntry uhd (y.1 / 4)).isSome = true ∧ (∀ z ∈ b.pCast, z.1 ≠ y.1) ∧
        ∀ e o, windowEntry uhd (y.1 / 4) = some e →
          o = castSeg ⟨1, 6, ush.fmt.toNat, cPrnd w, cPovf w, 1⟩ (((blockOfP w b y.1).getD []).map zVal) (fun _ => entryExp e (y.1 % 4))
            (fun i => srDraw img.seed (BitVec.ofNat 64 b.step) (cUhid w) 0x22 (BitVec.ofNat 32 (64 * y.1 + i))) →
          y.2 = (o.codes, o.dscale.getD 0 0)) ∧
      (upperSegs w sh.len band = [g] → ∃ v, v.harn = s.harn ∧ findBand v head.val b.step band = some { b with pCast := b'.pCast } ∧
        (∀ bl, castBlocks v head.val b.step g ush.len = some bl → t.harn = (enter (upperContrib ush b.step g bl (srcAddr s)) .clean v).harn) ∧
        (castBlocks v head.val b.step g ush.len = none → t.harn = s.harn)) ∧
      b'.st = (if b'.pCast.length = (bandBlocks w sh.len band).2 then .local else .send))) ∧
  (∀ (head : Fin 4096) (band : Nat) (s : State) (b : Band) (sh : SheetHead) (w : CueWord) (hd : Head), bandIn s head.val band (fun b => b.st == .residual) = some b →
    findBand s head.val b.step band = some b → bandWord s b = some (sh, w) → s.harn.heads[head.val]? = some hd → unitHeld s unitGroom = false →
    permitted s b.step b.cue = true → carriageClear s 3 = true → Memory.wf s.dram = true → sheetFirst s b.step b.cue (groomReady s) = true →
    (∀ i, i < (bandSegs w sh.len band).2 → (residualsOf s w b ((bandSegs w sh.len band).1 + i)).length ≤ 256) →
    Completes (.residualWrite head band) s (fun t =>
      (∃ b', findBand t head.val b.step band = some b' ∧ b'.st = (if cRank w = 0 then .out else .globalRestore)) ∧
      (∀ i, i < (bandSegs w sh.len band).2 →
        memRead t.dram (hd.resAt + 512 * ((bandSegs w sh.len band).1 + i)) (2 * (residualsOf s w b ((bandSegs w sh.len band).1 + i)).length) =
          ((residualsOf s w b ((bandSegs w sh.len band).1 + i)).map newResidual).flatMap (fun o => leBytes 2 o.1)) ∧
      (∀ m, m < hd.resAt + 512 * (bandSegs w sh.len band).1 ∨ hd.resAt + 512 * ((bandSegs w sh.len band).1 + (bandSegs w sh.len band).2) ≤ m →
        memByte t.dram m = memByte s.dram m))) ∧
  (∀ (head : Fin 4096) (band : Nat) (s : State) (b : Band) (sh : SheetHead) (w : CueWord), bandIn s head.val band (fun b => b.st == .out) = some b →
    findBand s head.val b.step band = some b → bandWord s b = some (sh, w) → unitHeld s unitWardrobe = false → permitted s b.step b.cue = true →
    wardrobeTurn s b.step b.cue = true → Memory.wf s.dram = true →
    (∀ i, i < (bandSegs w sh.len band).2 → ∃ vs, outVals s w b ((bandSegs w sh.len band).1 + i) = some vs ∧ vs.length ≤ 256) →
    Completes (.bandOut head band .clean) s (fun t => (∃ b', findBand t head.val b.step band = some b' ∧ b'.st = .done) ∧
      t.harn.jobs.length = s.harn.jobs.length + (bandSegs w sh.len band).2 ∧
      ∀ i, i < (bandSegs w sh.len band).2 → ∃ j ∈ t.harn.jobs, j.head = head.val ∧ j.seg = (bandSegs w sh.len band).1 + i ∧ j.step = b.step ∧
        j.band = true ∧ j.cast = true ∧ j.sent = false ∧
        ∃ v e, v.cue.sheet = s.cue.sheet ∧ e = (((b.info.find? (fun x => decide (x.1 = j.seg))).map (·.2)).map (·.1)).getD 0 ∧
          (∀ m, (∀ hd, s.harn.heads[head.val]? = some hd → m < scaleAddr hd (bandSegs w sh.len band).1 0 ∨
            scaleAddr hd ((bandSegs w sh.len band).1 + (bandSegs w sh.len band).2) 0 ≤ m) → memByte v.dram m = memByte s.dram m) ∧
          j.codes = (castFor v sh b.step j.seg w e ((outVals s w b j.seg).getD [])).codes ∧
          j.dscale = (castFor v sh b.step j.seg w e ((outVals s w b j.seg).getD [])).dscale))

/-- Passes of the arrays (R114, R158, R160, R161, R165, R175, R411, R429). PASS_ISSUE starts a pass of a ready tile, on array tile mod
4 or the next one in service, first in sheet order and under the cue's leave; a Z4 operand is expanded by the Wardrobe and counts
there. PASS_DONE keeps its Z48 results and counts it, and one whose checksum fails is not kept: ARRAY is raised and its tile may issue
again. -/
def Obligations.PassesIssueAndEnd : Prop :=
  (∀ (array : Fin 4) (head : Fin 4096) (band tile : Nat) (s : State) (b : Band) (sh : SheetHead) (w : CueWord) (rank : Nat) (g : Grant),
    bandIn s head.val band (fun b => tileReady s b tile) = some b → bandWord s b = some (sh, w) → passRank b.st = some rank → grantFor s b.step b.cue w = some g →
    tileArray s tile = array.val → sheetFirst s b.step b.cue (arrayReady s array b.st) = true → arrayOut s array.val = false → arrayFree s array = true → mayIssuePass s g array = true → outranked s array rank = false →
    Completes (.passIssue array head band tile []) s (fun t =>
      t.prj.running = s.prj.running ++ [{ array := array, head := b.head, step := b.step, band := b.band, tile := tile, grant := g.id, bad := [] }] ∧
      (array, s.time, passK w b) ∈ t.prj.started ∧ t.dram = s.dram ∧ t.ws = s.ws ∧
      t.wdr.elems = s.wdr.elems + (if operandFmt s w b = .z4 then BitVec.ofNat 64 (64 * (tileOperand s sh w b tile []).flatten.length) else 0) ∧
      ∃ y ∈ t.rid.grants, y.id = g.id ∧ y.inFlight = g.inFlight + 1 ∧ y.lastIssue = some s.time)) ∧
  (∀ (array : Fin 4) (s : State) (x : Pass) (b : Band) (img : Sheet) (sh : SheetHead) (w : CueWord), s.prj.running.find? (fun x => decide (x.array = array)) = some x →
    findBand s x.head x.step x.band = some b → s.cue.sheet = some img → bandWord s b = some (sh, w) →
    Completes (.passDone array true) s (fun t => t.prj.passes = s.prj.passes + 1 ∧ t.prj.running.length + 1 = s.prj.running.length ∧
      findBand t x.head x.step x.band = some (keepTile w sh.len x (tileCells s img sh w b x) b))) ∧
  (∀ (array : Fin 4) (s : State) (x : Pass) (b : Band), s.prj.running.find? (fun x => decide (x.array = array)) = some x →
    findBand s x.head x.step x.band = some b → reactOf s srcArray ≠ 5 →
    Completes (.passDone array false) s (fun t => t.prj.passes = s.prj.passes ∧ (t.flt.sources[srcArray.val]).st = .active ∧
      ∃ b', findBand t x.head x.step x.band = some b' ∧ x.tile ∉ b'.issued ∧ b'.p = b.p ∧ b'.l = b.l ∧ b'.ghat = b.ghat))

/-- Calls, curtains and USER packets (R86, R182, R183, R257, R264, R266, R275, Table Callboard-2). An operand or arrival that passes the
tests is stored once in its context; a result of the parent is kept and sent down; a packet that no cue of the sheet matches
sets MALFORMED; one that has to wait takes its chunks in the intake queue, and stays in the packet buffer where there is no room for
it. In the drain of a recovery stop a call changes nothing of the Callboard (the model's choice, log 19). A USER packet that is let in
goes on its way to the output its DEST names; one for endpoint 64 of the module is dropped, and one with DEST 0xFFFF too, which is the
model's choice (log 58). -/
def Obligations.CallsAndUserPacketsArrive : Prop :=
  (∀ (p : Port) (pk : Packet) (s u : State) (n : Int) (w : CueWord), pk.kind = kCall → lengthOk pk = true → unitHeld s unitCallboard = false → recovering s = false →
    u = takeHanded p pk s → u.stg.st ≠ .stopped → callMatches u p pk.bytes = true → n = nearStep (runBounds u).2.toNat (BitVec.ofNat 32 (leAt pk.bytes 4 4)) →
    (runBounds u).1 ≤ n → n ≤ (runBounds u).2 + 1 → 0 ≤ n → cueWord u (callCue pk.bytes) = some w → callRole pk.bytes ≠ 2 →
    ((callCtx u n.toNat (callCue pk.bytes)).map (fun y => y.received.getLsbD (callSlot pk.bytes))).getD false = false →
    Completes (.call p pk) s (fun t => ∃ x, callCtx t n.toNat (callCue pk.bytes) = some x ∧ x.received.getLsbD (callSlot pk.bytes) = true ∧
      (callSlot pk.bytes, if callCurtain pk.bytes then [] else callElems pk.bytes) ∈ x.operands)) ∧
  (∀ (p : Port) (pk : Packet) (s u : State) (n : Int) (w : CueWord), pk.kind = kCall → lengthOk pk = true → unitHeld s unitCallboard = false → recovering s = false →
    u = takeHanded p pk s → u.stg.st ≠ .stopped → callMatches u p pk.bytes = true → n = nearStep (runBounds u).2.toNat (BitVec.ofNat 32 (leAt pk.bytes 4 4)) →
    (runBounds u).1 ≤ n → n ≤ (runBounds u).2 + 1 → 0 ≤ n → cueWord u (callCue pk.bytes) = some w → callRole pk.bytes = 2 →
    ((callCtx u n.toNat (callCue pk.bytes)).bind (·.result)).isSome = false →
    Completes (.call p pk) s (fun t => ∃ x, callCtx t n.toNat (callCue pk.bytes) = some x ∧ x.sentDown = true ∧
      x.result = some (if callCurtain pk.bytes then [] else callElems pk.bytes))) ∧
  (∀ (p : Port) (pk : Packet) (s u : State), pk.kind = kCall → lengthOk pk = true → unitHeld s unitCallboard = false → recovering s = false →
    u = takeHanded p pk s → u.stg.st ≠ .stopped → callMatches u p pk.bytes = false →
    Completes (.call p pk) s (fun t => t.callb.sticky.getLsbD 6 = true ∧ t.dram = s.dram)) ∧
  (∀ (p : Port) (pk : Packet) (s : State), pk.kind = kCall → lengthOk pk = true → unitHeld s unitCallboard = false →
    callWaits s p pk.bytes = true →
    Completes (.call p pk) s (fun t =>
      (chunkRoom s (chunks pk) = true → (∃ b, t.callb.held = s.callb.held ++ [⟨p, pk.bytes, b⟩]) ∧ t.dram = s.dram) ∧
      (chunkRoom s (chunks pk) = false → t = s))) ∧
  (∀ (p : Port) (pk : Packet) (s : State), pk.kind = kCall → recovering s = true →
    Completes (.call p pk) s (fun t => t.callb = s.callb)) ∧
  (∀ (p : Port) (pk : Packet) (s : State) (o : SwPort), isOpen s p = true → pk.kind = kUser → lengthOk pk = true → classOk pk = true → mirrors s p false pk = false →
    pk.dest ≠ 0xFFFF → pk.dest ≠ ownAddr s → (∀ h : pk.vl.val < 2, ((s.sched.policer[p.val])[pk.vl.val]).rate = 0) →
    (pkCells pk : Int) ≤ lossyFree s → (resolve (some p) none pk s).1 = .out o →
    Completes (.user p pk) s (fun t => t.swc.transit = s.swc.transit ++ [⟨pk, s.swc.nextBuf, fabric p, o, some p⟩] ∧ t.swc.queued = s.swc.queued)) ∧
  (∀ (p : Port) (pk : Packet) (s : State), isOpen s p = true → pk.kind = kUser → lengthOk pk = true → classOk pk = true → mirrors s p false pk = false →
    (pk.dest = 0xFFFF ∨ pk.dest = ownAddr s) →
    Completes (.user p pk) s (fun t => t = freeCells p pk.vl (pkCells pk) (countDropped p s) ∧ t.swc = s.swc))

/-- Lanes (R220 to R228, R231, R235 to R237, Table Lanes-3). SUPERFRAME_RECEIVED decodes the superframe of a MARKED lane: it counts the
codewords and pattern errors, reads its info word and hands its data cells on, and the lane that a superframe of several active lanes
still waits for hands on the cells of them all, one of each active lane in turn; IDLE_NEXT moves it to IDLE. A lane whose info word
failed goes to IDLE with its port (the model's choice, log 56), and goes by the LLANE it knows (log 93). LANE_LOCKED takes 64 valid
headers at the offset under hunt and goes to the next offset where one is invalid; LANE_MARKED takes the markers. BLOCK_LOSS, MARK_LOSS
and LOS take the lock down or make the lane BAD. ENERGY_DETECTED notes the wake burst, and a lane that is not MARKED 6,656 ticks later
is BAD; that the port leaves receive idle with the last such lane is the model's choice (log 56). -/
def Obligations.LanesLockAndLose : Prop :=
  (∀ (lane : LaneId) (rx : SuperframeRx) (s : State) (x : Lane) (q : LanePort) (f : LineFrame), x = s.lane.lanes[lane.val] → x.lock = .marked →
    q = s.lane.ports[(portOfLane lane).val] → f = readLine (x.entry.getLsbD 25) rx.line → reactOf s srcLane ≠ 5 →
    Completes (.superframeReceived lane rx) s (fun t =>
      (t.lane.lanes[lane.val]).uncorr = satAdd 0xFFFF x.uncorr (badWordCount f.words) ∧
      (t.lane.lanes[lane.val]).corr = satAdd 0xFFFF_FFFF x.corr (correctedCount f.words) ∧
      (∀ w, f.info = some w → (t.lane.lanes[lane.val]).llane = infoLlane w ∧ (t.lane.lanes[lane.val]).sfc = infoSfc w ∧
        (t.lane.ports[(portOfLane lane).val]).peerGood = infoRxGood w ∧
        (t.lane.lanes[lane.val]).pattern = satAdd 0xFFFF x.pattern (checkPattern f (infoFill w) 0 (frameCells f (infoLlane w) (infoSfc w)) x.prbsRx).1 ∧
        (infoIdleNext w = true → (t.lane.lanes[lane.val]).lock = .idle ∧ (t.lane.ports[(portOfLane lane).val]).rxIdle = true) ∧
        (infoIdleNext w = false → q.rxIdle = false → (t.lane.lanes[lane.val]).lock = .marked) ∧
        (lanesIn (infoActive w) = [infoLlane w] → q.rxSf = [] →
          (∀ l ∈ lanesOf (portOfLane lane), l ≠ lane → (s.lane.lanes[l.val]).lock ≠ .marked) →
          (t.lane.ports[(portOfLane lane).val]).rxCells = q.rxCells ++ frameData f (frameCells f (infoLlane w) (infoSfc w))) ∧
        (∀ z : RxSf, q.rxSf = [z] → z.sfc = infoSfc w → z.done = false → z.active = some (infoActive w) →
          (infoActive w).getLsbD (infoLlane w).toNat = true → (∀ y ∈ z.lanes, y.2.1 ≠ infoLlane w) →
          (∀ l ∈ lanesOf (portOfLane lane), l ≠ lane → (s.lane.lanes[l.val]).lock ≠ .marked ∨ ∃ y ∈ z.lanes, y.1 = l) →
          (t.lane.ports[(portOfLane lane).val]).rxCells = q.rxCells ++ (List.range 325).flatMap (fun d => (lanesIn (infoActive w)).map (fun i =>
            if i = infoLlane w then (frameData f (frameCells f (infoLlane w) (infoSfc w))).getD d none
            else ((z.lanes.find? (fun y => decide (y.2.1 = i))).bind (fun y => y.2.2.getD d none)))))) ∧
      (f.info = none → (t.lane.lanes[lane.val]).lock = (if q.rxIdle then .idle else .marked) ∧ (t.lane.lanes[lane.val]).llane = x.llane))) ∧
  (∀ (lane : LaneId) (heads : List Level) (s : State) (x : Lane), x = s.lane.lanes[lane.val] → x.lock = .hunt → heads.length = 64 →
    Completes (.laneLocked lane x.hunt heads) s (fun t =>
      ((∀ v ∈ heads, headValid (headOfLevel (x.entry.getLsbD 25) v) = true) → t = modLane lane (fun y => { y with lock := .locked }) s) ∧
      ((∃ v ∈ heads, headValid (headOfLevel (x.entry.getLsbD 25) v) = false) → t = modLane lane (fun y => { y with hunt := x.hunt + 1 }) s))) ∧
  (∀ (lane : LaneId) (m0 m1 next : List Level) (shift : Nat) (s : State) (x : Lane), x = s.lane.lanes[lane.val] →
    distance (bodyOfLine (x.entry.getLsbD 25) m0) mark0 ≤ 8 → distance (bodyOfLine (x.entry.getLsbD 25) m1) mark1 ≤ 8 →
    ((x.lock = .locked ∧ distance (bodyOfLine (x.entry.getLsbD 25) next) mark0 ≤ 8) ∨ (x.lock = .idle ∧ x.energyAt.isSome = true ∧ shift ≤ 16)) →
    Completes (.laneMarked lane m0 m1 next shift) s (fun t => (t.lane.lanes[lane.val]).lock = .marked ∧ (t.lane.lanes[lane.val]).badMarks = 0 ∧
      (x.lock = .idle → (t.lane.ports[(portOfLane lane).val]).rxIdle = false))) ∧
  (∀ (lane : LaneId) (heads : List Level) (s : State) (x : Lane), x = s.lane.lanes[lane.val] → (x.lock = .locked ∨ x.lock = .marked) → heads.length = 1024 →
    32 ≤ heads.countP (fun v => !headValid (headOfLevel (x.entry.getLsbD 25) v)) → reactOf s srcLane ≠ 5 →
    Completes (.blockLoss lane heads) s (fun t => (t.lane.lanes[lane.val]).lock = .hunt ∧ (t.lane.lanes[lane.val]).sticky.getLsbD 1 = true ∧
      (x.lock = .marked → laneActive s lane = true → (s.lane.ports[(portOfLane lane).val]).rxIdle = false →
        (t.lane.lanes[lane.val]).bad = true ∧ (t.lane.lanes[lane.val]).good = false))) ∧
  (∀ (lane : LaneId) (s : State), (s.lane.lanes[lane.val]).lock = .marked → 4 ≤ (s.lane.lanes[lane.val]).badMarks → reactOf s srcLane ≠ 5 →
    Completes (.markLoss lane) s (fun t => (t.lane.lanes[lane.val]).lock = .locked ∧ (t.lane.lanes[lane.val]).sticky.getLsbD 2 = true)) ∧
  (∀ (lane : LaneId) (s : State), (s.lane.lanes[lane.val]).lock ≠ .off → (s.lane.lanes[lane.val]).lock ≠ .idle → reactOf s srcLane ≠ 5 →
    Completes (.los lane) s (fun t =>
      ((s.lane.ports[(portOfLane lane).val]).rxIdle = true → t = s) ∧
      ((s.lane.ports[(portOfLane lane).val]).rxIdle = false → (t.lane.lanes[lane.val]).bad = true ∧ (t.lane.lanes[lane.val]).good = false ∧
        (t.lane.lanes[lane.val]).sticky.getLsbD 3 = true))) ∧
  (∀ (lane : LaneId) (s : State), (s.lane.lanes[lane.val]).lock = .idle → (s.lane.lanes[lane.val]).energyAt = none →
    Completes (.energyDetected lane) s (fun t => t = modLane lane (fun x => { x with energyAt := some s.time }) s)) ∧
  (∀ (lane : LaneId) (s : State) (d : Nat), (s.lane.lanes[lane.val]).lock = .idle → (s.lane.lanes[lane.val]).late = false →
    (s.lane.lanes[lane.val]).energyAt = some d → d + 6656 ≤ s.time → reactOf s srcLane ≠ 5 →
    Completes (.wakeTimeout lane) s (fun t => (t.lane.lanes[lane.val]).bad = true ∧ (t.lane.lanes[lane.val]).late = true ∧
      ((∀ l ∈ lanesOf (portOfLane lane), l ≠ lane → (s.lane.lanes[l.val]).lock ≠ .idle ∨ (s.lane.lanes[l.val]).late = true) →
        (t.lane.ports[(portOfLane lane).val]).rxIdle = false)))

/-- Superframes and idle (R217, R219, R223, R228, R232, R233, R235 to R237, R260, R262). INFO_WORD_FIXED fixes the info word with the set
of R232 at 32 ticks before a boundary; SUPERFRAME_START, at the boundary, sends the superframe on every lane that can be driven, with
the port's cells in turn over the active lanes, and its set is in force from then on; after IDLE_NEXT the direction is idle, in which
only the count runs. The link layer asks for idle, and asks to leave it with a wake burst on every lane that can be driven, in that
lane's polarity; the train blocks end at boundary B. With no active lane the port's cells stay (the model's choice, log 82). -/
def Obligations.SuperframesStartAndIdle : Prop :=
  (∀ (p : Port) (s : State), (s.lane.ports[p.val]).started = true →
    (∀ u, (s.lane.ports[p.val]).startAt = some u → u < s.time + 32 ∧ (s.time + 32 - u) % 1664 = 0) →
    Completes (.infoWordFixed p) s (fun t => ∃ f, t = modLanePort p (fun x => { x with fixed := some f }) s ∧ f.rxGood = rxGood s p ∧
      f.active = chooseActive s p ∧ f.sfc = (s.lane.ports[p.val]).sfc ∧ f.setAt = s.time)) ∧
  (∀ (p : Port) (s : State) (f : InfoFix) (x : LanePort), x = s.lane.ports[p.val] → x.fixed = some f → f.setAt + 32 = s.time →
    Completes (.superframeStart p) s (fun t => (t.lane.ports[p.val]).sfc = x.sfc + 1 ∧ (t.lane.ports[p.val]).startAt = some s.time ∧
      (t.lane.ports[p.val]).fixed = none ∧
      (x.idleSent = false → x.txIdle = false → (∃ lines, t.out = .superframe p f.active f.rxGood f.idleNext f.sfc lines :: s.out ∧
          lines.map Prod.fst = ((List.range 8).filter (fun i => !laneDisabled s (laneAt p i))).map (laneAt p) ∧
          ∀ i, i < 8 → laneDisabled s (laneAt p i) = false → (laneAt p i, (laneLine s p f x.txCells i).1) ∈ lines) ∧
        (t.lane.ports[p.val]).txCells = x.txCells.drop (325 * (lanesIn f.active).length) ∧
        (t.lane.ports[p.val]).txActive = f.active ∧ (t.lane.ports[p.val]).startSfc = f.sfc ∧ (t.lane.ports[p.val]).startStg = s.stg.now ∧
        (t.lane.ports[p.val]).idleSent = f.idleNext) ∧
      (x.idleSent = false → x.txIdle = true → x.exiting = none → t.out = s.out ∧ (t.lane.ports[p.val]).txIdle = true) ∧
      (x.idleSent = false → x.txIdle = true → ∀ b, x.exiting = some b →
        (s.time < b → t.out = s.out ∧ (t.lane.ports[p.val]).txIdle = true) ∧
        (b ≤ s.time → (∃ lines, t.out = .superframe p f.active f.rxGood f.idleNext f.sfc lines :: s.out) ∧
          (t.lane.ports[p.val]).txIdle = false ∧ (t.lane.ports[p.val]).exiting = none)) ∧
      (x.idleSent = true → x.exitReq = false → t.out = s.out ∧ (t.lane.ports[p.val]).txIdle = true) ∧
      (x.idleSent = true → x.exitReq = true → (t.lane.ports[p.val]).exiting = some (s.time + 256) ∧
        t.out = .wake p (s.time + 20) (s.time + 148) (((lanesOf p).filter (fun l => !laneDisabled s l)).map (wakeLine s)) :: s.out))) ∧
  (∀ (p : Port) (s : State), wantsIdle s p = true → (s.lane.ports[p.val]).started = true →
    ((s.lane.ports[p.val]).txIdle = false ∨ (s.lane.ports[p.val]).exiting.isSome = true) →
    Completes (.idleRequest p) s (fun t => t = modLanePort p (fun x => { x with idleReq := true }) s)) ∧
  (∀ (p : Port) (s : State), wantsExit s p = true →
    Completes (.idleExitRequest p) s (fun t =>
      ((s.lane.ports[p.val]).txIdle = true → (s.lane.ports[p.val]).exiting = none →
        t = emit (.wake p (s.time + 20) (s.time + 148) (((lanesOf p).filter (fun l => !laneDisabled s l)).map (wakeLine s)))
          (modLanePort p (fun x => { x with exiting := some (s.time + 256), idleReq := false }) s)) ∧
      ((s.lane.ports[p.val]).txIdle = false → (s.lane.ports[p.val]).idleSent = true → t = modLanePort p (fun x => { x with exitReq := true }) s) ∧
      ((s.lane.ports[p.val]).txIdle = false → (s.lane.ports[p.val]).idleSent = false → (s.lane.ports[p.val]).fixed = none →
        t = modLanePort p (fun x => { x with idleReq := false }) s)))

/-- Cells that a link receives, as the lanes deliver them in port order (R228, R243, R244, R247, R252 to R256, R305). A whole data frame
with a good CRC and the SEQ expected is accepted: in OPEN its packet goes to the switch core, in ROLLCALL and OFF_BOOK it is dropped
with OFFBOOK_DROP and counted; one seen before is discarded; one with a bad CRC or a LOST cell is counted and starts
a NAK episode. A LINK cell frees what it acknowledges, and its NAK has every unacknowledged frame sent again. A HELLO that fits takes
the link to ROLLCALL; a ROLLCALL with SEEN = 1 takes it to OPEN where the neighbour is the one expected, and to OFF_BOOK where not. -/
def Obligations.LinksReceive : Prop :=
  (∀ (p : Port) (b : List Byte) (r rest : List RxCell) (s : State) (vl k plen : Nat) (seq : BitVec 12) (f : List Byte),
    linkLive s.link[p.val] = true → controlOk b = false → dataHeader b = some (vl, seq, k, plen) → (some b :: r).length = k →
    (s.link[p.val]).offer.toList.getD vl 0 ≠ 0 → (s.lane.ports[p.val]).rxCells = (some b :: r) ++ rest →
    f = (some b :: r).flatMap (fun c => c.getD []) →
    Completes (.dataFrame p k) s (fun t => (t.lane.ports[p.val]).rxCells = rest ∧
      (none ∉ r → f.drop (64 * k - 4) = crc32Bytes (f.take (64 * k - 4)) → seq = (s.link[p.val]).rxExpect →
        (t.link[p.val]).rxExpect = (s.link[p.val]).rxExpect + 1 ∧ (t.link[p.val]).anyAccepted = true ∧ (t.link[p.val]).nak = false ∧
        (isOpen s p = true → ∃ u, t = routeAccepted p (packetOf vl plen f) f u ∧ u.swc = s.swc ∧ u.sched = s.sched) ∧
        (isOpen s p = false → (t.link[p.val]).sticky.getLsbD 7 = true ∧
          (t.link[p.val]).dropped = satAdd 0xFFFF (s.link[p.val]).dropped 1 ∧ t.swc = s.swc)) ∧
      (none ∉ r → f.drop (64 * k - 4) = crc32Bytes (f.take (64 * k - 4)) → 1 ≤ ((s.link[p.val]).rxExpect - seq).toNat →
        ((s.link[p.val]).rxExpect - seq).toNat ≤ 2048 →
        (t.link[p.val]).rxExpect = (s.link[p.val]).rxExpect ∧ (t.link[p.val]).owed = true ∧ t.swc = s.swc) ∧
      (none ∈ r ∨ f.drop (64 * k - 4) ≠ crc32Bytes (f.take (64 * k - 4)) → (t.link[p.val]).rxExpect = (s.link[p.val]).rxExpect ∧
        (t.link[p.val]).nak = true ∧ (t.link[p.val]).crcBad = satAdd 0xFFFF (s.link[p.val]).crcBad 1 ∧ t.swc = s.swc))) ∧
  (∀ (p : Port) (bad : List (BitVec 12)) (b : List Byte) (rest : List RxCell) (s : State) (i : Nat), (s.lane.ports[p.val]).rxCells = some b :: rest →
    (s.link[p.val]).state ≠ .down → controlOk b = true → (byteAt b 1).toNat = 1 → (leAt b 2 2).testBit 14 = true → (leAt b 2 2).testBit 15 = false →
    (s.link[p.val]).unacked.findIdx? (fun u => decide (u.seq = BitVec.ofNat 12 (leAt b 2 2))) = some i →
    Completes (.linkCell ⟨p, bad⟩) s (fun t => (t.link[p.val]).unacked = (s.link[p.val]).unacked.drop (i + 1) ∧
      (t.link[p.val]).lastFreed = some (BitVec.ofNat 12 (leAt b 2 2)) ∧ t.out = s.out ∧ (t.lane.ports[p.val]).rxCells = rest)) ∧
  (∀ (p : Port) (b : List Byte) (rest : List RxCell) (s : State) (u : Unacked) (us : List Unacked), (s.lane.ports[p.val]).rxCells = some b :: rest →
    isOpen s p = true → controlOk b = true → (byteAt b 1).toNat = 1 → (leAt b 2 2).testBit 14 = false → (leAt b 2 2).testBit 15 = true →
    (s.link[p.val]).lastNak = none → (s.link[p.val]).unacked = u :: us → u.replays < replayLimit s.link[p.val] →
    Completes (.linkCell ⟨p, []⟩) s (fun t => t.out = ((u :: us).map (fun x => Out.cells p (frameBytes x.seq x.packet))).reverse ++ s.out ∧
      (t.link[p.val]).replays = satAdd 0xFFFF (s.link[p.val]).replays 1 ∧
      (t.link[p.val]).unacked = (u :: us).map (fun u => { u with replays := u.replays + 1 }))) ∧
  (∀ (p : Port) (b : List Byte) (rest : List RxCell) (s : State), (s.lane.ports[p.val]).rxCells = some b :: rest → (s.link[p.val]).state = .hello →
    controlOk b = true → (byteAt b 1).toNat = 2 →
    Completes (.hello p) s (fun t =>
      (helloValid (helloOf b) = true → helloCommon (helloOf b) = true → (helloOf b).seen = true →
        (t.link[p.val]).state = .rollcall ∧ (t.link[p.val]).verMajor = 1 ∧ (t.link[p.val]).peerEpoch = (helloOf b).epoch ∧ (t.link[p.val]).nextSeq = 0 ∧
        (t.link[p.val]).rxExpect = 0 ∧ (t.link[p.val]).unacked = []) ∧
      (helloValid (helloOf b) = false → (t.link[p.val]).state = .hello ∧ (t.link[p.val]).sticky.getLsbD 4 = true))) ∧
  (∀ (p : Port) (b : List Byte) (rest : List RxCell) (s : State), (s.lane.ports[p.val]).rxCells = some b :: rest → (s.link[p.val]).state = .rollcall →
    (s.link[p.val]).hostAdmit = false → controlOk b = true → (byteAt b 1).toNat = 3 → (rollOf b).seen = true →
    Completes (.rollcall p) s (fun t => (t.link[p.val]).peerRoll = some (rollOf b) ∧
      (t.link[p.val]).state = (if peerMatches s p (rollOf b) then .opened else .offBook)))

/-- Cells that a link sends, and its ups and downs (R228, R246, R248, R249, R251, R252, R254, R256, R270). LINK, HELLO and ROLLCALL cells
go to the lanes when owed or due. A replay timeout in OPEN sends every unacknowledged frame again, until the limit takes the link DOWN.
A frame of the module's own that a replay finds bad in the packet buffer raises BUF_UNCORR; it is dropped where it is lossy, and sent
from the unit's copy where it is not (R419; that a replay is where it is found is the model's choice, log 111).
PORT_UP starts negotiation with the offers in force; a link whose port is not UP goes DOWN and holds no unacknowledged frame. -/
def Obligations.LinksSendAndGoDown : Prop :=
  (∀ (p : Port) (bytes : List Byte) (s : State), ((sendCells p bytes s).lane.ports[p.val]).txCells =
      (s.lane.ports[p.val]).txCells ++ pieces 64 (bytes.length / 64) bytes ∧ (sendCells p bytes s).out = .cells p bytes :: s.out) ∧
  (∀ (p : Port) (s : State), txReady s p = true → linkDue s s.link[p.val] = true →
    Completes (.linkCellSend p) s (fun t => t = modLink p (fun l => { l with owed := false, linkAt := some s.time, linkLast := true })
      (sendCells p (linkCellBytes s.link[p.val]) s))) ∧
  (∀ (p : Port) (s : State), txReady s p = true → helloDue s s.link[p.val] = true →
    Completes (.helloSend p) s (fun t => t = modLink p (fun l => { l with helloAt := some s.time, linkLast := false })
      (sendCells p (helloBytes s.link[p.val]) s))) ∧
  (∀ (p : Port) (s : State), txReady s p = true → rollDue s s.link[p.val] = true →
    Completes (.rollcallSend p) s (fun t => t = modLink p (fun l => { l with rollAt := some s.time, rollOwed := false, linkLast := false })
      (sendCells p (ownRoll s p) s))) ∧
  (∀ (p : Port) (s : State) (u : Unacked) (rest : List Unacked), (s.link[p.val]).unacked = u :: rest → (s.link[p.val]).pausedAt = none →
    isOpen s p = true → (s.link[p.val]).timerAt + replayTo s.link[p.val] ≤ s.time → reactOf s srcLink ≠ 5 →
    Completes (.replayTimeout ⟨p, []⟩) s (fun t => u.replays < replayLimit s.link[p.val] →
        t.out = ((u :: rest).map (fun x => Out.cells p (frameBytes x.seq x.packet))).reverse ++ s.out ∧
        (t.link[p.val]).unacked = (u :: rest).map (fun u => { u with replays := u.replays + 1 }) ∧ (t.link[p.val]).timerAt = s.time) ∧
    (∀ bad : List (BitVec 12), Completes (.replayTimeout ⟨p, bad⟩) s (fun t =>
      replayLimit s.link[p.val] ≤ u.replays → (t.link[p.val]).state = .down ∧ (t.link[p.val]).unacked = [] ∧ (t.link[p.val]).sticky.getLsbD 2 = true))) ∧
  (∀ (p : Port) (bad : List (BitVec 12)) (s : State) (u : Unacked), (s.link[p.val]).unacked = [u] → (s.link[p.val]).pausedAt = none →
    isOpen s p = true → (s.link[p.val]).timerAt + replayTo s.link[p.val] ≤ s.time → u.replays < replayLimit s.link[p.val] →
    u.seq ∈ bad → u.arrival = none → reactOf s srcBufUncorr ≠ 5 →
    Completes (.replayTimeout ⟨p, bad⟩) s (fun t => (t.flt.sources[srcBufUncorr.val]).st = .active ∧
      (t.link[p.val]).unacked = (if lossy u.packet.vl then [] else [{ u with replays := u.replays + 1 }]) ∧
      (t.lane.ports[p.val]).txCells = (s.lane.ports[p.val]).txCells ++ (if lossy u.packet.vl then []
        else pieces 64 ((frameBytes u.seq u.packet).length / 64) (frameBytes u.seq u.packet)))) ∧
  (∀ (p : Port) (s : State), (s.link[p.val]).state = .down → portUp s p = true →
    Completes (.portUp p) s (fun t => (t.link[p.val]).state = .hello ∧ (t.link[p.val]).peerHello = none ∧ (t.link[p.val]).peerRoll = none ∧
      (∀ v : Fin 8, (t.link[p.val]).offer[v.val] = offerOf s.swc.creditLo s.swc.creditHi v.val) ∧ t.swc = s.swc)) ∧
  (∀ (p : Port) (s : State), (s.link[p.val]).state ≠ .down → portUp s p = false → reactOf s srcLink ≠ 5 →
    Completes (.portDown p) s (fun t => (t.link[p.val]).state = .down ∧ (t.link[p.val]).unacked = []))

/-- The switch core (R264, R267 to R269, R279, R283, R288, R289, R293, R419). FRAME_AT_OUTPUT queues a whole frame with its stamp, an
MCAST for an accelerator through the reorder stage; EGRESS_FRAME_START sends the head frame of the class picked, or hands it to the
local unit; HISTORY_UPDATE and QUEUE_SAMPLE take what their rules say of every port and queue; REORDER_TIMEOUT lets every held frame
that has waited too long go, and REORDER_CONTEXT_FREE frees an idle context. -/
def Obligations.SwitchQueuesAndSends : Prop :=
  (∀ (input output : Fin 128) (cls : Sys2Proof.Class) (s : State) (f : Transit),
    s.swc.transit.find? (fun t => decide (t.input = input) && decide (t.output = output) && decide (t.packet.vl = cls)) = some f →
    (∀ h : output.val < 64, s.swc.ctrl.getLsbD 1 = true → peerAccel s ⟨output.val, h⟩ = true → f.packet.kind ≠ kMcast) →
    Completes (.frameAtOutput input output cls) s (fun t => (∃ d, t = { s with
        swc := { s.swc with
          transit := dropFirst (fun t => decide (t.input = input) && decide (t.output = output) && decide (t.packet.vl = cls)) s.swc.transit
          queued := s.swc.queued ++ [⟨f.packet, f.buf, f.input, f.output, f.arrival, s.stg.now⟩] }
        sched := { s.sched with drr := d } }) ∧
      ∀ h : cls.val < 5, headOf s output cls = none → (t.sched.drr[output.val]).deficit[cls.val] = 0)) ∧
  (∀ (input output : Fin 128) (cls : Sys2Proof.Class) (s : State) (f : Transit) (h : output.val < 64) (c : Reorder),
    s.swc.transit.find? (fun t => decide (t.input = input) && decide (t.output = output) && decide (t.packet.vl = cls)) = some f →
    s.swc.ctrl.getLsbD 1 = true → peerAccel s ⟨output.val, h⟩ = true → f.packet.kind = kMcast →
    s.swc.reorder.find? (ctxIs ⟨output.val, h⟩ (pHid f.packet) (pStep f.packet)) = some c → c.next ≠ pSeg f.packet →
    Completes (.frameAtOutput input output cls) s (fun t =>
      (pSeg f.packet < c.next → t.swc.queued = s.swc.queued ++ [⟨f.packet, f.buf, f.input, f.output, f.arrival, s.stg.now⟩]) ∧
      (c.next < pSeg f.packet → t.swc.queued = s.swc.queued ∧ ∃ c', t.swc.reorder.find? (ctxIs ⟨output.val, h⟩ (pHid f.packet) (pStep f.packet)) = some c' ∧
        c'.next = c.next ∧ c'.held = c.held ++ [(pSeg f.packet, s.time, ⟨f.packet, f.buf, f.input, f.output, f.arrival, s.stg.now⟩)]))) ∧
  (∀ (p : Port) (c : Sys2Proof.Class) (q : Queued) (s : State), (pickClass s (fabric p)).1 = some c →
    headOf s (fabric p) c = some q →
    Completes (.egressFrameStart (fabric p) false) s (fun t => t.out = .cells p (frameBytes (s.link[p.val]).nextSeq q.packet) :: s.out ∧
      (t.link[p.val]).nextSeq = (s.link[p.val]).nextSeq + 1 ∧
      (t.link[p.val]).unacked = (s.link[p.val]).unacked ++ [⟨(s.link[p.val]).nextSeq, q.buf, q.packet, 0, q.input, q.arrival⟩] ∧
      (t.lane.ports[p.val]).txCells = (s.lane.ports[p.val]).txCells ++ pieces 64 ((frameBytes (s.link[p.val]).nextSeq q.packet).length / 64)
        (frameBytes (s.link[p.val]).nextSeq q.packet) ∧
      (lossy c = false → t.swc.queued.length + 1 = s.swc.queued.length))) ∧
  (∀ (p : Port) (c : Sys2Proof.Class) (q : Queued) (s : State), (pickClass s (localPort p)).1 = some c →
    headOf s (localPort p) c = some q →
    Completes (.egressFrameStart (localPort p) false) s (fun t => t.swc.handed = s.swc.handed ++ [⟨p, q.packet, q.buf⟩] ∧ t.out = s.out ∧
      (lossy c = false → t.swc.queued.length + 1 = s.swc.queued.length))) ∧
  (∀ (s : State), deckCycles s.swc.histAt + 256 ≤ deckCycles s.time →
    Completes .historyUpdate s (fun t => t = { s with swc := { s.swc with history := t.swc.history, histAt := s.time } } ∧
      ∀ p : Port, t.swc.history[p.val] = newHistory s p)) ∧
  (∀ (s : State), s.sched.interval ≠ 0 → s.stg.now.toNat % (s.sched.interval.toNat * 1024) = 0 → s.sched.lastSample ≠ some s.stg.now →
    Completes .queueSample s (fun t => t.sched.count = s.sched.count + 1 ∧ t.sched.interval = s.sched.intervalNext ∧ t.swc = s.swc ∧
      ∀ (o : Fin 128) (c : Fin 8), ((t.sched.samples[o.val])[c.val]).depth = queueCells s c o ∧
        ((t.sched.samples[o.val])[c.val]).maxDepth = max ((s.sched.samples[o.val])[c.val]).maxDepth (queueCells s c o))) ∧
  (∀ (p : Port) (hid : BitVec 16) (step : BitVec 32) (s : State) (c : Reorder), s.swc.reorder.find? (ctxIs p hid step) = some c →
    (∃ h ∈ c.held, h.2.1 + reorderTo s ≤ s.time) →
    Completes (.reorderTimeout p hid step) s (fun t => ∃ c', t.swc.reorder.find? (ctxIs p hid step) = some c' ∧
      (∀ h ∈ c'.held, s.time < h.2.1 + reorderTo s) ∧ t.swc.queued.length + c'.held.length = s.swc.queued.length + c.held.length)) ∧
  (∀ (p : Port) (hid : BitVec 16) (step : BitVec 32) (s : State) (c : Reorder), s.swc.reorder.find? (ctxIs p hid step) = some c → c.held = [] →
    c.lastAt + 4 * reorderTo s ≤ s.time →
    Completes (.reorderContextFree p hid step) s (fun t => t = { s with swc := { s.swc with reorder := s.swc.reorder.filter (fun x => !ctxIs p hid step x) } }))

/-- The Ethernet ports' links and addresses (R320 to R322, R324). A port that comes up makes its link-local address tentative and asks
for a lease; one that goes down loses its addresses. With no lease after 10 s it takes an IPv4 link-local address, which a lease
replaces. It answers ARP, solicitations and echo requests for its own addresses, takes a tentative address that is unique, and sends
and keeps LLDP, where the frame that brings a message is one that R320 lets in. The exact bytes that go out for DHCP, ARP, Neighbor
Discovery, ICMP and LLDP are the model's choice (log 29). -/
def Obligations.EthernetPortsTakeAddressesAndAnswer : Prop :=
  (∀ (hp : Fin 2) (s : State), (s.host.eth[hp.val]).up = false → unitHeld s (unitMac hp.val) = false → s.rst.ondie = true →
    (hp = 1 → s.rst.choice.getLsbD 0 = false) →
    Completes (.hostLinkUp hp) s (fun t => (t.host.eth[hp.val]).up = true ∧ (t.host.eth[hp.val]).upAt = s.time ∧
      (t.host.eth[hp.val]).tentative = [addr6 linkLocal (macOf s hp)] ∧ t.out = .ether hp 68 (beBytes 6 s.fuses.serial.toNat) :: s.out)) ∧
  (∀ (hp : Fin 2) (s : State),
    Completes (.hostLinkDown hp) s (fun t => (t.host.eth[hp.val]).up = false ∧ addr4 t.host.eth[hp.val] = none ∧ (t.host.eth[hp.val]).addrs6 = [] ∧
      (t.host.eth[hp.val]).master = none ∧ t.host.sessions = s.host.sessions ∧ (∀ i : Fin 2, i ≠ hp → t.host.eth[i.val] = s.host.eth[i.val]))) ∧
  (∀ (hp : Fin 2) (s : State), ethRuns s hp = true → (s.host.eth[hp.val]).lease = none → (s.host.eth[hp.val]).linkLocal4 = none →
    (s.host.eth[hp.val]).upAt + 10000 * ms ≤ s.time →
    Completes (.dhcpTimeout hp) s (fun t => ∃ a : BitVec 32, (t.host.eth[hp.val]).linkLocal4 = some a ∧ 0xA9FE_0100 ≤ a.toNat ∧ a.toNat ≤ 0xA9FE_FEFF)) ∧
  (∀ (fr : EthFrame) (a : BitVec 32) (s : State), ethTakes s fr false = true →
    Completes (.dhcpLease fr a) s (fun t => t = modEth fr.port (fun e => { e with lease := some a, linkLocal4 := none }) s)) ∧
  (∀ (fr : EthFrame) (sender : BitVec 32) (mac : BitVec 48) (target : BitVec 32) (s : State), ethTakes s fr false = true →
    addr4 s.host.eth[fr.port.val] = some target →
    Completes (.arpRequest fr sender mac target) s (fun t => t = emit (.ether fr.port 0x0806 (beBytes 2 1 ++ beBytes 2 0x0800 ++ [6, 4] ++ beBytes 2 2 ++
      beBytes 6 (macOf s fr.port).toNat ++ beBytes 4 target.toNat ++ beBytes 6 mac.toNat ++ beBytes 4 sender.toNat)) s)) ∧
  (∀ (fr : EthFrame) (source target : BitVec 128) (s : State), ethTakes s fr true = true → target ∈ (s.host.eth[fr.port.val]).addrs6 →
    Completes (.neighborDiscovery fr (.solicitation source target)) s (fun t => t = emit (.ether fr.port 58 (advertBody s fr.port target)) s)) ∧
  (∀ (fr : EthFrame) (prefixes : List (BitVec 64)) (s : State), ethTakes s fr true = true →
    Completes (.neighborDiscovery fr (.advertisement prefixes)) s (fun t =>
      (t.host.eth[fr.port.val]).addrs6 = (s.host.eth[fr.port.val]).addrs6 ∧
      ∀ x ∈ prefixes, addr6 x (macOf s fr.port) ∈ (s.host.eth[fr.port.val]).addrs6 ∨ addr6 x (macOf s fr.port) ∈ (t.host.eth[fr.port.val]).tentative)) ∧
  (∀ (hp : Fin 2) (a : BitVec 128) (unique : Bool) (s : State), ethRuns s hp = true → a ∈ (s.host.eth[hp.val]).tentative →
    Completes (.duplicateAddressDetection hp a unique) s (fun t => a ∉ (t.host.eth[hp.val]).tentative ∧
      (t.host.eth[hp.val]).addrs6 = (if unique then (s.host.eth[hp.val]).addrs6 ++ [a] else (s.host.eth[hp.val]).addrs6))) ∧
  (∀ (fr : EthFrame) (src : Peer) (dst : List Byte) (vlan : Option (BitVec 16)) (body : List Byte) (s : State), ethTakes s fr false = true →
    holdsAddr s.host.eth[fr.port.val] dst = true →
    Completes (.icmpEcho fr src dst vlan body) s (fun t => t = emit (.ether fr.port (if dst.length = 4 then 1 else 58)
      ((match vlan with | some v => [0x81, 0x00] ++ beBytes 2 v.toNat | none => []) ++ src.addr ++ [if dst.length = 4 then 0 else 129, 0] ++ body)) s)) ∧
  (∀ (hp : Fin 2) (s : State), ethRuns s hp = true → (∀ u, (s.host.eth[hp.val]).lldpAt = some u → u + 30000 * ms ≤ s.time) →
    Completes (.lldpSend hp) s (fun t => t = emit (.ether hp 0x88CC (lldpBytes s hp)) (modEth hp (fun e => { e with lldpAt := some s.time }) s))) ∧
  (∀ (fr : EthFrame) (c p : List Byte) (s : State), ethTakes s fr true = true →
    Completes (.lldpdu fr c p) s (fun t => t = modEth fr.port (fun e => { e with chassis := c.head?.map (fun x => (x, c.tail)), portId := p.head?.map (fun x => (x, p.tail)) }) s))

/-- The PTP service (R323). From the master chosen, a one-step Sync moves the clock by the offset it measures, and a two-step one waits
for its Follow_Up; a Delay_Req follows each offset measured, and its response gives the path delay; an Announce is kept, but one of
a worse master than the port's live one, and the port is chosen again; 4 Sync intervals with no Sync end the synchronised state. That
the clock moves by the whole offset, and that a master silent for 6 s is none, is the model's choice (log 51). -/
def Obligations.PtpFollowsItsMaster : Prop :=
  (∀ (fr : EthFrame) (seq : BitVec 16) (origin received : Nat) (correction : Int) (ident : W64) (s : State),
    fromMaster (choosePort s) fr ident = true →
    Completes (.sync fr seq false origin received correction ident) s (fun t => t.host.ptp.lastSync = s.time ∧
      t.host.ptp.adjust = s.host.ptp.adjust - ((received : Int) - correction + s.host.ptp.adjust - origin - s.host.ptp.pathDelay) ∧
      (((received : Int) - correction + s.host.ptp.adjust - origin - s.host.ptp.pathDelay).natAbs > 10000 → t.host.ptp.synced = false) ∧
      (((received : Int) - correction + s.host.ptp.adjust - origin - s.host.ptp.pathDelay).natAbs ≤ 1000 → 15 ≤ s.host.ptp.inBounds → t.host.ptp.synced = true) ∧
      t.host.ptp.reqAt = some (s.time / 2) ∧ ∃ b, t.out = .ether fr.port (if fr.l2 then 0x88F7 else 319) b :: s.out)) ∧
  (∀ (fr : EthFrame) (seq : BitVec 16) (origin received : Nat) (correction : Int) (ident : W64) (s : State),
    fromMaster (choosePort s) fr ident = true →
    Completes (.sync fr seq true origin received correction ident) s (fun t => t.host.ptp.twoStep = some (seq, (received : Int) - correction) ∧
      t.host.ptp.adjust = s.host.ptp.adjust ∧ t.host.ptp.lastSync = s.time ∧ t.out = s.out)) ∧
  (∀ (fr : EthFrame) (seq : BitVec 16) (origin : Nat) (correction rx : Int) (ident : W64) (s : State),
    fromMaster (choosePort s) fr ident = true → (choosePort s).host.ptp.twoStep = some (seq, rx) →
    Completes (.followUp fr seq origin correction ident) s (fun t => t.host.ptp.twoStep = none ∧ t.host.ptp.reqAt = some (s.time / 2) ∧
      t.host.ptp.adjust = s.host.ptp.adjust - (rx - correction + s.host.ptp.adjust - origin - s.host.ptp.pathDelay))) ∧
  (∀ (fr : EthFrame) (sent received : Nat) (correction : Int) (ident : W64) (s : State),
    fromMaster (choosePort s) fr ident = true → (choosePort s).host.ptp.reqAt = some sent →
    Completes (.delayResp fr s.host.ptp.reqSeq received correction ident) s (fun t => t = modPtp (fun p => { p with
      reqAt := none, pathDelay := ((p.t2 - sent) + ((received : Int) - correction - p.t1)) / 2 }) (choosePort s))) ∧
  (∀ (fr : EthFrame) (seq : BitVec 16) (twoStep : Bool) (origin received : Nat) (correction : Int) (ident : W64) (s : State),
    fromMaster (choosePort s) fr ident = false →
    Completes (.sync fr seq twoStep origin received correction ident) s (fun t => t = choosePort s)) ∧
  (∀ (fr : EthFrame) (master : PtpMaster) (s : State), ethTakes s fr true = true →
    Completes (.announce fr master) s (fun t =>
      ((∀ m, liveMaster s fr.port = some m → m.ident = master.ident ∨ betterRank master.rank m.rank = true) →
        (t.host.eth[fr.port.val]).master = some master ∧ (t.host.eth[fr.port.val]).masterAt = s.time ∧ t.host.ptp.port = bestPort t ∧ t.host.ptp.port ≠ none) ∧
      (∀ m, liveMaster s fr.port = some m → m.ident ≠ master.ident → betterRank master.rank m.rank = false → t = choosePort s))) ∧
  (∀ (s : State), s.host.ptp.synced = true → s.host.ptp.lastSync + 4 * s.host.ptp.interval ≤ s.time →
    Completes .ptpSyncLoss s (fun t => t = modPtp (fun p => { p with synced := false, inBounds := 0 }) s))

/-- The block takes its commands first in, first out: a step with `c` in front of the queue is `exec c` with the rest of the queue.
On an empty queue the model idles (its own choice, log 1). -/
def Obligations.StepRunsTheCommandInFront : Prop :=
  (∀ (c : Instr) (s : State) (rest : List Instr), s.pending = c :: rest → step s = exec c { s with pending := rest }) ∧
  (∀ (s : State), s.pending = [] → step s = .next (idle s))

/-- Every command completes. The one exception is a PATROL_SCRUB of an access that the data space does not have (R130); that it faults
is the model's choice (log 65). No command is refused. -/
def Obligations.EveryCommandCompletes : Prop :=
  ∀ (c : Instr) (s : State), (∃ t, exec c s = .next t) ∨
    (exec c s = .fault .outsideDataSpace ∧ ∃ a k, c = .patrolScrub a k ∧ 89478485 * 128 ≤ a)

/-- No command puts another into the queue or takes one from it, and none moves the model's clock except SLEW_CORRECTION, which is itself a
tick (R100). An idle step leaves the queue empty. The queue, the clock `time` and the idle step are the model's own (logs 1, 2). -/
def Obligations.CommandsLeaveTheQueueAlone : Prop :=
  (∀ (c : Instr) (s t : State), exec c s = .next t → t.pending = s.pending ∧ (c ≠ .slewCorrection → t.time = s.time)) ∧
  (∀ (s t : State), step s = .next t → t.pending = s.pending.tail)

/-- POWER reset (R424, R437): the stage clock is FREE at 0 and off, no sheet, run, plan or session is there, every mailbox and source is
at rest, the Prompter is in reset, and both memories are in their canonical form. Memory contents, fuses, flash and the box office
die have values of the model's own (logs 8 and 9), and the empty queue is the model's (log 1). -/
def Obligations.PowerResetIsIdle : Prop :=
  Memory.wf State.reset.dram = true ∧ Memory.wf State.reset.ws = true ∧ State.reset.pending = [] ∧
    State.reset.stg.st = .free ∧ State.reset.stg.now = 0 ∧ State.reset.stg.released = false ∧ State.reset.cue.sheet = none ∧ State.reset.cue.run = none ∧
    State.reset.topo.plan = none ∧ State.reset.host.sessions = [] ∧ (∀ i : Fin 64, (State.reset.host.mboxes[i.val]).owner = none) ∧
    (∀ i : SrcId, (State.reset.flt.sources[i.val]).st = .ok) ∧ State.reset.prm.running = false ∧ State.reset.rst.held = true ∧
    State.reset.rst.memReady = false ∧ (∀ p : Port, (State.reset.link[p.val]).state = .down) ∧ State.reset.rid.board = none

/-- The invariant of the model's memories: LPDDR6 and the working space keep their canonical form (addresses strictly rising, no zero
byte listed) over every step from every state that has it. The form, and that an unlisted byte reads as zero, are the model's own
(log 66). -/
def Obligations.MemoriesStayCanonical : Prop :=
  ∀ (s t : State), step s = .next t → Memory.wf s.dram = true → Memory.wf s.ws = true → Memory.wf t.dram = true ∧ Memory.wf t.ws = true

/-- R359, with R374 and R375: the fuses change only under FW_COMMIT and KEY_REVOKE; MIN_SVN never falls and never passes 64, also
when the running image has a higher SVN; FWREVOKE bits never go back; no other fuse changes. -/
def Obligations.FusesAreWrittenByTwoCommands : Prop :=
  (∀ (c : Instr) (s t : State), exec c s = .next t → t.fuses ≠ s.fuses → (∃ id ok, c = .fwCommit id ok) ∨ (∃ id, c = .keyRevoke id)) ∧
  (∀ (c : Instr) (s t : State), exec c s = .next t →
    t.fuses = { s.fuses with minSvn := t.fuses.minSvn, fwRevoke := t.fuses.fwRevoke } ∧ s.fuses.minSvn ≤ t.fuses.minSvn ∧
      t.fuses.fwRevoke &&& s.fuses.fwRevoke = s.fuses.fwRevoke) ∧
  (∀ (id : Nat) (ok : Bool) (s : State) (c : Cmd), cmdReady s id 0x0065 = some c → s.prm.trial = true → arg c 0 1 = 1 → 64 < s.prm.svn →
    Completes (.fwCommit id ok) s (fun t => t.fuses = s.fuses)) ∧
  (∀ (s : State), s.fuses.minSvn.val ≤ 64)

/-- R388: nothing on the module writes to the box office. Only its own events, its SPI port and the supply pins change it. -/
def Obligations.BoxOfficeStandsAlone : Prop :=
  ∀ (c : Instr) (s t : State), exec c s = .next t → t.boxDie ≠ s.boxDie →
    (∃ e p w, c = .readingClose e p w) ∨ c = .checkpoint ∨ (∃ m, c = .logRecord m) ∨ c = .boxPowerUp ∨ (∃ h, c = .sealChange h) ∨
      (∃ a b, c = .setCap a b) ∨ (∃ o d, c = .fwWrite o d) ∨ (∃ l, c = .boxFwCommit l) ∨ (∃ a, c = .standbyPor a) ∨ (∃ a r, c = .mainPor a r)

/-- R398: SET_CAP stores a CAP of 600 to 950 W and a DIDT of 10 to 200 W per µs and puts them in force from the next interval end,
READING_CLOSE; until then the values before it stay in force. It refuses anything else with LAST_OK = 0. A box office that has never
received one uses 600 W and 25 W per µs. That no reading closes before a late checkpoint is the model's choice (log 32). -/
def Obligations.SetCapTakesEffectAtTheIntervalEnd : Prop :=
  (∀ (cap didt : BitVec 16) (s : State), s.boxDie.powered = true → 600 ≤ cap.toNat → cap.toNat ≤ 950 → 10 ≤ didt.toNat → didt.toNat ≤ 200 →
    Completes (.setCap cap didt) s (fun t => t = { s with boxDie := { s.boxDie with capNext := some (cap.toNat, didt.toNat), lastOk := true } } ∧
      ∀ energy power slow, s.boxDie.closeAt ≤ s.time → ckptLate s.boxDie = false → Completes (.readingClose energy power slow) t (fun u =>
        u.boxDie.cap = cap.toNat ∧ u.boxDie.didt = didt.toNat ∧ u.boxDie.capNext = none))) ∧
  (∀ (cap didt : BitVec 16) (s : State), s.boxDie.powered = true → ¬(600 ≤ cap.toNat ∧ cap.toNat ≤ 950 ∧ 10 ≤ didt.toNat ∧ didt.toNat ≤ 200) →
    Completes (.setCap cap didt) s (fun t => t = { s with boxDie := { s.boxDie with lastOk := false } })) ∧
  (∀ (energy : Vector W64 8) (power : Vector (BitVec 16) 8) (slow : W64) (s : State), s.boxDie.powered = true → s.boxDie.closeAt ≤ s.time → ckptLate s.boxDie = false →
    s.boxDie.capNext = none → Completes (.readingClose energy power slow) s (fun t => t.boxDie.cap = s.boxDie.cap ∧ t.boxDie.didt = s.boxDie.didt)) ∧
  State.reset.boxDie.cap = 600 ∧ State.reset.boxDie.didt = 25 ∧ State.reset.boxDie.capNext = none

/-- R298: PLAN_ID is bytes 0 to 7, little-endian, of the SHA3-512 digest of the whole image with bytes 0x008 to 0x00F read as zero. A
plan that LOAD_PLAN takes into force carries that value, and one that carries another is not accepted. -/
def Obligations.PlanIdIsTheDigestOfTheImage : Prop :=
  ∀ (m : MemCmd) (s u : State) (c : Cmd) (img : List Byte), cmdReady s m.id 0x0020 = some c → arg c 0 4 ≤ 1048576 →
    Reads s u m 0x0020 planWindow (arg c 0 4) → img = memRead u.dram planWindow (arg c 0 4) →
    Completes (.loadPlan m) s (fun t =>
      (checkPlan u img = none → (planId t).toNat = leAt (sha3 (img.take 8 ++ zeros 8 ++ img.drop 16)) 0 8 ∧
        cmdResult t m.id = some (stOk, reasonFields 0 0 ++ leBytes 8 (leAt (sha3 (img.take 8 ++ zeros 8 ++ img.drop 16)) 0 8))) ∧
      (leAt img 8 8 ≠ leAt (sha3 (img.take 8 ++ zeros 8 ++ img.drop 16)) 0 8 → t.topo = u.topo ∧ ∃ l, cmdResult t m.id = some (stRefused, l)))

/-- The frame of the commands that act on one unit or two: what such a command does not list in `mayChange` (its unit, memory for a
command that stores, the answer, the free values drawn) is after it as before it; a command that stores nothing leaves every byte of
memory. -/
def Obligations.OneUnitCommandsKeepTheRest : Prop :=
  ∀ (c : Instr) (s t : State) (p : Part), (mayChange c).length ≤ 2 → exec c s = .next t → p ∉ mayChange c → p.same s t

/-- The frame of the commands that act on several units: host commands with their mailbox, datagrams, launches, plans and runs. -/
def Obligations.SeveralUnitCommandsKeepTheRest : Prop :=
  ∀ (c : Instr) (s t : State) (p : Part), 2 < (mayChange c).length → (mayChange c).length ≤ 13 → exec c s = .next t → p ∉ mayChange c → p.same s t

/-- The frame of the commands that can raise a fault source, whose reaction may go as far as COLD reach, and of the resets: flash,
fuses and the queue, and but for the power rails the box office die, are after them as before. -/
def Obligations.ReactionsAndResetsKeepTheRest : Prop :=
  ∀ (c : Instr) (s t : State) (p : Part), 13 < (mayChange c).length → exec c s = .next t → p ∉ mayChange c → p.same s t
end

