-- ==== Sys2Proof/Laws/State.lean ====
section
/-! SUPPORT. What each shared update of the state does to each field: one lemma a field, true by computation. -/

namespace Sys2Proof.Machine

@[simp] theorem emit_pending (o : Out) (s : State) : (emit o s).pending = s.pending := by rfl
@[simp] theorem emit_time (o : Out) (s : State) : (emit o s).time = s.time := by rfl
@[simp] theorem emit_draws (o : Out) (s : State) : (emit o s).draws = s.draws := by rfl
@[simp] theorem emit_issued (o : Out) (s : State) : (emit o s).issued = s.issued := by rfl
@[simp] theorem emit_cyc (o : Out) (s : State) : (emit o s).cyc = s.cyc := by rfl
@[simp] theorem emit_written (o : Out) (s : State) : (emit o s).written = s.written := by rfl
@[simp] theorem emit_out (o : Out) (s : State) : (emit o s).out = o :: s.out := by rfl
@[simp] theorem emit_dram (o : Out) (s : State) : (emit o s).dram = s.dram := by rfl
@[simp] theorem emit_ws (o : Out) (s : State) : (emit o s).ws = s.ws := by rfl
@[simp] theorem emit_stg (o : Out) (s : State) : (emit o s).stg = s.stg := by rfl
@[simp] theorem emit_cue (o : Out) (s : State) : (emit o s).cue = s.cue := by rfl
@[simp] theorem emit_callb (o : Out) (s : State) : (emit o s).callb = s.callb := by rfl
@[simp] theorem emit_harn (o : Out) (s : State) : (emit o s).harn = s.harn := by rfl
@[simp] theorem emit_wdr (o : Out) (s : State) : (emit o s).wdr = s.wdr := by rfl
@[simp] theorem emit_grm (o : Out) (s : State) : (emit o s).grm = s.grm := by rfl
@[simp] theorem emit_prj (o : Out) (s : State) : (emit o s).prj = s.prj := by rfl
@[simp] theorem emit_outr (o : Out) (s : State) : (emit o s).outr = s.outr := by rfl
@[simp] theorem emit_dig (o : Out) (s : State) : (emit o s).dig = s.dig := by rfl
@[simp] theorem emit_lane (o : Out) (s : State) : (emit o s).lane = s.lane := by rfl
@[simp] theorem emit_link (o : Out) (s : State) : (emit o s).link = s.link := by rfl
@[simp] theorem emit_swc (o : Out) (s : State) : (emit o s).swc = s.swc := by rfl
@[simp] theorem emit_sched (o : Out) (s : State) : (emit o s).sched = s.sched := by rfl
@[simp] theorem emit_topo (o : Out) (s : State) : (emit o s).topo = s.topo := by rfl
@[simp] theorem emit_host (o : Out) (s : State) : (emit o s).host = s.host := by rfl
@[simp] theorem emit_fuses (o : Out) (s : State) : (emit o s).fuses = s.fuses := by rfl
@[simp] theorem emit_flash (o : Out) (s : State) : (emit o s).flash = s.flash := by rfl
@[simp] theorem emit_prm (o : Out) (s : State) : (emit o s).prm = s.prm := by rfl
@[simp] theorem emit_rid (o : Out) (s : State) : (emit o s).rid = s.rid := by rfl
@[simp] theorem emit_boxRx (o : Out) (s : State) : (emit o s).boxRx = s.boxRx := by rfl
@[simp] theorem emit_boxDie (o : Out) (s : State) : (emit o s).boxDie = s.boxDie := by rfl
@[simp] theorem emit_flt (o : Out) (s : State) : (emit o s).flt = s.flt := by rfl
@[simp] theorem emit_door (o : Out) (s : State) : (emit o s).door = s.door := by rfl
@[simp] theorem emit_rst (o : Out) (s : State) : (emit o s).rst = s.rst := by rfl

@[simp] theorem fresh_pending (r : Reg) (k : Nat) (m : W64) (s : State) : (fresh r k m s).pending = s.pending := by rfl
@[simp] theorem fresh_time (r : Reg) (k : Nat) (m : W64) (s : State) : (fresh r k m s).time = s.time := by rfl
@[simp] theorem fresh_draws (r : Reg) (k : Nat) (m : W64) (s : State) : (fresh r k m s).draws = s.draws := by rfl
@[simp] theorem fresh_issued (r : Reg) (k : Nat) (m : W64) (s : State) : (fresh r k m s).issued = s.issued := by rfl
@[simp] theorem fresh_cyc (r : Reg) (k : Nat) (m : W64) (s : State) : (fresh r k m s).cyc = s.cyc.map (fun x => if x.1 = r ∧ x.2.1 = k then (x.1, x.2.1, x.2.2 &&& ~~~m) else x) := by rfl
@[simp] theorem fresh_written (r : Reg) (k : Nat) (m : W64) (s : State) : (fresh r k m s).written = s.written := by rfl
@[simp] theorem fresh_out (r : Reg) (k : Nat) (m : W64) (s : State) : (fresh r k m s).out = s.out := by rfl
@[simp] theorem fresh_dram (r : Reg) (k : Nat) (m : W64) (s : State) : (fresh r k m s).dram = s.dram := by rfl
@[simp] theorem fresh_ws (r : Reg) (k : Nat) (m : W64) (s : State) : (fresh r k m s).ws = s.ws := by rfl
@[simp] theorem fresh_stg (r : Reg) (k : Nat) (m : W64) (s : State) : (fresh r k m s).stg = s.stg := by rfl
@[simp] theorem fresh_cue (r : Reg) (k : Nat) (m : W64) (s : State) : (fresh r k m s).cue = s.cue := by rfl
@[simp] theorem fresh_callb (r : Reg) (k : Nat) (m : W64) (s : State) : (fresh r k m s).callb = s.callb := by rfl
@[simp] theorem fresh_harn (r : Reg) (k : Nat) (m : W64) (s : State) : (fresh r k m s).harn = s.harn := by rfl
@[simp] theorem fresh_wdr (r : Reg) (k : Nat) (m : W64) (s : State) : (fresh r k m s).wdr = s.wdr := by rfl
@[simp] theorem fresh_grm (r : Reg) (k : Nat) (m : W64) (s : State) : (fresh r k m s).grm = s.grm := by rfl
@[simp] theorem fresh_prj (r : Reg) (k : Nat) (m : W64) (s : State) : (fresh r k m s).prj = s.prj := by rfl
@[simp] theorem fresh_outr (r : Reg) (k : Nat) (m : W64) (s : State) : (fresh r k m s).outr = s.outr := by rfl
@[simp] theorem fresh_dig (r : Reg) (k : Nat) (m : W64) (s : State) : (fresh r k m s).dig = s.dig := by rfl
@[simp] theorem fresh_lane (r : Reg) (k : Nat) (m : W64) (s : State) : (fresh r k m s).lane = s.lane := by rfl
@[simp] theorem fresh_link (r : Reg) (k : Nat) (m : W64) (s : State) : (fresh r k m s).link = s.link := by rfl
@[simp] theorem fresh_swc (r : Reg) (k : Nat) (m : W64) (s : State) : (fresh r k m s).swc = s.swc := by rfl
@[simp] theorem fresh_sched (r : Reg) (k : Nat) (m : W64) (s : State) : (fresh r k m s).sched = s.sched := by rfl
@[simp] theorem fresh_topo (r : Reg) (k : Nat) (m : W64) (s : State) : (fresh r k m s).topo = s.topo := by rfl
@[simp] theorem fresh_host (r : Reg) (k : Nat) (m : W64) (s : State) : (fresh r k m s).host = s.host := by rfl
@[simp] theorem fresh_fuses (r : Reg) (k : Nat) (m : W64) (s : State) : (fresh r k m s).fuses = s.fuses := by rfl
@[simp] theorem fresh_flash (r : Reg) (k : Nat) (m : W64) (s : State) : (fresh r k m s).flash = s.flash := by rfl
@[simp] theorem fresh_prm (r : Reg) (k : Nat) (m : W64) (s : State) : (fresh r k m s).prm = s.prm := by rfl
@[simp] theorem fresh_rid (r : Reg) (k : Nat) (m : W64) (s : State) : (fresh r k m s).rid = s.rid := by rfl
@[simp] theorem fresh_boxRx (r : Reg) (k : Nat) (m : W64) (s : State) : (fresh r k m s).boxRx = s.boxRx := by rfl
@[simp] theorem fresh_boxDie (r : Reg) (k : Nat) (m : W64) (s : State) : (fresh r k m s).boxDie = s.boxDie := by rfl
@[simp] theorem fresh_flt (r : Reg) (k : Nat) (m : W64) (s : State) : (fresh r k m s).flt = s.flt := by rfl
@[simp] theorem fresh_door (r : Reg) (k : Nat) (m : W64) (s : State) : (fresh r k m s).door = s.door := by rfl
@[simp] theorem fresh_rst (r : Reg) (k : Nat) (m : W64) (s : State) : (fresh r k m s).rst = s.rst := by rfl

@[simp] theorem drawn_pending (s : State) : (drawn s).pending = s.pending := by rfl
@[simp] theorem drawn_time (s : State) : (drawn s).time = s.time := by rfl
@[simp] theorem drawn_draws (s : State) : (drawn s).draws = s.draws + 1 := by rfl
@[simp] theorem drawn_issued (s : State) : (drawn s).issued = s.issued := by rfl
@[simp] theorem drawn_cyc (s : State) : (drawn s).cyc = s.cyc := by rfl
@[simp] theorem drawn_written (s : State) : (drawn s).written = s.written := by rfl
@[simp] theorem drawn_out (s : State) : (drawn s).out = s.out := by rfl
@[simp] theorem drawn_dram (s : State) : (drawn s).dram = s.dram := by rfl
@[simp] theorem drawn_ws (s : State) : (drawn s).ws = s.ws := by rfl
@[simp] theorem drawn_stg (s : State) : (drawn s).stg = s.stg := by rfl
@[simp] theorem drawn_cue (s : State) : (drawn s).cue = s.cue := by rfl
@[simp] theorem drawn_callb (s : State) : (drawn s).callb = s.callb := by rfl
@[simp] theorem drawn_harn (s : State) : (drawn s).harn = s.harn := by rfl
@[simp] theorem drawn_wdr (s : State) : (drawn s).wdr = s.wdr := by rfl
@[simp] theorem drawn_grm (s : State) : (drawn s).grm = s.grm := by rfl
@[simp] theorem drawn_prj (s : State) : (drawn s).prj = s.prj := by rfl
@[simp] theorem drawn_outr (s : State) : (drawn s).outr = s.outr := by rfl
@[simp] theorem drawn_dig (s : State) : (drawn s).dig = s.dig := by rfl
@[simp] theorem drawn_lane (s : State) : (drawn s).lane = s.lane := by rfl
@[simp] theorem drawn_link (s : State) : (drawn s).link = s.link := by rfl
@[simp] theorem drawn_swc (s : State) : (drawn s).swc = s.swc := by rfl
@[simp] theorem drawn_sched (s : State) : (drawn s).sched = s.sched := by rfl
@[simp] theorem drawn_topo (s : State) : (drawn s).topo = s.topo := by rfl
@[simp] theorem drawn_host (s : State) : (drawn s).host = s.host := by rfl
@[simp] theorem drawn_fuses (s : State) : (drawn s).fuses = s.fuses := by rfl
@[simp] theorem drawn_flash (s : State) : (drawn s).flash = s.flash := by rfl
@[simp] theorem drawn_prm (s : State) : (drawn s).prm = s.prm := by rfl
@[simp] theorem drawn_rid (s : State) : (drawn s).rid = s.rid := by rfl
@[simp] theorem drawn_boxRx (s : State) : (drawn s).boxRx = s.boxRx := by rfl
@[simp] theorem drawn_boxDie (s : State) : (drawn s).boxDie = s.boxDie := by rfl
@[simp] theorem drawn_flt (s : State) : (drawn s).flt = s.flt := by rfl
@[simp] theorem drawn_door (s : State) : (drawn s).door = s.door := by rfl
@[simp] theorem drawn_rst (s : State) : (drawn s).rst = s.rst := by rfl

@[simp] theorem modLink_pending (p : Port) (f : LinkPort → LinkPort) (s : State) : (modLink p f s).pending = s.pending := by rfl
@[simp] theorem modLink_time (p : Port) (f : LinkPort → LinkPort) (s : State) : (modLink p f s).time = s.time := by rfl
@[simp] theorem modLink_draws (p : Port) (f : LinkPort → LinkPort) (s : State) : (modLink p f s).draws = s.draws := by rfl
@[simp] theorem modLink_issued (p : Port) (f : LinkPort → LinkPort) (s : State) : (modLink p f s).issued = s.issued := by rfl
@[simp] theorem modLink_cyc (p : Port) (f : LinkPort → LinkPort) (s : State) : (modLink p f s).cyc = s.cyc := by rfl
@[simp] theorem modLink_written (p : Port) (f : LinkPort → LinkPort) (s : State) : (modLink p f s).written = s.written := by rfl
@[simp] theorem modLink_out (p : Port) (f : LinkPort → LinkPort) (s : State) : (modLink p f s).out = s.out := by rfl
@[simp] theorem modLink_dram (p : Port) (f : LinkPort → LinkPort) (s : State) : (modLink p f s).dram = s.dram := by rfl
@[simp] theorem modLink_ws (p : Port) (f : LinkPort → LinkPort) (s : State) : (modLink p f s).ws = s.ws := by rfl
@[simp] theorem modLink_stg (p : Port) (f : LinkPort → LinkPort) (s : State) : (modLink p f s).stg = s.stg := by rfl
@[simp] theorem modLink_cue (p : Port) (f : LinkPort → LinkPort) (s : State) : (modLink p f s).cue = s.cue := by rfl
@[simp] theorem modLink_callb (p : Port) (f : LinkPort → LinkPort) (s : State) : (modLink p f s).callb = s.callb := by rfl
@[simp] theorem modLink_harn (p : Port) (f : LinkPort → LinkPort) (s : State) : (modLink p f s).harn = s.harn := by rfl
@[simp] theorem modLink_wdr (p : Port) (f : LinkPort → LinkPort) (s : State) : (modLink p f s).wdr = s.wdr := by rfl
@[simp] theorem modLink_grm (p : Port) (f : LinkPort → LinkPort) (s : State) : (modLink p f s).grm = s.grm := by rfl
@[simp] theorem modLink_prj (p : Port) (f : LinkPort → LinkPort) (s : State) : (modLink p f s).prj = s.prj := by rfl
@[simp] theorem modLink_outr (p : Port) (f : LinkPort → LinkPort) (s : State) : (modLink p f s).outr = s.outr := by rfl
@[simp] theorem modLink_dig (p : Port) (f : LinkPort → LinkPort) (s : State) : (modLink p f s).dig = s.dig := by rfl
@[simp] theorem modLink_lane (p : Port) (f : LinkPort → LinkPort) (s : State) : (modLink p f s).lane = s.lane := by rfl
@[simp] theorem modLink_link (p : Port) (f : LinkPort → LinkPort) (s : State) : (modLink p f s).link = vmod s.link p f := by rfl
@[simp] theorem modLink_swc (p : Port) (f : LinkPort → LinkPort) (s : State) : (modLink p f s).swc = s.swc := by rfl
@[simp] theorem modLink_sched (p : Port) (f : LinkPort → LinkPort) (s : State) : (modLink p f s).sched = s.sched := by rfl
@[simp] theorem modLink_topo (p : Port) (f : LinkPort → LinkPort) (s : State) : (modLink p f s).topo = s.topo := by rfl
@[simp] theorem modLink_host (p : Port) (f : LinkPort → LinkPort) (s : State) : (modLink p f s).host = s.host := by rfl
@[simp] theorem modLink_fuses (p : Port) (f : LinkPort → LinkPort) (s : State) : (modLink p f s).fuses = s.fuses := by rfl
@[simp] theorem modLink_flash (p : Port) (f : LinkPort → LinkPort) (s : State) : (modLink p f s).flash = s.flash := by rfl
@[simp] theorem modLink_prm (p : Port) (f : LinkPort → LinkPort) (s : State) : (modLink p f s).prm = s.prm := by rfl
@[simp] theorem modLink_rid (p : Port) (f : LinkPort → LinkPort) (s : State) : (modLink p f s).rid = s.rid := by rfl
@[simp] theorem modLink_boxRx (p : Port) (f : LinkPort → LinkPort) (s : State) : (modLink p f s).boxRx = s.boxRx := by rfl
@[simp] theorem modLink_boxDie (p : Port) (f : LinkPort → LinkPort) (s : State) : (modLink p f s).boxDie = s.boxDie := by rfl
@[simp] theorem modLink_flt (p : Port) (f : LinkPort → LinkPort) (s : State) : (modLink p f s).flt = s.flt := by rfl
@[simp] theorem modLink_door (p : Port) (f : LinkPort → LinkPort) (s : State) : (modLink p f s).door = s.door := by rfl
@[simp] theorem modLink_rst (p : Port) (f : LinkPort → LinkPort) (s : State) : (modLink p f s).rst = s.rst := by rfl

@[simp] theorem modLane_pending (l : LaneId) (f : Lane → Lane) (s : State) : (modLane l f s).pending = s.pending := by rfl
@[simp] theorem modLane_time (l : LaneId) (f : Lane → Lane) (s : State) : (modLane l f s).time = s.time := by rfl
@[simp] theorem modLane_draws (l : LaneId) (f : Lane → Lane) (s : State) : (modLane l f s).draws = s.draws := by rfl
@[simp] theorem modLane_issued (l : LaneId) (f : Lane → Lane) (s : State) : (modLane l f s).issued = s.issued := by rfl
@[simp] theorem modLane_cyc (l : LaneId) (f : Lane → Lane) (s : State) : (modLane l f s).cyc = s.cyc := by rfl
@[simp] theorem modLane_written (l : LaneId) (f : Lane → Lane) (s : State) : (modLane l f s).written = s.written := by rfl
@[simp] theorem modLane_out (l : LaneId) (f : Lane → Lane) (s : State) : (modLane l f s).out = s.out := by rfl
@[simp] theorem modLane_dram (l : LaneId) (f : Lane → Lane) (s : State) : (modLane l f s).dram = s.dram := by rfl
@[simp] theorem modLane_ws (l : LaneId) (f : Lane → Lane) (s : State) : (modLane l f s).ws = s.ws := by rfl
@[simp] theorem modLane_stg (l : LaneId) (f : Lane → Lane) (s : State) : (modLane l f s).stg = s.stg := by rfl
@[simp] theorem modLane_cue (l : LaneId) (f : Lane → Lane) (s : State) : (modLane l f s).cue = s.cue := by rfl
@[simp] theorem modLane_callb (l : LaneId) (f : Lane → Lane) (s : State) : (modLane l f s).callb = s.callb := by rfl
@[simp] theorem modLane_harn (l : LaneId) (f : Lane → Lane) (s : State) : (modLane l f s).harn = s.harn := by rfl
@[simp] theorem modLane_wdr (l : LaneId) (f : Lane → Lane) (s : State) : (modLane l f s).wdr = s.wdr := by rfl
@[simp] theorem modLane_grm (l : LaneId) (f : Lane → Lane) (s : State) : (modLane l f s).grm = s.grm := by rfl
@[simp] theorem modLane_prj (l : LaneId) (f : Lane → Lane) (s : State) : (modLane l f s).prj = s.prj := by rfl
@[simp] theorem modLane_outr (l : LaneId) (f : Lane → Lane) (s : State) : (modLane l f s).outr = s.outr := by rfl
@[simp] theorem modLane_dig (l : LaneId) (f : Lane → Lane) (s : State) : (modLane l f s).dig = s.dig := by rfl
@[simp] theorem modLane_lane (l : LaneId) (f : Lane → Lane) (s : State) : (modLane l f s).lane = { s.lane with lanes := vmod s.lane.lanes l f } := by rfl
@[simp] theorem modLane_link (l : LaneId) (f : Lane → Lane) (s : State) : (modLane l f s).link = s.link := by rfl
@[simp] theorem modLane_swc (l : LaneId) (f : Lane → Lane) (s : State) : (modLane l f s).swc = s.swc := by rfl
@[simp] theorem modLane_sched (l : LaneId) (f : Lane → Lane) (s : State) : (modLane l f s).sched = s.sched := by rfl
@[simp] theorem modLane_topo (l : LaneId) (f : Lane → Lane) (s : State) : (modLane l f s).topo = s.topo := by rfl
@[simp] theorem modLane_host (l : LaneId) (f : Lane → Lane) (s : State) : (modLane l f s).host = s.host := by rfl
@[simp] theorem modLane_fuses (l : LaneId) (f : Lane → Lane) (s : State) : (modLane l f s).fuses = s.fuses := by rfl
@[simp] theorem modLane_flash (l : LaneId) (f : Lane → Lane) (s : State) : (modLane l f s).flash = s.flash := by rfl
@[simp] theorem modLane_prm (l : LaneId) (f : Lane → Lane) (s : State) : (modLane l f s).prm = s.prm := by rfl
@[simp] theorem modLane_rid (l : LaneId) (f : Lane → Lane) (s : State) : (modLane l f s).rid = s.rid := by rfl
@[simp] theorem modLane_boxRx (l : LaneId) (f : Lane → Lane) (s : State) : (modLane l f s).boxRx = s.boxRx := by rfl
@[simp] theorem modLane_boxDie (l : LaneId) (f : Lane → Lane) (s : State) : (modLane l f s).boxDie = s.boxDie := by rfl
@[simp] theorem modLane_flt (l : LaneId) (f : Lane → Lane) (s : State) : (modLane l f s).flt = s.flt := by rfl
@[simp] theorem modLane_door (l : LaneId) (f : Lane → Lane) (s : State) : (modLane l f s).door = s.door := by rfl
@[simp] theorem modLane_rst (l : LaneId) (f : Lane → Lane) (s : State) : (modLane l f s).rst = s.rst := by rfl

@[simp] theorem modLanePort_pending (p : Port) (f : LanePort → LanePort) (s : State) : (modLanePort p f s).pending = s.pending := by rfl
@[simp] theorem modLanePort_time (p : Port) (f : LanePort → LanePort) (s : State) : (modLanePort p f s).time = s.time := by rfl
@[simp] theorem modLanePort_draws (p : Port) (f : LanePort → LanePort) (s : State) : (modLanePort p f s).draws = s.draws := by rfl
@[simp] theorem modLanePort_issued (p : Port) (f : LanePort → LanePort) (s : State) : (modLanePort p f s).issued = s.issued := by rfl
@[simp] theorem modLanePort_cyc (p : Port) (f : LanePort → LanePort) (s : State) : (modLanePort p f s).cyc = s.cyc := by rfl
@[simp] theorem modLanePort_written (p : Port) (f : LanePort → LanePort) (s : State) : (modLanePort p f s).written = s.written := by rfl
@[simp] theorem modLanePort_out (p : Port) (f : LanePort → LanePort) (s : State) : (modLanePort p f s).out = s.out := by rfl
@[simp] theorem modLanePort_dram (p : Port) (f : LanePort → LanePort) (s : State) : (modLanePort p f s).dram = s.dram := by rfl
@[simp] theorem modLanePort_ws (p : Port) (f : LanePort → LanePort) (s : State) : (modLanePort p f s).ws = s.ws := by rfl
@[simp] theorem modLanePort_stg (p : Port) (f : LanePort → LanePort) (s : State) : (modLanePort p f s).stg = s.stg := by rfl
@[simp] theorem modLanePort_cue (p : Port) (f : LanePort → LanePort) (s : State) : (modLanePort p f s).cue = s.cue := by rfl
@[simp] theorem modLanePort_callb (p : Port) (f : LanePort → LanePort) (s : State) : (modLanePort p f s).callb = s.callb := by rfl
@[simp] theorem modLanePort_harn (p : Port) (f : LanePort → LanePort) (s : State) : (modLanePort p f s).harn = s.harn := by rfl
@[simp] theorem modLanePort_wdr (p : Port) (f : LanePort → LanePort) (s : State) : (modLanePort p f s).wdr = s.wdr := by rfl
@[simp] theorem modLanePort_grm (p : Port) (f : LanePort → LanePort) (s : State) : (modLanePort p f s).grm = s.grm := by rfl
@[simp] theorem modLanePort_prj (p : Port) (f : LanePort → LanePort) (s : State) : (modLanePort p f s).prj = s.prj := by rfl
@[simp] theorem modLanePort_outr (p : Port) (f : LanePort → LanePort) (s : State) : (modLanePort p f s).outr = s.outr := by rfl
@[simp] theorem modLanePort_dig (p : Port) (f : LanePort → LanePort) (s : State) : (modLanePort p f s).dig = s.dig := by rfl
@[simp] theorem modLanePort_lane (p : Port) (f : LanePort → LanePort) (s : State) : (modLanePort p f s).lane = { s.lane with ports := vmod s.lane.ports p f } := by rfl
@[simp] theorem modLanePort_link (p : Port) (f : LanePort → LanePort) (s : State) : (modLanePort p f s).link = s.link := by rfl
@[simp] theorem modLanePort_swc (p : Port) (f : LanePort → LanePort) (s : State) : (modLanePort p f s).swc = s.swc := by rfl
@[simp] theorem modLanePort_sched (p : Port) (f : LanePort → LanePort) (s : State) : (modLanePort p f s).sched = s.sched := by rfl
@[simp] theorem modLanePort_topo (p : Port) (f : LanePort → LanePort) (s : State) : (modLanePort p f s).topo = s.topo := by rfl
@[simp] theorem modLanePort_host (p : Port) (f : LanePort → LanePort) (s : State) : (modLanePort p f s).host = s.host := by rfl
@[simp] theorem modLanePort_fuses (p : Port) (f : LanePort → LanePort) (s : State) : (modLanePort p f s).fuses = s.fuses := by rfl
@[simp] theorem modLanePort_flash (p : Port) (f : LanePort → LanePort) (s : State) : (modLanePort p f s).flash = s.flash := by rfl
@[simp] theorem modLanePort_prm (p : Port) (f : LanePort → LanePort) (s : State) : (modLanePort p f s).prm = s.prm := by rfl
@[simp] theorem modLanePort_rid (p : Port) (f : LanePort → LanePort) (s : State) : (modLanePort p f s).rid = s.rid := by rfl
@[simp] theorem modLanePort_boxRx (p : Port) (f : LanePort → LanePort) (s : State) : (modLanePort p f s).boxRx = s.boxRx := by rfl
@[simp] theorem modLanePort_boxDie (p : Port) (f : LanePort → LanePort) (s : State) : (modLanePort p f s).boxDie = s.boxDie := by rfl
@[simp] theorem modLanePort_flt (p : Port) (f : LanePort → LanePort) (s : State) : (modLanePort p f s).flt = s.flt := by rfl
@[simp] theorem modLanePort_door (p : Port) (f : LanePort → LanePort) (s : State) : (modLanePort p f s).door = s.door := by rfl
@[simp] theorem modLanePort_rst (p : Port) (f : LanePort → LanePort) (s : State) : (modLanePort p f s).rst = s.rst := by rfl

@[simp] theorem modSource_pending (i : SrcId) (f : Source → Source) (s : State) : (modSource i f s).pending = s.pending := by rfl
@[simp] theorem modSource_time (i : SrcId) (f : Source → Source) (s : State) : (modSource i f s).time = s.time := by rfl
@[simp] theorem modSource_draws (i : SrcId) (f : Source → Source) (s : State) : (modSource i f s).draws = s.draws := by rfl
@[simp] theorem modSource_issued (i : SrcId) (f : Source → Source) (s : State) : (modSource i f s).issued = s.issued := by rfl
@[simp] theorem modSource_cyc (i : SrcId) (f : Source → Source) (s : State) : (modSource i f s).cyc = s.cyc := by rfl
@[simp] theorem modSource_written (i : SrcId) (f : Source → Source) (s : State) : (modSource i f s).written = s.written := by rfl
@[simp] theorem modSource_out (i : SrcId) (f : Source → Source) (s : State) : (modSource i f s).out = s.out := by rfl
@[simp] theorem modSource_dram (i : SrcId) (f : Source → Source) (s : State) : (modSource i f s).dram = s.dram := by rfl
@[simp] theorem modSource_ws (i : SrcId) (f : Source → Source) (s : State) : (modSource i f s).ws = s.ws := by rfl
@[simp] theorem modSource_stg (i : SrcId) (f : Source → Source) (s : State) : (modSource i f s).stg = s.stg := by rfl
@[simp] theorem modSource_cue (i : SrcId) (f : Source → Source) (s : State) : (modSource i f s).cue = s.cue := by rfl
@[simp] theorem modSource_callb (i : SrcId) (f : Source → Source) (s : State) : (modSource i f s).callb = s.callb := by rfl
@[simp] theorem modSource_harn (i : SrcId) (f : Source → Source) (s : State) : (modSource i f s).harn = s.harn := by rfl
@[simp] theorem modSource_wdr (i : SrcId) (f : Source → Source) (s : State) : (modSource i f s).wdr = s.wdr := by rfl
@[simp] theorem modSource_grm (i : SrcId) (f : Source → Source) (s : State) : (modSource i f s).grm = s.grm := by rfl
@[simp] theorem modSource_prj (i : SrcId) (f : Source → Source) (s : State) : (modSource i f s).prj = s.prj := by rfl
@[simp] theorem modSource_outr (i : SrcId) (f : Source → Source) (s : State) : (modSource i f s).outr = s.outr := by rfl
@[simp] theorem modSource_dig (i : SrcId) (f : Source → Source) (s : State) : (modSource i f s).dig = s.dig := by rfl
@[simp] theorem modSource_lane (i : SrcId) (f : Source → Source) (s : State) : (modSource i f s).lane = s.lane := by rfl
@[simp] theorem modSource_link (i : SrcId) (f : Source → Source) (s : State) : (modSource i f s).link = s.link := by rfl
@[simp] theorem modSource_swc (i : SrcId) (f : Source → Source) (s : State) : (modSource i f s).swc = s.swc := by rfl
@[simp] theorem modSource_sched (i : SrcId) (f : Source → Source) (s : State) : (modSource i f s).sched = s.sched := by rfl
@[simp] theorem modSource_topo (i : SrcId) (f : Source → Source) (s : State) : (modSource i f s).topo = s.topo := by rfl
@[simp] theorem modSource_host (i : SrcId) (f : Source → Source) (s : State) : (modSource i f s).host = s.host := by rfl
@[simp] theorem modSource_fuses (i : SrcId) (f : Source → Source) (s : State) : (modSource i f s).fuses = s.fuses := by rfl
@[simp] theorem modSource_flash (i : SrcId) (f : Source → Source) (s : State) : (modSource i f s).flash = s.flash := by rfl
@[simp] theorem modSource_prm (i : SrcId) (f : Source → Source) (s : State) : (modSource i f s).prm = s.prm := by rfl
@[simp] theorem modSource_rid (i : SrcId) (f : Source → Source) (s : State) : (modSource i f s).rid = s.rid := by rfl
@[simp] theorem modSource_boxRx (i : SrcId) (f : Source → Source) (s : State) : (modSource i f s).boxRx = s.boxRx := by rfl
@[simp] theorem modSource_boxDie (i : SrcId) (f : Source → Source) (s : State) : (modSource i f s).boxDie = s.boxDie := by rfl
@[simp] theorem modSource_flt (i : SrcId) (f : Source → Source) (s : State) : (modSource i f s).flt = { s.flt with sources := vmod s.flt.sources i f } := by rfl
@[simp] theorem modSource_door (i : SrcId) (f : Source → Source) (s : State) : (modSource i f s).door = s.door := by rfl
@[simp] theorem modSource_rst (i : SrcId) (f : Source → Source) (s : State) : (modSource i f s).rst = s.rst := by rfl

@[simp] theorem modMbx_pending (m : Fin 64) (f : Mailbox → Mailbox) (s : State) : (modMbx m f s).pending = s.pending := by rfl
@[simp] theorem modMbx_time (m : Fin 64) (f : Mailbox → Mailbox) (s : State) : (modMbx m f s).time = s.time := by rfl
@[simp] theorem modMbx_draws (m : Fin 64) (f : Mailbox → Mailbox) (s : State) : (modMbx m f s).draws = s.draws := by rfl
@[simp] theorem modMbx_issued (m : Fin 64) (f : Mailbox → Mailbox) (s : State) : (modMbx m f s).issued = s.issued := by rfl
@[simp] theorem modMbx_cyc (m : Fin 64) (f : Mailbox → Mailbox) (s : State) : (modMbx m f s).cyc = s.cyc := by rfl
@[simp] theorem modMbx_written (m : Fin 64) (f : Mailbox → Mailbox) (s : State) : (modMbx m f s).written = s.written := by rfl
@[simp] theorem modMbx_out (m : Fin 64) (f : Mailbox → Mailbox) (s : State) : (modMbx m f s).out = s.out := by rfl
@[simp] theorem modMbx_dram (m : Fin 64) (f : Mailbox → Mailbox) (s : State) : (modMbx m f s).dram = s.dram := by rfl
@[simp] theorem modMbx_ws (m : Fin 64) (f : Mailbox → Mailbox) (s : State) : (modMbx m f s).ws = s.ws := by rfl
@[simp] theorem modMbx_stg (m : Fin 64) (f : Mailbox → Mailbox) (s : State) : (modMbx m f s).stg = s.stg := by rfl
@[simp] theorem modMbx_cue (m : Fin 64) (f : Mailbox → Mailbox) (s : State) : (modMbx m f s).cue = s.cue := by rfl
@[simp] theorem modMbx_callb (m : Fin 64) (f : Mailbox → Mailbox) (s : State) : (modMbx m f s).callb = s.callb := by rfl
@[simp] theorem modMbx_harn (m : Fin 64) (f : Mailbox → Mailbox) (s : State) : (modMbx m f s).harn = s.harn := by rfl
@[simp] theorem modMbx_wdr (m : Fin 64) (f : Mailbox → Mailbox) (s : State) : (modMbx m f s).wdr = s.wdr := by rfl
@[simp] theorem modMbx_grm (m : Fin 64) (f : Mailbox → Mailbox) (s : State) : (modMbx m f s).grm = s.grm := by rfl
@[simp] theorem modMbx_prj (m : Fin 64) (f : Mailbox → Mailbox) (s : State) : (modMbx m f s).prj = s.prj := by rfl
@[simp] theorem modMbx_outr (m : Fin 64) (f : Mailbox → Mailbox) (s : State) : (modMbx m f s).outr = s.outr := by rfl
@[simp] theorem modMbx_dig (m : Fin 64) (f : Mailbox → Mailbox) (s : State) : (modMbx m f s).dig = s.dig := by rfl
@[simp] theorem modMbx_lane (m : Fin 64) (f : Mailbox → Mailbox) (s : State) : (modMbx m f s).lane = s.lane := by rfl
@[simp] theorem modMbx_link (m : Fin 64) (f : Mailbox → Mailbox) (s : State) : (modMbx m f s).link = s.link := by rfl
@[simp] theorem modMbx_swc (m : Fin 64) (f : Mailbox → Mailbox) (s : State) : (modMbx m f s).swc = s.swc := by rfl
@[simp] theorem modMbx_sched (m : Fin 64) (f : Mailbox → Mailbox) (s : State) : (modMbx m f s).sched = s.sched := by rfl
@[simp] theorem modMbx_topo (m : Fin 64) (f : Mailbox → Mailbox) (s : State) : (modMbx m f s).topo = s.topo := by rfl
@[simp] theorem modMbx_host (m : Fin 64) (f : Mailbox → Mailbox) (s : State) : (modMbx m f s).host = { s.host with mboxes := vmod s.host.mboxes m f } := by rfl
@[simp] theorem modMbx_fuses (m : Fin 64) (f : Mailbox → Mailbox) (s : State) : (modMbx m f s).fuses = s.fuses := by rfl
@[simp] theorem modMbx_flash (m : Fin 64) (f : Mailbox → Mailbox) (s : State) : (modMbx m f s).flash = s.flash := by rfl
@[simp] theorem modMbx_prm (m : Fin 64) (f : Mailbox → Mailbox) (s : State) : (modMbx m f s).prm = s.prm := by rfl
@[simp] theorem modMbx_rid (m : Fin 64) (f : Mailbox → Mailbox) (s : State) : (modMbx m f s).rid = s.rid := by rfl
@[simp] theorem modMbx_boxRx (m : Fin 64) (f : Mailbox → Mailbox) (s : State) : (modMbx m f s).boxRx = s.boxRx := by rfl
@[simp] theorem modMbx_boxDie (m : Fin 64) (f : Mailbox → Mailbox) (s : State) : (modMbx m f s).boxDie = s.boxDie := by rfl
@[simp] theorem modMbx_flt (m : Fin 64) (f : Mailbox → Mailbox) (s : State) : (modMbx m f s).flt = s.flt := by rfl
@[simp] theorem modMbx_door (m : Fin 64) (f : Mailbox → Mailbox) (s : State) : (modMbx m f s).door = s.door := by rfl
@[simp] theorem modMbx_rst (m : Fin 64) (f : Mailbox → Mailbox) (s : State) : (modMbx m f s).rst = s.rst := by rfl

@[simp] theorem modEth_pending (p : Fin 2) (f : EthPort → EthPort) (s : State) : (modEth p f s).pending = s.pending := by rfl
@[simp] theorem modEth_time (p : Fin 2) (f : EthPort → EthPort) (s : State) : (modEth p f s).time = s.time := by rfl
@[simp] theorem modEth_draws (p : Fin 2) (f : EthPort → EthPort) (s : State) : (modEth p f s).draws = s.draws := by rfl
@[simp] theorem modEth_issued (p : Fin 2) (f : EthPort → EthPort) (s : State) : (modEth p f s).issued = s.issued := by rfl
@[simp] theorem modEth_cyc (p : Fin 2) (f : EthPort → EthPort) (s : State) : (modEth p f s).cyc = s.cyc := by rfl
@[simp] theorem modEth_written (p : Fin 2) (f : EthPort → EthPort) (s : State) : (modEth p f s).written = s.written := by rfl
@[simp] theorem modEth_out (p : Fin 2) (f : EthPort → EthPort) (s : State) : (modEth p f s).out = s.out := by rfl
@[simp] theorem modEth_dram (p : Fin 2) (f : EthPort → EthPort) (s : State) : (modEth p f s).dram = s.dram := by rfl
@[simp] theorem modEth_ws (p : Fin 2) (f : EthPort → EthPort) (s : State) : (modEth p f s).ws = s.ws := by rfl
@[simp] theorem modEth_stg (p : Fin 2) (f : EthPort → EthPort) (s : State) : (modEth p f s).stg = s.stg := by rfl
@[simp] theorem modEth_cue (p : Fin 2) (f : EthPort → EthPort) (s : State) : (modEth p f s).cue = s.cue := by rfl
@[simp] theorem modEth_callb (p : Fin 2) (f : EthPort → EthPort) (s : State) : (modEth p f s).callb = s.callb := by rfl
@[simp] theorem modEth_harn (p : Fin 2) (f : EthPort → EthPort) (s : State) : (modEth p f s).harn = s.harn := by rfl
@[simp] theorem modEth_wdr (p : Fin 2) (f : EthPort → EthPort) (s : State) : (modEth p f s).wdr = s.wdr := by rfl
@[simp] theorem modEth_grm (p : Fin 2) (f : EthPort → EthPort) (s : State) : (modEth p f s).grm = s.grm := by rfl
@[simp] theorem modEth_prj (p : Fin 2) (f : EthPort → EthPort) (s : State) : (modEth p f s).prj = s.prj := by rfl
@[simp] theorem modEth_outr (p : Fin 2) (f : EthPort → EthPort) (s : State) : (modEth p f s).outr = s.outr := by rfl
@[simp] theorem modEth_dig (p : Fin 2) (f : EthPort → EthPort) (s : State) : (modEth p f s).dig = s.dig := by rfl
@[simp] theorem modEth_lane (p : Fin 2) (f : EthPort → EthPort) (s : State) : (modEth p f s).lane = s.lane := by rfl
@[simp] theorem modEth_link (p : Fin 2) (f : EthPort → EthPort) (s : State) : (modEth p f s).link = s.link := by rfl
@[simp] theorem modEth_swc (p : Fin 2) (f : EthPort → EthPort) (s : State) : (modEth p f s).swc = s.swc := by rfl
@[simp] theorem modEth_sched (p : Fin 2) (f : EthPort → EthPort) (s : State) : (modEth p f s).sched = s.sched := by rfl
@[simp] theorem modEth_topo (p : Fin 2) (f : EthPort → EthPort) (s : State) : (modEth p f s).topo = s.topo := by rfl
@[simp] theorem modEth_host (p : Fin 2) (f : EthPort → EthPort) (s : State) : (modEth p f s).host = { s.host with eth := vmod s.host.eth p f } := by rfl
@[simp] theorem modEth_fuses (p : Fin 2) (f : EthPort → EthPort) (s : State) : (modEth p f s).fuses = s.fuses := by rfl
@[simp] theorem modEth_flash (p : Fin 2) (f : EthPort → EthPort) (s : State) : (modEth p f s).flash = s.flash := by rfl
@[simp] theorem modEth_prm (p : Fin 2) (f : EthPort → EthPort) (s : State) : (modEth p f s).prm = s.prm := by rfl
@[simp] theorem modEth_rid (p : Fin 2) (f : EthPort → EthPort) (s : State) : (modEth p f s).rid = s.rid := by rfl
@[simp] theorem modEth_boxRx (p : Fin 2) (f : EthPort → EthPort) (s : State) : (modEth p f s).boxRx = s.boxRx := by rfl
@[simp] theorem modEth_boxDie (p : Fin 2) (f : EthPort → EthPort) (s : State) : (modEth p f s).boxDie = s.boxDie := by rfl
@[simp] theorem modEth_flt (p : Fin 2) (f : EthPort → EthPort) (s : State) : (modEth p f s).flt = s.flt := by rfl
@[simp] theorem modEth_door (p : Fin 2) (f : EthPort → EthPort) (s : State) : (modEth p f s).door = s.door := by rfl
@[simp] theorem modEth_rst (p : Fin 2) (f : EthPort → EthPort) (s : State) : (modEth p f s).rst = s.rst := by rfl

@[simp] theorem modSession_pending (i : BitVec 32) (f : Session → Session) (s : State) : (modSession i f s).pending = s.pending := by rfl
@[simp] theorem modSession_time (i : BitVec 32) (f : Session → Session) (s : State) : (modSession i f s).time = s.time := by rfl
@[simp] theorem modSession_draws (i : BitVec 32) (f : Session → Session) (s : State) : (modSession i f s).draws = s.draws := by rfl
@[simp] theorem modSession_issued (i : BitVec 32) (f : Session → Session) (s : State) : (modSession i f s).issued = s.issued := by rfl
@[simp] theorem modSession_cyc (i : BitVec 32) (f : Session → Session) (s : State) : (modSession i f s).cyc = s.cyc := by rfl
@[simp] theorem modSession_written (i : BitVec 32) (f : Session → Session) (s : State) : (modSession i f s).written = s.written := by rfl
@[simp] theorem modSession_out (i : BitVec 32) (f : Session → Session) (s : State) : (modSession i f s).out = s.out := by rfl
@[simp] theorem modSession_dram (i : BitVec 32) (f : Session → Session) (s : State) : (modSession i f s).dram = s.dram := by rfl
@[simp] theorem modSession_ws (i : BitVec 32) (f : Session → Session) (s : State) : (modSession i f s).ws = s.ws := by rfl
@[simp] theorem modSession_stg (i : BitVec 32) (f : Session → Session) (s : State) : (modSession i f s).stg = s.stg := by rfl
@[simp] theorem modSession_cue (i : BitVec 32) (f : Session → Session) (s : State) : (modSession i f s).cue = s.cue := by rfl
@[simp] theorem modSession_callb (i : BitVec 32) (f : Session → Session) (s : State) : (modSession i f s).callb = s.callb := by rfl
@[simp] theorem modSession_harn (i : BitVec 32) (f : Session → Session) (s : State) : (modSession i f s).harn = s.harn := by rfl
@[simp] theorem modSession_wdr (i : BitVec 32) (f : Session → Session) (s : State) : (modSession i f s).wdr = s.wdr := by rfl
@[simp] theorem modSession_grm (i : BitVec 32) (f : Session → Session) (s : State) : (modSession i f s).grm = s.grm := by rfl
@[simp] theorem modSession_prj (i : BitVec 32) (f : Session → Session) (s : State) : (modSession i f s).prj = s.prj := by rfl
@[simp] theorem modSession_outr (i : BitVec 32) (f : Session → Session) (s : State) : (modSession i f s).outr = s.outr := by rfl
@[simp] theorem modSession_dig (i : BitVec 32) (f : Session → Session) (s : State) : (modSession i f s).dig = s.dig := by rfl
@[simp] theorem modSession_lane (i : BitVec 32) (f : Session → Session) (s : State) : (modSession i f s).lane = s.lane := by rfl
@[simp] theorem modSession_link (i : BitVec 32) (f : Session → Session) (s : State) : (modSession i f s).link = s.link := by rfl
@[simp] theorem modSession_swc (i : BitVec 32) (f : Session → Session) (s : State) : (modSession i f s).swc = s.swc := by rfl
@[simp] theorem modSession_sched (i : BitVec 32) (f : Session → Session) (s : State) : (modSession i f s).sched = s.sched := by rfl
@[simp] theorem modSession_topo (i : BitVec 32) (f : Session → Session) (s : State) : (modSession i f s).topo = s.topo := by rfl
@[simp] theorem modSession_host (i : BitVec 32) (f : Session → Session) (s : State) : (modSession i f s).host = { s.host with sessions := s.host.sessions.map (fun x => if x.id = i then f x else x) } := by rfl
@[simp] theorem modSession_fuses (i : BitVec 32) (f : Session → Session) (s : State) : (modSession i f s).fuses = s.fuses := by rfl
@[simp] theorem modSession_flash (i : BitVec 32) (f : Session → Session) (s : State) : (modSession i f s).flash = s.flash := by rfl
@[simp] theorem modSession_prm (i : BitVec 32) (f : Session → Session) (s : State) : (modSession i f s).prm = s.prm := by rfl
@[simp] theorem modSession_rid (i : BitVec 32) (f : Session → Session) (s : State) : (modSession i f s).rid = s.rid := by rfl
@[simp] theorem modSession_boxRx (i : BitVec 32) (f : Session → Session) (s : State) : (modSession i f s).boxRx = s.boxRx := by rfl
@[simp] theorem modSession_boxDie (i : BitVec 32) (f : Session → Session) (s : State) : (modSession i f s).boxDie = s.boxDie := by rfl
@[simp] theorem modSession_flt (i : BitVec 32) (f : Session → Session) (s : State) : (modSession i f s).flt = s.flt := by rfl
@[simp] theorem modSession_door (i : BitVec 32) (f : Session → Session) (s : State) : (modSession i f s).door = s.door := by rfl
@[simp] theorem modSession_rst (i : BitVec 32) (f : Session → Session) (s : State) : (modSession i f s).rst = s.rst := by rfl

end Sys2Proof.Machine
end

