-- ==== Sys2Proof/Laws/Cmds.lean ====
section
/-! SUPPORT. Datagrams that are taken at once, and how commands end: what the claims on the Prompt protocol cite. -/

namespace Sys2Proof.Machine

/-- A datagram that is taken at once is acted on. -/
theorem takes_receive (s : State) (k : Byte) (d : Dgram) (errs : List AccErr) (h : takes s k d = true) :
    receive k d errs s = actDgram d errs s := by
  simp only [takes, Bool.and_eq_true, decide_eq_true_eq, Bool.not_eq_true'] at h
  obtain ⟨⟨⟨⟨⟨⟨h1, hf⟩, h2⟩, h3⟩, h4⟩, h5⟩, h6⟩ := h
  unfold receive; rw [if_neg (by simp [h1, hf, h2]), if_neg (by simp [h3]), if_neg (by simp [h4]), if_neg (by simp [h5]), if_neg (by simp [h6, h5])]
/-- A datagram that is taken is of the row's KIND. -/
theorem takes_kind (s : State) (k : Byte) (d : Dgram) (h : takes s k d = true) : hKind d = k := by
  simp only [takes, Bool.and_eq_true, decide_eq_true_eq, Bool.not_eq_true'] at h
  exact h.1.1.2

/-! One lemma per KIND: what the row does with a datagram that is taken. -/

theorem takes_open (s : State) (d : Dgram) (errs : List AccErr) (h : takes s 0x01 d = true) :
    receive 0x01 d errs s = actOpen d (noteDgram d s) := by
  rw [takes_receive _ _ _ _ h]; unfold actDgram; rw [takes_kind _ _ _ h]; rfl
theorem takes_auth (s : State) (d : Dgram) (errs : List AccErr) (h : takes s 0x03 d = true) :
    receive 0x03 d errs s = actAuth d (noteDgram d s) := by
  rw [takes_receive _ _ _ _ h]; unfold actDgram; rw [takes_kind _ _ _ h]; rfl
theorem takes_close (s : State) (d : Dgram) (errs : List AccErr) (h : takes s 0x05 d = true) :
    receive 0x05 d errs s = actClose d (noteDgram d s) := by
  rw [takes_receive _ _ _ _ h]; unfold actDgram; rw [takes_kind _ _ _ h]; rfl
theorem takes_keep (s : State) (d : Dgram) (errs : List AccErr) (h : takes s 0x07 d = true) :
    receive 0x07 d errs s = actKeep d (noteDgram d s) := by
  rw [takes_receive _ _ _ _ h]; unfold actDgram; rw [takes_kind _ _ _ h]; rfl
theorem takes_post (s : State) (d : Dgram) (errs : List AccErr) (h : takes s 0x10 d = true) :
    receive 0x10 d errs s = actPost d (noteDgram d s) := by
  rw [takes_receive _ _ _ _ h]; unfold actDgram; rw [takes_kind _ _ _ h]; rfl
theorem takes_read (s : State) (d : Dgram) (errs : List AccErr) (h : takes s 0x12 d = true) :
    receive 0x12 d errs s = actRead d (noteDgram d s) := by
  rw [takes_receive _ _ _ _ h]; unfold actDgram; rw [takes_kind _ _ _ h]; rfl
theorem takes_bulkW (s : State) (d : Dgram) (errs : List AccErr) (h : takes s 0x20 d = true) :
    receive 0x20 d errs s = actBulkW d (noteDgram d s) := by
  rw [takes_receive _ _ _ _ h]; unfold actDgram; rw [takes_kind _ _ _ h]; rfl
theorem takes_bulkR (s : State) (d : Dgram) (errs : List AccErr) (h : takes s 0x22 d = true) :
    receive 0x22 d errs s = actBulkR errs d (noteDgram d s) := by
  rw [takes_receive _ _ _ _ h]; unfold actDgram; rw [takes_kind _ _ _ h]; rfl
theorem takes_evack (s : State) (d : Dgram) (errs : List AccErr) (h : takes s 0x31 d = true) :
    receive 0x31 d errs s = actEvack d (noteDgram d s) := by
  rw [takes_receive _ _ _ _ h]; unfold actDgram; rw [takes_kind _ _ _ h]; rfl

/-- The session of a datagram after its time, port and tag are noted. -/
theorem findSession_note (d : Dgram) (s : State) (x : Session) (h : findSession s (hSession d) = some x) : findSession (noteDgram d s) (hSession d) = some { x with lastAt := s.time, port := d.port, vlan := d.vlan } := by
  unfold findSession noteDgram at *
  simp only [modSession]
  rw [List.find?_map]
  have : ((fun x : Session => decide (x.id = hSession d)) ∘ fun x => if x.id = hSession d then { x with lastAt := s.time, port := d.port, vlan := d.vlan } else x) = (fun x : Session => decide (x.id = hSession d)) := by
    funext y; simp only [Function.comp]; split <;> simp_all
  rw [this, h]
  have := List.find?_some h
  simp_all

/-! ### Commands -/

/-- A ready command is in the list of accepted commands, with the CODE asked for, and has not ended. -/
theorem cmdReady_spec (s : State) (id code : Nat) (c : Cmd) (h : cmdReady s id code = some c) :
    s.host.cmds.find? (fun c => decide (c.id = id)) = some c ∧ c.code.toNat = code ∧ c.out = none := by
  unfold cmdReady at h
  split at h
  · split at h
    · cases h; simp_all [Option.isNone_iff_eq_none]
    · cases h
  · cases h

/-- A command that is ended holds the status and the result fields it was ended with. -/
theorem cmdResult_endCmd (s : State) (id : Nat) (c : Cmd) (st : BitVec 16) (l : List Byte)
    (h : s.host.cmds.find? (fun c => decide (c.id = id)) = some c) : cmdResult (endCmd id st l s) id = some (st, l) := by
  unfold cmdResult endCmd
  simp only []
  rw [List.find?_map]
  have e : ((fun c : Cmd => decide (c.id = id)) ∘ fun c => if c.id = id then { c with acted := true, out := some (st, l) } else c) =
      (fun c : Cmd => decide (c.id = id)) := by
    funext y; simp only [Function.comp]; split <;> simp_all
  rw [e, h]
  have := List.find?_some h
  simp_all

/-- Ending a command changes nothing but the command. -/
theorem endCmd_other (s : State) (id : Nat) (st : BitVec 16) (l : List Byte) :
    endCmd id st l s = { s with host := { s.host with cmds := (endCmd id st l s).host.cmds } } := rfl

/-! ### Reads of LPDDR6 by commands -/

/-- A command that still stands after what its read reports goes on from there. -/
theorem readThen_ready (m : MemCmd) (code a n : Nat) (s u : State) (k : State → Host.Outcome State Fault Refusal)
    (h : Reads s u m code a n) : readThen m code a n s k = k u := by
  obtain ⟨rfl, h⟩ := h
  simp [readThen, h]

/-- One that does not ends there. -/
theorem readThen_gone (m : MemCmd) (code a n : Nat) (s : State) (k : State → Host.Outcome State Fault Refusal)
    (h : cmdReady (readErrors a n m.errs s) m.id code = none) : readThen m code a n s k = .next (readErrors a n m.errs s) := by
  simp [readThen, h]

/-- A read whose accesses report nothing changes nothing. -/
@[simp] theorem readErrors_nil (a n : Nat) (s : State) : readErrors a n [] s = s := rfl

end Sys2Proof.Machine
end

