-- ==== Sys2Proof/Laws/Memory.lean ====
section
/-! SUPPORT. Memory: every operation keeps the canonical form; a write is read back and leaves every other byte alone. -/

namespace Sys2Proof.Machine

theorem wf_cons_iff (c : Nat × Byte) (r : Mem) : Memory.wf (c :: r) = true ↔ c.2 ≠ 0 ∧ (∀ d ∈ r.head?, c.1 < d.1) ∧ Memory.wf r = true := by
  cases r with
  | nil => simp [Memory.wf]
  | cons d r => simp [Memory.wf, and_assoc]
theorem memPut_head (m : Mem) (a : Nat) (v : Byte) (k : Nat) (hm : Memory.wf m = true) (h : ∀ d ∈ m.head?, k < d.1) (hk : k < a) : ∀ d ∈ (memPut m a v).head?, k < d.1 := by
  cases m with
  | nil => simp only [memPut]; split <;> simp [hk]
  | cons c r =>
    simp only [List.head?_cons, Option.mem_some_iff, forall_eq'] at h
    simp only [memPut]
    split
    · split <;> simp_all
    · split
      · split
        · cases r with
          | nil => simp
          | cons d r => simp only [Memory.wf, Bool.and_eq_true, decide_eq_true_eq] at hm; simp; omega
        · simp [hk]
      · simp [h]
@[simp] theorem memPut_wf (m : Mem) (a : Nat) (v : Byte) (h : Memory.wf m = true) : Memory.wf (memPut m a v) = true := by
  induction m with
  | nil => simp only [memPut]; split <;> simp_all [Memory.wf]
  | cons c r ih =>
    have h' := (wf_cons_iff c r).1 h
    simp only [memPut]
    split
    · split
      · exact h
      · rw [wf_cons_iff]; simp_all
    · split
      · split
        · exact h'.2.2
        · rw [wf_cons_iff]; exact ⟨by assumption, by simp_all, h'.2.2⟩
      · rw [wf_cons_iff]
        exact ⟨h'.1, memPut_head r a v c.1 h'.2.2 h'.2.1 (by omega), ih h'.2.2⟩
@[simp] theorem memWrite_wf (l : List Byte) : ∀ (m : Mem) (a : Nat), Memory.wf m = true → Memory.wf (memWrite m a l) = true := by
  induction l with
  | nil => intro m a h; exact h
  | cons b r ih => intro m a h; exact ih _ _ (memPut_wf m a b h)
theorem filter_wf (p : Nat × Byte → Bool) (m : Mem) (h : Memory.wf m = true) : Memory.wf (m.filter p) = true ∧ ∀ k, (∀ d ∈ m.head?, k < d.1) → ∀ d ∈ (m.filter p).head?, k < d.1 := by
  induction m with
  | nil => simp [Memory.wf]
  | cons c r ih =>
    have h' := (wf_cons_iff c r).1 h
    have ih' := ih h'.2.2
    rw [List.filter_cons]
    split
    · refine ⟨?_, by simp⟩
      rw [wf_cons_iff]; exact ⟨h'.1, ih'.2 _ h'.2.1, ih'.1⟩
    · refine ⟨ih'.1, ?_⟩
      intro k hk
      refine ih'.2 k ?_
      intro d hd
      have := h'.2.1 d hd
      simp at hk; omega
@[simp] theorem memClear_wf (m : Mem) (a n : Nat) (h : Memory.wf m = true) : Memory.wf (memClear m a n) = true := (filter_wf _ m h).1
@[simp] theorem wf_nil : Memory.wf [] = true := rfl

/-- Reading after writing one byte. -/
theorem memByte_memPut (m : Mem) (a : Nat) (v : Byte) (b : Nat) (h : Memory.wf m = true) :
    memByte (memPut m a v) b = if b = a then v else memByte m b := by
  induction m with
  | nil => simp only [memPut]; split <;> simp_all [memByte]
  | cons c r ih =>
    have h' := (wf_cons_iff c r).1 h
    have ih' := ih h'.2.2
    have low : ∀ (l : Mem) (k : Nat), Memory.wf l = true → (∀ d ∈ l.head?, k < d.1) → memByte l k = 0 := by
      intro l
      induction l with
      | nil => intros; rfl
      | cons d q ihq =>
        intro k hw hk
        have hd := (wf_cons_iff d q).1 hw
        have hk' : k < d.1 := hk d (by simp)
        simp only [memByte]
        rw [if_neg (by omega)]
        exact ihq k hd.2.2 (fun e he => by have := hd.2.1 e he; omega)
    simp only [memPut]
    split
    · split
      · by_cases hb : b = a
        · subst hb; simp_all only [if_true]; exact low _ _ h (by simp; omega)
        · simp [hb]
      · simp [memByte]
    · split
      · subst_vars
        split
        · by_cases hb : b = c.1
          · subst hb; simp_all only [if_true]; exact low _ _ h'.2.2 h'.2.1
          · simp [memByte, hb]
        · by_cases hb : b = c.1 <;> simp [memByte, hb]
      · by_cases hb : b = c.1
        · have : ¬ b = a := by omega
          simp [memByte, hb]; intro hh; omega
        · simp only [memByte, if_neg hb, ih']

/-- A write of bytes leaves every address outside them alone. -/
theorem memByte_memWrite_outside (l : List Byte) : ∀ (m : Mem) (a b : Nat), Memory.wf m = true →
    (b < a ∨ a + l.length ≤ b) → memByte (memWrite m a l) b = memByte m b := by
  induction l with
  | nil => intros; rfl
  | cons v r ih =>
    intro m a b h hb
    simp only [memWrite]
    rw [ih _ _ _ (memPut_wf m a v h) (by simp only [List.length_cons] at hb; omega), memByte_memPut m a v b h, if_neg]
    simp only [List.length_cons] at hb; omega

/-- A write of bytes is read back. -/
theorem memByte_memWrite_inside (l : List Byte) : ∀ (m : Mem) (a i : Nat), Memory.wf m = true → (hi : i < l.length) →
    memByte (memWrite m a l) (a + i) = l[i] := by
  induction l with
  | nil => intro m a i h hi; simp at hi
  | cons v r ih =>
    intro m a i h hi
    simp only [memWrite]
    cases i with
    | zero =>
      rw [memByte_memWrite_outside r _ _ _ (memPut_wf m a v h) (by omega), memByte_memPut m a v _ h]; simp
    | succ i =>
      have := ih (memPut m a v) (a + 1) i (memPut_wf m a v h) (by simpa using hi)
      rw [show a + (i + 1) = a + 1 + i by omega, this]; simp

/-- Reading bytes back. -/
theorem memRead_memWrite (l : List Byte) (m : Mem) (a : Nat) (h : Memory.wf m = true) :
    memRead (memWrite m a l) a l.length = l := by
  unfold memRead
  apply List.ext_getElem (by simp)
  intro i h1 h2
  simp only [List.getElem_map, List.getElem_range]
  exact memByte_memWrite_inside l m a i h h2

end Sys2Proof.Machine
end

