-- ==== Sys2Proof/Laws/Frame.lean ====
section
/-! SUPPORT. How the frame of a conditional and of a fold is read off its parts. -/

namespace Sys2Proof.Machine

@[simp] theorem ite_pending (c : Prop) [Decidable c] (a b : State) : (if c then a else b).pending = if c then a.pending else b.pending := apply_ite ..
@[simp] theorem ite_time (c : Prop) [Decidable c] (a b : State) : (if c then a else b).time = if c then a.time else b.time := apply_ite ..
@[simp] theorem ite_boxDie (c : Prop) [Decidable c] (a b : State) : (if c then a else b).boxDie = if c then a.boxDie else b.boxDie := apply_ite ..
@[simp] theorem ite_fuses (c : Prop) [Decidable c] (a b : State) : (if c then a else b).fuses = if c then a.fuses else b.fuses := apply_ite ..
@[simp] theorem ite_dram (c : Prop) [Decidable c] (a b : State) : (if c then a else b).dram = if c then a.dram else b.dram := apply_ite ..
@[simp] theorem ite_ws (c : Prop) [Decidable c] (a b : State) : (if c then a else b).ws = if c then a.ws else b.ws := apply_ite ..

theorem foldl_same {α β : Type} (P : State → β) (g : State → α → State) (h : ∀ s x, P (g s x) = P s) (l : List α) :
    ∀ s, P (l.foldl g s) = P s := by
  induction l with
  | nil => intro s; rfl
  | cons x r ih => intro s; rw [List.foldl_cons, ih, h]
@[simp] theorem foldl_pending {α : Type} (g : State → α → State) (l : List α) (s) (h : ∀ s x, (g s x).pending = s.pending) : (l.foldl g s).pending = s.pending := foldl_same State.pending g h l s
@[simp] theorem foldl_time {α : Type} (g : State → α → State) (l : List α) (s) (h : ∀ s x, (g s x).time = s.time) : (l.foldl g s).time = s.time := foldl_same State.time g h l s
@[simp] theorem foldl_boxDie {α : Type} (g : State → α → State) (l : List α) (s) (h : ∀ s x, (g s x).boxDie = s.boxDie) : (l.foldl g s).boxDie = s.boxDie := foldl_same State.boxDie g h l s
@[simp] theorem foldl_fuses {α : Type} (g : State → α → State) (l : List α) (s) (h : ∀ s x, (g s x).fuses = s.fuses) : (l.foldl g s).fuses = s.fuses := foldl_same State.fuses g h l s
@[simp] theorem foldl_dram {α : Type} (g : State → α → State) (l : List α) (s) (h : ∀ s x, (g s x).dram = s.dram) : (l.foldl g s).dram = s.dram := foldl_same State.dram g h l s
@[simp] theorem foldl_ws {α : Type} (g : State → α → State) (l : List α) (s) (h : ∀ s x, (g s x).ws = s.ws) : (l.foldl g s).ws = s.ws := foldl_same State.ws g h l s

theorem foldl_wfd {α : Type} (g : State → α → State) (h : ∀ s x, Memory.wf s.dram = true → Memory.wf (g s x).dram = true) (l : List α) :
    ∀ s, Memory.wf s.dram = true → Memory.wf (l.foldl g s).dram = true := by
  induction l with
  | nil => intro s hs; exact hs
  | cons x r ih => intro s hs; exact ih _ (h _ _ hs)
theorem foldl_wfw {α : Type} (g : State → α → State) (h : ∀ s x, Memory.wf s.ws = true → Memory.wf (g s x).ws = true) (l : List α) :
    ∀ s, Memory.wf s.ws = true → Memory.wf (l.foldl g s).ws = true := by
  induction l with
  | nil => intro s hs; exact hs
  | cons x r ih => intro s hs; exact ih _ (h _ _ hs)
@[simp] theorem foldl_wfd' {α : Type} (g : State → α → State) (l : List α) (s) (hs : Memory.wf s.dram = true) (h : ∀ s x, Memory.wf s.dram = true → Memory.wf (g s x).dram = true) : Memory.wf (l.foldl g s).dram = true := foldl_wfd g h l s hs
@[simp] theorem foldl_wfw' {α : Type} (g : State → α → State) (l : List α) (s) (hs : Memory.wf s.ws = true) (h : ∀ s x, Memory.wf s.ws = true → Memory.wf (g s x).ws = true) : Memory.wf (l.foldl g s).ws = true := foldl_wfw g h l s hs

end Sys2Proof.Machine
end

