-- ==== Sys2Proof/Laws/FrameOps.lean ====
section
/-! SUPPORT. The frame of the shared operations: resets, faults, switch queues, shards, cues: the queue, the clock, the box office die, the fuses and the two memories are as before, and
where a memory may change it keeps its canonical form. -/

set_option linter.unusedSimpArgs false

namespace Sys2Proof.Machine

/-! ### Ops -/

@[simp] theorem sendCells_frame :
    ∀ x0 x1 s, (sendCells x0 x1 s).pending = s.pending ∧ (sendCells x0 x1 s).time = s.time ∧ (sendCells x0 x1 s).boxDie = s.boxDie ∧ (sendCells x0 x1 s).fuses = s.fuses ∧ (sendCells x0 x1 s).dram = s.dram ∧ (sendCells x0 x1 s).ws = s.ws := by
  intros; simp [sendCells]

@[simp] theorem sendEvent_frame :
    ∀ x0 x1 s, (sendEvent x0 x1 s).pending = s.pending ∧ (sendEvent x0 x1 s).time = s.time ∧ (sendEvent x0 x1 s).boxDie = s.boxDie ∧ (sendEvent x0 x1 s).fuses = s.fuses ∧ (sendEvent x0 x1 s).dram = s.dram ∧ (sendEvent x0 x1 s).ws = s.ws := by
  intros; simp [sendEvent]

@[simp] theorem eventTo_frame :
    ∀ x0 x1 s x3, (eventTo x0 x1 s x3).pending = s.pending ∧ (eventTo x0 x1 s x3).time = s.time ∧ (eventTo x0 x1 s x3).boxDie = s.boxDie ∧ (eventTo x0 x1 s x3).fuses = s.fuses ∧ (eventTo x0 x1 s x3).dram = s.dram ∧ (eventTo x0 x1 s x3).ws = s.ws := by
  intros; unfold eventTo; (repeat' split) <;> simp

@[simp] theorem hostEvent_frame :
    ∀ x0 x1 s, (hostEvent x0 x1 s).pending = s.pending ∧ (hostEvent x0 x1 s).time = s.time ∧ (hostEvent x0 x1 s).boxDie = s.boxDie ∧ (hostEvent x0 x1 s).fuses = s.fuses ∧ (hostEvent x0 x1 s).dram = s.dram ∧ (hostEvent x0 x1 s).ws = s.ws := by
  intros; simp [hostEvent]

@[simp] theorem queueLog_frame :
    ∀ x0 x1 x2 x3 x4 x5 s, (queueLog x0 x1 x2 x3 x4 x5 s).pending = s.pending ∧ (queueLog x0 x1 x2 x3 x4 x5 s).time = s.time ∧ (queueLog x0 x1 x2 x3 x4 x5 s).boxDie = s.boxDie ∧ (queueLog x0 x1 x2 x3 x4 x5 s).fuses = s.fuses ∧ (queueLog x0 x1 x2 x3 x4 x5 s).dram = s.dram ∧ (queueLog x0 x1 x2 x3 x4 x5 s).ws = s.ws := by
  intros; simp [queueLog]

/-! ### ResetOps -/

@[simp] theorem checkAlive_frame :
    ∀ s, (checkAlive s).pending = s.pending ∧ (checkAlive s).time = s.time ∧ (checkAlive s).boxDie = s.boxDie ∧ (checkAlive s).fuses = s.fuses ∧ (checkAlive s).dram = s.dram ∧ (checkAlive s).ws = s.ws := by
  intros; simp [checkAlive]

@[simp] theorem failPasses_frame :
    ∀ x0 s, (failPasses x0 s).pending = s.pending ∧ (failPasses x0 s).time = s.time ∧ (failPasses x0 s).boxDie = s.boxDie ∧ (failPasses x0 s).fuses = s.fuses ∧ (failPasses x0 s).dram = s.dram ∧ (failPasses x0 s).ws = s.ws := by
  intros; simp [failPasses]

@[simp] theorem modAllSel_frame :
    ∀ x0 s, (modAllSel x0 s).pending = s.pending ∧ (modAllSel x0 s).time = s.time ∧ (modAllSel x0 s).boxDie = s.boxDie ∧ (modAllSel x0 s).fuses = s.fuses ∧ (modAllSel x0 s).dram = s.dram ∧ (modAllSel x0 s).ws = s.ws := by
  intros; simp [modAllSel]

@[simp] theorem resetUnit_frame :
    ∀ x0 s, (resetUnit x0 s).pending = s.pending ∧ (resetUnit x0 s).time = s.time ∧ (resetUnit x0 s).boxDie = s.boxDie ∧ (resetUnit x0 s).fuses = s.fuses ∧ (resetUnit x0 s).dram = s.dram ∧ (resetUnit x0 s).ws = s.ws := by
  intros; unfold resetUnit; (repeat' split) <;> simp

@[simp] theorem releaseUnits_frame :
    ∀ x0 s, (releaseUnits x0 s).pending = s.pending ∧ (releaseUnits x0 s).time = s.time ∧ (releaseUnits x0 s).boxDie = s.boxDie ∧ (releaseUnits x0 s).fuses = s.fuses ∧ (releaseUnits x0 s).dram = s.dram ∧ (releaseUnits x0 s).ws = s.ws := by
  intros; simp [releaseUnits]

@[simp] theorem setSpi_frame :
    ∀ x0 s, (setSpi x0 s).pending = s.pending ∧ (setSpi x0 s).time = s.time ∧ (setSpi x0 s).boxDie = s.boxDie ∧ (setSpi x0 s).fuses = s.fuses ∧ (setSpi x0 s).dram = s.dram ∧ (setSpi x0 s).ws = s.ws := by
  intros; unfold setSpi; (repeat' split) <;> simp

@[simp] theorem setEeprom_frame :
    ∀ x0 s, (setEeprom x0 s).pending = s.pending ∧ (setEeprom x0 s).time = s.time ∧ (setEeprom x0 s).boxDie = s.boxDie ∧ (setEeprom x0 s).fuses = s.fuses ∧ (setEeprom x0 s).dram = s.dram ∧ (setEeprom x0 s).ws = s.ws := by
  intros; unfold setEeprom; (repeat' split) <;> simp

@[simp] theorem resetPrompter_frame :
    ∀ s, (resetPrompter s).pending = s.pending ∧ (resetPrompter s).time = s.time ∧ (resetPrompter s).boxDie = s.boxDie ∧ (resetPrompter s).fuses = s.fuses ∧ (resetPrompter s).dram = s.dram ∧ (resetPrompter s).ws = s.ws := by
  intros; simp [resetPrompter]

@[simp] theorem resetWarm_frame_pending :
    ∀ s, (resetWarm s).pending = s.pending := by
  intros; simp [resetWarm]

@[simp] theorem resetWarm_frame_time :
    ∀ s, (resetWarm s).time = s.time := by
  intros; simp [resetWarm]

@[simp] theorem resetWarm_frame_boxDie :
    ∀ s, (resetWarm s).boxDie = s.boxDie := by
  intros; simp [resetWarm]

@[simp] theorem resetWarm_frame_fuses :
    ∀ s, (resetWarm s).fuses = s.fuses := by
  intros; simp [resetWarm]

@[simp] theorem resetWarm_frame_dram :
    ∀ s, (resetWarm s).dram = s.dram := by
  intros; simp [resetWarm]

@[simp] theorem resetWarm_wf_ws :
    ∀ s, Memory.wf s.ws = true → Memory.wf (resetWarm s).ws = true := by
  intros; simp +contextual [resetWarm, *]

@[simp] theorem resetCold_frame_pending :
    ∀ s, (resetCold s).pending = s.pending := by
  intros; simp [resetCold]

@[simp] theorem resetCold_frame_time :
    ∀ s, (resetCold s).time = s.time := by
  intros; simp [resetCold]

@[simp] theorem resetCold_frame_boxDie :
    ∀ s, (resetCold s).boxDie = s.boxDie := by
  intros; simp [resetCold]

@[simp] theorem resetCold_frame_fuses :
    ∀ s, (resetCold s).fuses = s.fuses := by
  intros; simp [resetCold]

@[simp] theorem resetCold_wf_dram :
    ∀ s, Memory.wf s.dram = true → Memory.wf (resetCold s).dram = true := by
  intros; simp +contextual [resetCold, *]

@[simp] theorem resetCold_wf_ws :
    ∀ s, Memory.wf s.ws = true → Memory.wf (resetCold s).ws = true := by
  intros; simp +contextual [resetCold, *]

@[simp] theorem resetPower_frame_pending :
    ∀ s, (resetPower s).pending = s.pending := by
  intros; simp [resetPower]

@[simp] theorem resetPower_frame_time :
    ∀ s, (resetPower s).time = s.time := by
  intros; simp [resetPower]

@[simp] theorem resetPower_frame_boxDie :
    ∀ s, (resetPower s).boxDie = s.boxDie := by
  intros; simp [resetPower]

@[simp] theorem resetPower_frame_fuses :
    ∀ s, (resetPower s).fuses = s.fuses := by
  intros; simp [resetPower]

@[simp] theorem resetPower_wf_dram :
    ∀ s, Memory.wf s.dram = true → Memory.wf (resetPower s).dram = true := by
  intros; simp +contextual [resetPower, *]

@[simp] theorem resetPower_wf_ws :
    ∀ s, Memory.wf s.ws = true → Memory.wf (resetPower s).ws = true := by
  intros; simp +contextual [resetPower, *]

@[simp] theorem rstSticky_frame :
    ∀ x0 s, (rstSticky x0 s).pending = s.pending ∧ (rstSticky x0 s).time = s.time ∧ (rstSticky x0 s).boxDie = s.boxDie ∧ (rstSticky x0 s).fuses = s.fuses ∧ (rstSticky x0 s).dram = s.dram ∧ (rstSticky x0 s).ws = s.ws := by
  intros; simp [rstSticky]

@[simp] theorem cutOption_frame :
    ∀ x0 s, (cutOption x0 s).pending = s.pending ∧ (cutOption x0 s).time = s.time ∧ (cutOption x0 s).boxDie = s.boxDie ∧ (cutOption x0 s).fuses = s.fuses ∧ (cutOption x0 s).dram = s.dram ∧ (cutOption x0 s).ws = s.ws := by
  intros; unfold cutOption; (repeat' split) <;> simp

@[simp] theorem resetReach_frame_pending :
    ∀ x0 s, (resetReach x0 s).pending = s.pending := by
  intros; unfold resetReach; split <;> simp

@[simp] theorem resetReach_frame_time :
    ∀ x0 s, (resetReach x0 s).time = s.time := by
  intros; unfold resetReach; split <;> simp

@[simp] theorem resetReach_frame_boxDie :
    ∀ x0 s, (resetReach x0 s).boxDie = s.boxDie := by
  intros; unfold resetReach; split <;> simp

@[simp] theorem resetReach_frame_fuses :
    ∀ x0 s, (resetReach x0 s).fuses = s.fuses := by
  intros; unfold resetReach; split <;> simp

@[simp] theorem resetReach_wf_dram :
    ∀ x0 s, Memory.wf s.dram = true → Memory.wf (resetReach x0 s).dram = true := by
  intros; unfold resetReach; split <;> simp [*]

@[simp] theorem resetReach_wf_ws :
    ∀ x0 s, Memory.wf s.ws = true → Memory.wf (resetReach x0 s).ws = true := by
  intros; unfold resetReach; split <;> simp [*]

@[simp] theorem takeReach_frame_pending :
    ∀ x0 s, (takeReach x0 s).pending = s.pending := by
  intros; unfold takeReach; (repeat' split) <;> simp

@[simp] theorem takeReach_frame_time :
    ∀ x0 s, (takeReach x0 s).time = s.time := by
  intros; unfold takeReach; (repeat' split) <;> simp

@[simp] theorem takeReach_frame_boxDie :
    ∀ x0 s, (takeReach x0 s).boxDie = s.boxDie := by
  intros; unfold takeReach; (repeat' split) <;> simp

@[simp] theorem takeReach_frame_fuses :
    ∀ x0 s, (takeReach x0 s).fuses = s.fuses := by
  intros; unfold takeReach; (repeat' split) <;> simp

@[simp] theorem takeReach_wf_dram :
    ∀ x0 s, Memory.wf s.dram = true → Memory.wf (takeReach x0 s).dram = true := by
  intros; unfold takeReach; (repeat' split) <;> simp +contextual [*]

@[simp] theorem takeReach_wf_ws :
    ∀ x0 s, Memory.wf s.ws = true → Memory.wf (takeReach x0 s).ws = true := by
  intros; unfold takeReach; (repeat' split) <;> simp +contextual [*]

@[simp] theorem markSource_frame :
    ∀ x0 s, (markSource x0 s).pending = s.pending ∧ (markSource x0 s).time = s.time ∧ (markSource x0 s).boxDie = s.boxDie ∧ (markSource x0 s).fuses = s.fuses ∧ (markSource x0 s).dram = s.dram ∧ (markSource x0 s).ws = s.ws := by
  intros; simp [markSource]

@[simp] theorem startTimer_frame :
    ∀ x0 s, (startTimer x0 s).pending = s.pending ∧ (startTimer x0 s).time = s.time ∧ (startTimer x0 s).boxDie = s.boxDie ∧ (startTimer x0 s).fuses = s.fuses ∧ (startTimer x0 s).dram = s.dram ∧ (startTimer x0 s).ws = s.ws := by
  intros; simp [startTimer]

@[simp] theorem assertWide_frame_pending :
    ∀ x0 s, (assertWide x0 s).pending = s.pending := by
  intros; simp [assertWide]

@[simp] theorem assertWide_frame_time :
    ∀ x0 s, (assertWide x0 s).time = s.time := by
  intros; simp [assertWide]

@[simp] theorem assertWide_frame_boxDie :
    ∀ x0 s, (assertWide x0 s).boxDie = s.boxDie := by
  intros; simp [assertWide]

@[simp] theorem assertWide_frame_fuses :
    ∀ x0 s, (assertWide x0 s).fuses = s.fuses := by
  intros; simp [assertWide]

@[simp] theorem assertWide_wf_dram :
    ∀ x0 s, Memory.wf s.dram = true → Memory.wf (assertWide x0 s).dram = true := by
  intros; simp +contextual [assertWide, *]

@[simp] theorem assertWide_wf_ws :
    ∀ x0 s, Memory.wf s.ws = true → Memory.wf (assertWide x0 s).ws = true := by
  intros; simp +contextual [assertWide, *]

@[simp] theorem assertWarm_frame_pending :
    ∀ x0 s, (assertWarm x0 s).pending = s.pending := by
  intros; simp [assertWarm]

@[simp] theorem assertWarm_frame_time :
    ∀ x0 s, (assertWarm x0 s).time = s.time := by
  intros; simp [assertWarm]

@[simp] theorem assertWarm_frame_boxDie :
    ∀ x0 s, (assertWarm x0 s).boxDie = s.boxDie := by
  intros; simp [assertWarm]

@[simp] theorem assertWarm_frame_fuses :
    ∀ x0 s, (assertWarm x0 s).fuses = s.fuses := by
  intros; simp [assertWarm]

@[simp] theorem assertWarm_wf_dram :
    ∀ x0 s, Memory.wf s.dram = true → Memory.wf (assertWarm x0 s).dram = true := by
  intros; unfold assertWarm; simp only []; (repeat' split) <;> simp +contextual [*]

@[simp] theorem assertWarm_wf_ws :
    ∀ x0 s, Memory.wf s.ws = true → Memory.wf (assertWarm x0 s).ws = true := by
  intros; unfold assertWarm; simp only []; (repeat' split) <;> simp +contextual [*]

/-! ### Shards -/

@[simp] theorem writeShard_frame_pending :
    ∀ x0 x1 s, (writeShard x0 x1 s).pending = s.pending := by
  intros; simp [writeShard]

@[simp] theorem writeShard_frame_time :
    ∀ x0 x1 s, (writeShard x0 x1 s).time = s.time := by
  intros; simp [writeShard]

@[simp] theorem writeShard_frame_boxDie :
    ∀ x0 x1 s, (writeShard x0 x1 s).boxDie = s.boxDie := by
  intros; simp [writeShard]

@[simp] theorem writeShard_frame_fuses :
    ∀ x0 x1 s, (writeShard x0 x1 s).fuses = s.fuses := by
  intros; simp [writeShard]

@[simp] theorem writeShard_wf_dram :
    ∀ x0 x1 s, Memory.wf s.dram = true → Memory.wf (writeShard x0 x1 s).dram = true := by
  intros; simp +contextual [writeShard, *]

@[simp] theorem writeShard_frame_ws :
    ∀ x0 x1 s, (writeShard x0 x1 s).ws = s.ws := by
  intros; simp [writeShard]

@[simp] theorem modShard_frame_pending :
    ∀ x0 x1 s, (modShard x0 x1 s).pending = s.pending := by
  intros; unfold modShard; (repeat' split) <;> simp

@[simp] theorem modShard_frame_time :
    ∀ x0 x1 s, (modShard x0 x1 s).time = s.time := by
  intros; unfold modShard; (repeat' split) <;> simp

@[simp] theorem modShard_frame_boxDie :
    ∀ x0 x1 s, (modShard x0 x1 s).boxDie = s.boxDie := by
  intros; unfold modShard; (repeat' split) <;> simp

@[simp] theorem modShard_frame_fuses :
    ∀ x0 x1 s, (modShard x0 x1 s).fuses = s.fuses := by
  intros; unfold modShard; (repeat' split) <;> simp

@[simp] theorem modShard_wf_dram :
    ∀ x0 x1 s, Memory.wf s.dram = true → Memory.wf (modShard x0 x1 s).dram = true := by
  intros; unfold modShard; (repeat' split) <;> simp +contextual [*]

@[simp] theorem modShard_frame_ws :
    ∀ x0 x1 s, (modShard x0 x1 s).ws = s.ws := by
  intros; unfold modShard; (repeat' split) <;> simp

@[simp] theorem createShard_frame_pending :
    ∀ x0 x1 x2 x3 x4 x5 x6 x7 s, (createShard x0 x1 x2 x3 x4 x5 x6 x7 s).pending = s.pending := by
  intros; simp [createShard]

@[simp] theorem createShard_frame_time :
    ∀ x0 x1 x2 x3 x4 x5 x6 x7 s, (createShard x0 x1 x2 x3 x4 x5 x6 x7 s).time = s.time := by
  intros; simp [createShard]

@[simp] theorem createShard_frame_boxDie :
    ∀ x0 x1 x2 x3 x4 x5 x6 x7 s, (createShard x0 x1 x2 x3 x4 x5 x6 x7 s).boxDie = s.boxDie := by
  intros; simp [createShard]

@[simp] theorem createShard_frame_fuses :
    ∀ x0 x1 x2 x3 x4 x5 x6 x7 s, (createShard x0 x1 x2 x3 x4 x5 x6 x7 s).fuses = s.fuses := by
  intros; simp [createShard]

@[simp] theorem createShard_wf_dram :
    ∀ x0 x1 x2 x3 x4 x5 x6 x7 s, Memory.wf s.dram = true → Memory.wf (createShard x0 x1 x2 x3 x4 x5 x6 x7 s).dram = true := by
  intros; simp +contextual [createShard, *]

@[simp] theorem createShard_frame_ws :
    ∀ x0 x1 x2 x3 x4 x5 x6 x7 s, (createShard x0 x1 x2 x3 x4 x5 x6 x7 s).ws = s.ws := by
  intros; simp [createShard]

@[simp] theorem writeWords_frame_pending :
    ∀ x0 x1 x2 s, (writeWords x0 x1 x2 s).pending = s.pending := by
  intros; simp [writeWords]

@[simp] theorem writeWords_frame_time :
    ∀ x0 x1 x2 s, (writeWords x0 x1 x2 s).time = s.time := by
  intros; simp [writeWords]

@[simp] theorem writeWords_frame_boxDie :
    ∀ x0 x1 x2 s, (writeWords x0 x1 x2 s).boxDie = s.boxDie := by
  intros; simp [writeWords]

@[simp] theorem writeWords_frame_fuses :
    ∀ x0 x1 x2 s, (writeWords x0 x1 x2 s).fuses = s.fuses := by
  intros; simp [writeWords]

@[simp] theorem writeWords_wf_dram :
    ∀ x0 x1 x2 s, Memory.wf s.dram = true → Memory.wf (writeWords x0 x1 x2 s).dram = true := by
  intros; simp +contextual [writeWords, *]

@[simp] theorem writeWords_frame_ws :
    ∀ x0 x1 x2 s, (writeWords x0 x1 x2 s).ws = s.ws := by
  intros; simp [writeWords]

@[simp] theorem writeProgress_frame_pending :
    ∀ x0 x1 s, (writeProgress x0 x1 s).pending = s.pending := by
  intros; simp [writeProgress]

@[simp] theorem writeProgress_frame_time :
    ∀ x0 x1 s, (writeProgress x0 x1 s).time = s.time := by
  intros; simp [writeProgress]

@[simp] theorem writeProgress_frame_boxDie :
    ∀ x0 x1 s, (writeProgress x0 x1 s).boxDie = s.boxDie := by
  intros; simp [writeProgress]

@[simp] theorem writeProgress_frame_fuses :
    ∀ x0 x1 s, (writeProgress x0 x1 s).fuses = s.fuses := by
  intros; simp [writeProgress]

@[simp] theorem writeProgress_wf_dram :
    ∀ x0 x1 s, Memory.wf s.dram = true → Memory.wf (writeProgress x0 x1 s).dram = true := by
  intros; simp +contextual [writeProgress, *]

@[simp] theorem writeProgress_frame_ws :
    ∀ x0 x1 s, (writeProgress x0 x1 s).ws = s.ws := by
  intros; simp [writeProgress]

/-! ### CueLook -/

@[simp] theorem modRun_frame :
    ∀ x0 s, (modRun x0 s).pending = s.pending ∧ (modRun x0 s).time = s.time ∧ (modRun x0 s).boxDie = s.boxDie ∧ (modRun x0 s).fuses = s.fuses ∧ (modRun x0 s).dram = s.dram ∧ (modRun x0 s).ws = s.ws := by
  intros; simp [modRun]

@[simp] theorem modOpen_frame :
    ∀ x0 x1 s, (modOpen x0 x1 s).pending = s.pending ∧ (modOpen x0 x1 s).time = s.time ∧ (modOpen x0 x1 s).boxDie = s.boxDie ∧ (modOpen x0 x1 s).fuses = s.fuses ∧ (modOpen x0 x1 s).dram = s.dram ∧ (modOpen x0 x1 s).ws = s.ws := by
  intros; simp [modOpen]

@[simp] theorem modInst_frame :
    ∀ x0 x1 x2 s, (modInst x0 x1 x2 s).pending = s.pending ∧ (modInst x0 x1 x2 s).time = s.time ∧ (modInst x0 x1 x2 s).boxDie = s.boxDie ∧ (modInst x0 x1 x2 s).fuses = s.fuses ∧ (modInst x0 x1 x2 s).dram = s.dram ∧ (modInst x0 x1 x2 s).ws = s.ws := by
  intros; simp [modInst]

@[simp] theorem cueSticky_frame :
    ∀ x0 s, (cueSticky x0 s).pending = s.pending ∧ (cueSticky x0 s).time = s.time ∧ (cueSticky x0 s).boxDie = s.boxDie ∧ (cueSticky x0 s).fuses = s.fuses ∧ (cueSticky x0 s).dram = s.dram ∧ (cueSticky x0 s).ws = s.ws := by
  intros; simp [cueSticky]

@[simp] theorem cueEvent_frame :
    ∀ x0 x1 s, (cueEvent x0 x1 s).pending = s.pending ∧ (cueEvent x0 x1 s).time = s.time ∧ (cueEvent x0 x1 s).boxDie = s.boxDie ∧ (cueEvent x0 x1 s).fuses = s.fuses ∧ (cueEvent x0 x1 s).dram = s.dram ∧ (cueEvent x0 x1 s).ws = s.ws := by
  intros; unfold cueEvent; (repeat' split) <;> simp

/-! ### Faults -/

@[simp] theorem failInsts_frame :
    ∀ x0 s, (failInsts x0 s).pending = s.pending ∧ (failInsts x0 s).time = s.time ∧ (failInsts x0 s).boxDie = s.boxDie ∧ (failInsts x0 s).fuses = s.fuses ∧ (failInsts x0 s).dram = s.dram ∧ (failInsts x0 s).ws = s.ws := by
  intros; simp [failInsts]

@[simp] theorem beginRecovery_frame :
    ∀ s, (beginRecovery s).pending = s.pending ∧ (beginRecovery s).time = s.time ∧ (beginRecovery s).boxDie = s.boxDie ∧ (beginRecovery s).fuses = s.fuses ∧ (beginRecovery s).dram = s.dram ∧ (beginRecovery s).ws = s.ws := by
  intros; unfold beginRecovery; (repeat' split) <;> simp

@[simp] theorem fenceUnit_frame :
    ∀ x0 x1 s, (fenceUnit x0 x1 s).pending = s.pending ∧ (fenceUnit x0 x1 s).time = s.time ∧ (fenceUnit x0 x1 s).boxDie = s.boxDie ∧ (fenceUnit x0 x1 s).fuses = s.fuses ∧ (fenceUnit x0 x1 s).dram = s.dram ∧ (fenceUnit x0 x1 s).ws = s.ws := by
  intros; simp [fenceUnit]

@[simp] theorem latchFirst_frame :
    ∀ x0 x1 s, (latchFirst x0 x1 s).pending = s.pending ∧ (latchFirst x0 x1 s).time = s.time ∧ (latchFirst x0 x1 s).boxDie = s.boxDie ∧ (latchFirst x0 x1 s).fuses = s.fuses ∧ (latchFirst x0 x1 s).dram = s.dram ∧ (latchFirst x0 x1 s).ws = s.ws := by
  intros; unfold latchFirst; (repeat' split) <;> simp

@[simp] theorem countRaise_frame :
    ∀ x0 x1 x2 s, ((countRaise x0 x1 x2 s).1).pending = s.pending ∧ ((countRaise x0 x1 x2 s).1).time = s.time ∧ ((countRaise x0 x1 x2 s).1).boxDie = s.boxDie ∧ ((countRaise x0 x1 x2 s).1).fuses = s.fuses ∧ ((countRaise x0 x1 x2 s).1).dram = s.dram ∧ ((countRaise x0 x1 x2 s).1).ws = s.ws := by
  intros; simp only [countRaise]; (repeat' split) <;> simp

@[simp] theorem interrupt_frame :
    ∀ x0 s, (interrupt x0 s).pending = s.pending ∧ (interrupt x0 s).time = s.time ∧ (interrupt x0 s).boxDie = s.boxDie ∧ (interrupt x0 s).fuses = s.fuses ∧ (interrupt x0 s).dram = s.dram ∧ (interrupt x0 s).ws = s.ws := by
  intros; simp [interrupt]

@[simp] theorem holdAlive_frame :
    ∀ x0 s, (holdAlive x0 s).pending = s.pending ∧ (holdAlive x0 s).time = s.time ∧ (holdAlive x0 s).boxDie = s.boxDie ∧ (holdAlive x0 s).fuses = s.fuses ∧ (holdAlive x0 s).dram = s.dram ∧ (holdAlive x0 s).ws = s.ws := by
  intros; simp [holdAlive]

@[simp] theorem doorRestart_frame :
    ∀ x0 s, (doorRestart x0 s).pending = s.pending ∧ (doorRestart x0 s).time = s.time ∧ (doorRestart x0 s).boxDie = s.boxDie ∧ (doorRestart x0 s).fuses = s.fuses ∧ (doorRestart x0 s).dram = s.dram ∧ (doorRestart x0 s).ws = s.ws := by
  intros; simp [doorRestart]

@[simp] theorem stopAlive_frame :
    ∀ x0 s, (stopAlive x0 s).pending = s.pending ∧ (stopAlive x0 s).time = s.time ∧ (stopAlive x0 s).boxDie = s.boxDie ∧ (stopAlive x0 s).fuses = s.fuses ∧ (stopAlive x0 s).dram = s.dram ∧ (stopAlive x0 s).ws = s.ws := by
  intros; simp [stopAlive]

@[simp] theorem faultEvent_frame :
    ∀ x0 x1 x2 s, (faultEvent x0 x1 x2 s).pending = s.pending ∧ (faultEvent x0 x1 x2 s).time = s.time ∧ (faultEvent x0 x1 x2 s).boxDie = s.boxDie ∧ (faultEvent x0 x1 x2 s).fuses = s.fuses ∧ (faultEvent x0 x1 x2 s).dram = s.dram ∧ (faultEvent x0 x1 x2 s).ws = s.ws := by
  intros; simp [faultEvent]

@[simp] theorem holdUnit_frame :
    ∀ x0 s, (holdUnit x0 s).pending = s.pending ∧ (holdUnit x0 s).time = s.time ∧ (holdUnit x0 s).boxDie = s.boxDie ∧ (holdUnit x0 s).fuses = s.fuses ∧ (holdUnit x0 s).dram = s.dram ∧ (holdUnit x0 s).ws = s.ws := by
  intros; unfold holdUnit; (repeat' split) <;> simp

@[simp] theorem dropStops_frame :
    ∀ s, (dropStops s).pending = s.pending ∧ (dropStops s).time = s.time ∧ (dropStops s).boxDie = s.boxDie ∧ (dropStops s).fuses = s.fuses ∧ (dropStops s).dram = s.dram ∧ (dropStops s).ws = s.ws := by
  intros; simp [dropStops]

@[simp] theorem react_frame_pending :
    ∀ x0 x1 x2 s, (react x0 x1 x2 s).pending = s.pending := by
  intros; unfold react; (repeat' split) <;> simp

@[simp] theorem react_frame_time :
    ∀ x0 x1 x2 s, (react x0 x1 x2 s).time = s.time := by
  intros; unfold react; (repeat' split) <;> simp

@[simp] theorem react_frame_boxDie :
    ∀ x0 x1 x2 s, (react x0 x1 x2 s).boxDie = s.boxDie := by
  intros; unfold react; (repeat' split) <;> simp

@[simp] theorem react_frame_fuses :
    ∀ x0 x1 x2 s, (react x0 x1 x2 s).fuses = s.fuses := by
  intros; unfold react; (repeat' split) <;> simp

@[simp] theorem react_wf_dram :
    ∀ x0 x1 x2 s, Memory.wf s.dram = true → Memory.wf (react x0 x1 x2 s).dram = true := by
  intros; unfold react; (repeat' split) <;> simp +contextual [*]

@[simp] theorem react_wf_ws :
    ∀ x0 x1 x2 s, Memory.wf s.ws = true → Memory.wf (react x0 x1 x2 s).ws = true := by
  intros; unfold react; (repeat' split) <;> simp +contextual [*]

@[simp] theorem raiseAs_frame_pending :
    ∀ x0 x1 x2 s, (raiseAs x0 x1 x2 s).pending = s.pending := by
  intros; simp [raiseAs]

@[simp] theorem raiseAs_frame_time :
    ∀ x0 x1 x2 s, (raiseAs x0 x1 x2 s).time = s.time := by
  intros; simp [raiseAs]

@[simp] theorem raiseAs_frame_boxDie :
    ∀ x0 x1 x2 s, (raiseAs x0 x1 x2 s).boxDie = s.boxDie := by
  intros; simp [raiseAs]

@[simp] theorem raiseAs_frame_fuses :
    ∀ x0 x1 x2 s, (raiseAs x0 x1 x2 s).fuses = s.fuses := by
  intros; simp [raiseAs]

@[simp] theorem raiseAs_wf_dram :
    ∀ x0 x1 x2 s, Memory.wf s.dram = true → Memory.wf (raiseAs x0 x1 x2 s).dram = true := by
  intros; unfold raiseAs; simp only []; (repeat' split) <;> simp +contextual [*]

@[simp] theorem raiseAs_wf_ws :
    ∀ x0 x1 x2 s, Memory.wf s.ws = true → Memory.wf (raiseAs x0 x1 x2 s).ws = true := by
  intros; unfold raiseAs; simp only []; (repeat' split) <;> simp +contextual [*]

@[simp] theorem raise_frame_pending :
    ∀ x0 s, (raise x0 s).pending = s.pending := by
  intros; simp [raise]

@[simp] theorem raise_frame_time :
    ∀ x0 s, (raise x0 s).time = s.time := by
  intros; simp [raise]

@[simp] theorem raise_frame_boxDie :
    ∀ x0 s, (raise x0 s).boxDie = s.boxDie := by
  intros; simp [raise]

@[simp] theorem raise_frame_fuses :
    ∀ x0 s, (raise x0 s).fuses = s.fuses := by
  intros; simp [raise]

@[simp] theorem raise_wf_dram :
    ∀ x0 s, Memory.wf s.dram = true → Memory.wf (raise x0 s).dram = true := by
  intros; simp +contextual [raise, *]

@[simp] theorem raise_wf_ws :
    ∀ x0 s, Memory.wf s.ws = true → Memory.wf (raise x0 s).ws = true := by
  intros; simp +contextual [raise, *]

@[simp] theorem raiseAll_frame_pending :
    ∀ x0 s, (raiseAll x0 s).pending = s.pending := by
  intros; simp [raiseAll]

@[simp] theorem raiseAll_frame_time :
    ∀ x0 s, (raiseAll x0 s).time = s.time := by
  intros; simp [raiseAll]

@[simp] theorem raiseAll_frame_boxDie :
    ∀ x0 s, (raiseAll x0 s).boxDie = s.boxDie := by
  intros; simp [raiseAll]

@[simp] theorem raiseAll_frame_fuses :
    ∀ x0 s, (raiseAll x0 s).fuses = s.fuses := by
  intros; simp [raiseAll]

@[simp] theorem raiseAll_wf_dram :
    ∀ x0 s, Memory.wf s.dram = true → Memory.wf (raiseAll x0 s).dram = true := by
  intros; simp +contextual [raiseAll, *]

@[simp] theorem raiseAll_wf_ws :
    ∀ x0 s, Memory.wf s.ws = true → Memory.wf (raiseAll x0 s).ws = true := by
  intros; simp +contextual [raiseAll, *]

@[simp] theorem toQuiet_frame :
    ∀ x0 s, (toQuiet x0 s).pending = s.pending ∧ (toQuiet x0 s).time = s.time ∧ (toQuiet x0 s).boxDie = s.boxDie ∧ (toQuiet x0 s).fuses = s.fuses ∧ (toQuiet x0 s).dram = s.dram ∧ (toQuiet x0 s).ws = s.ws := by
  intros; simp [toQuiet]

/-! ### SwitchOps -/

@[simp] theorem swcSticky_frame :
    ∀ x0 s, (swcSticky x0 s).pending = s.pending ∧ (swcSticky x0 s).time = s.time ∧ (swcSticky x0 s).boxDie = s.boxDie ∧ (swcSticky x0 s).fuses = s.fuses ∧ (swcSticky x0 s).dram = s.dram ∧ (swcSticky x0 s).ws = s.ws := by
  intros; simp [swcSticky]

@[simp] theorem freeCells_frame :
    ∀ x0 x1 x2 s, (freeCells x0 x1 x2 s).pending = s.pending ∧ (freeCells x0 x1 x2 s).time = s.time ∧ (freeCells x0 x1 x2 s).boxDie = s.boxDie ∧ (freeCells x0 x1 x2 s).fuses = s.fuses ∧ (freeCells x0 x1 x2 s).dram = s.dram ∧ (freeCells x0 x1 x2 s).ws = s.ws := by
  intros; simp [freeCells]

@[simp] theorem newBuf_frame :
    ∀ x0 x1 x2 x3 s, (newBuf x0 x1 x2 x3 s).pending = s.pending ∧ (newBuf x0 x1 x2 x3 s).time = s.time ∧ (newBuf x0 x1 x2 x3 s).boxDie = s.boxDie ∧ (newBuf x0 x1 x2 x3 s).fuses = s.fuses ∧ (newBuf x0 x1 x2 x3 s).dram = s.dram ∧ (newBuf x0 x1 x2 x3 s).ws = s.ws := by
  intros; simp [newBuf]

@[simp] theorem settleLocalRes_frame :
    ∀ s, (settleLocalRes s).pending = s.pending ∧ (settleLocalRes s).time = s.time ∧ (settleLocalRes s).boxDie = s.boxDie ∧ (settleLocalRes s).fuses = s.fuses ∧ (settleLocalRes s).dram = s.dram ∧ (settleLocalRes s).ws = s.ws := by
  intros; simp [settleLocalRes]

@[simp] theorem releaseHold_frame :
    ∀ x0 s, (releaseHold x0 s).pending = s.pending ∧ (releaseHold x0 s).time = s.time ∧ (releaseHold x0 s).boxDie = s.boxDie ∧ (releaseHold x0 s).fuses = s.fuses ∧ (releaseHold x0 s).dram = s.dram ∧ (releaseHold x0 s).ws = s.ws := by
  intros; unfold releaseHold; (repeat' split) <;> simp

@[simp] theorem modBuf_frame :
    ∀ x0 x1 s, (modBuf x0 x1 s).pending = s.pending ∧ (modBuf x0 x1 s).time = s.time ∧ (modBuf x0 x1 s).boxDie = s.boxDie ∧ (modBuf x0 x1 s).fuses = s.fuses ∧ (modBuf x0 x1 s).dram = s.dram ∧ (modBuf x0 x1 s).ws = s.ws := by
  intros; unfold modBuf; (repeat' split) <;> simp

@[simp] theorem copyStarts_frame :
    ∀ x0 s, (copyStarts x0 s).pending = s.pending ∧ (copyStarts x0 s).time = s.time ∧ (copyStarts x0 s).boxDie = s.boxDie ∧ (copyStarts x0 s).fuses = s.fuses ∧ (copyStarts x0 s).dram = s.dram ∧ (copyStarts x0 s).ws = s.ws := by
  intros; simp [copyStarts]

@[simp] theorem copyLeaves_frame :
    ∀ x0 s, (copyLeaves x0 s).pending = s.pending ∧ (copyLeaves x0 s).time = s.time ∧ (copyLeaves x0 s).boxDie = s.boxDie ∧ (copyLeaves x0 s).fuses = s.fuses ∧ (copyLeaves x0 s).dram = s.dram ∧ (copyLeaves x0 s).ws = s.ws := by
  intros; simp [copyLeaves]

@[simp] theorem copyAcked_frame :
    ∀ x0 s, (copyAcked x0 s).pending = s.pending ∧ (copyAcked x0 s).time = s.time ∧ (copyAcked x0 s).boxDie = s.boxDie ∧ (copyAcked x0 s).fuses = s.fuses ∧ (copyAcked x0 s).dram = s.dram ∧ (copyAcked x0 s).ws = s.ws := by
  intros; simp [copyAcked]

@[simp] theorem copyReturns_frame :
    ∀ x0 s, (copyReturns x0 s).pending = s.pending ∧ (copyReturns x0 s).time = s.time ∧ (copyReturns x0 s).boxDie = s.boxDie ∧ (copyReturns x0 s).fuses = s.fuses ∧ (copyReturns x0 s).dram = s.dram ∧ (copyReturns x0 s).ws = s.ws := by
  intros; simp [copyReturns]

@[simp] theorem noteSpray_frame :
    ∀ x0 x1 s, (noteSpray x0 x1 s).pending = s.pending ∧ (noteSpray x0 x1 s).time = s.time ∧ (noteSpray x0 x1 s).boxDie = s.boxDie ∧ (noteSpray x0 x1 s).fuses = s.fuses ∧ (noteSpray x0 x1 s).dram = s.dram ∧ (noteSpray x0 x1 s).ws = s.ws := by
  intros; simp [noteSpray]

@[simp] theorem sprayTo_frame :
    ∀ x0 x1 s, ((sprayTo x0 x1 s).2).pending = s.pending ∧ ((sprayTo x0 x1 s).2).time = s.time ∧ ((sprayTo x0 x1 s).2).boxDie = s.boxDie ∧ ((sprayTo x0 x1 s).2).fuses = s.fuses ∧ ((sprayTo x0 x1 s).2).dram = s.dram ∧ ((sprayTo x0 x1 s).2).ws = s.ws := by
  intros; unfold sprayTo; (repeat' split) <;> simp

@[simp] theorem routeEntryTo_frame :
    ∀ x0 x1 x2 s, ((routeEntryTo x0 x1 x2 s).2).pending = s.pending ∧ ((routeEntryTo x0 x1 x2 s).2).time = s.time ∧ ((routeEntryTo x0 x1 x2 s).2).boxDie = s.boxDie ∧ ((routeEntryTo x0 x1 x2 s).2).fuses = s.fuses ∧ ((routeEntryTo x0 x1 x2 s).2).dram = s.dram ∧ ((routeEntryTo x0 x1 x2 s).2).ws = s.ws := by
  intros; simp only [routeEntryTo]; (repeat' split) <;> simp

@[simp] theorem resolve_frame :
    ∀ x0 x1 x2 s, ((resolve x0 x1 x2 s).2).pending = s.pending ∧ ((resolve x0 x1 x2 s).2).time = s.time ∧ ((resolve x0 x1 x2 s).2).boxDie = s.boxDie ∧ ((resolve x0 x1 x2 s).2).fuses = s.fuses ∧ ((resolve x0 x1 x2 s).2).dram = s.dram ∧ ((resolve x0 x1 x2 s).2).ws = s.ws := by
  intros; simp only [resolve]; (repeat' split) <;> simp

@[simp] theorem placeFrame_frame :
    ∀ x0 x1 x2 x3 x4 s, (placeFrame x0 x1 x2 x3 x4 s).pending = s.pending ∧ (placeFrame x0 x1 x2 x3 x4 s).time = s.time ∧ (placeFrame x0 x1 x2 x3 x4 s).boxDie = s.boxDie ∧ (placeFrame x0 x1 x2 x3 x4 s).fuses = s.fuses ∧ (placeFrame x0 x1 x2 x3 x4 s).dram = s.dram ∧ (placeFrame x0 x1 x2 x3 x4 s).ws = s.ws := by
  intros; simp only [placeFrame]; (repeat' split) <;> simp

@[simp] theorem routeHeld_frame :
    ∀ s, (routeHeld s).pending = s.pending ∧ (routeHeld s).time = s.time ∧ (routeHeld s).boxDie = s.boxDie ∧ (routeHeld s).fuses = s.fuses ∧ (routeHeld s).dram = s.dram ∧ (routeHeld s).ws = s.ws := by
  intros; simp [routeHeld]

@[simp] theorem launchMember_frame :
    ∀ x0 x1 x2 s x4, (launchMember x0 x1 x2 s x4).pending = s.pending ∧ (launchMember x0 x1 x2 s x4).time = s.time ∧ (launchMember x0 x1 x2 s x4).boxDie = s.boxDie ∧ (launchMember x0 x1 x2 s x4).fuses = s.fuses ∧ (launchMember x0 x1 x2 s x4).dram = s.dram ∧ (launchMember x0 x1 x2 s x4).ws = s.ws := by
  intros; simp [launchMember]

@[simp] theorem launchCopy_frame :
    ∀ x0 x1 x2 s x4, (launchCopy x0 x1 x2 s x4).pending = s.pending ∧ (launchCopy x0 x1 x2 s x4).time = s.time ∧ (launchCopy x0 x1 x2 s x4).boxDie = s.boxDie ∧ (launchCopy x0 x1 x2 s x4).fuses = s.fuses ∧ (launchCopy x0 x1 x2 s x4).dram = s.dram ∧ (launchCopy x0 x1 x2 s x4).ws = s.ws := by
  intros; simp [launchCopy]

@[simp] theorem enterLocal_frame_pending :
    ∀ x0 s, (enterLocal x0 s).pending = s.pending := by
  intros; unfold enterLocal; (repeat' split) <;> simp

@[simp] theorem enterLocal_frame_time :
    ∀ x0 s, (enterLocal x0 s).time = s.time := by
  intros; unfold enterLocal; (repeat' split) <;> simp

@[simp] theorem enterLocal_frame_boxDie :
    ∀ x0 s, (enterLocal x0 s).boxDie = s.boxDie := by
  intros; unfold enterLocal; (repeat' split) <;> simp

@[simp] theorem enterLocal_frame_fuses :
    ∀ x0 s, (enterLocal x0 s).fuses = s.fuses := by
  intros; unfold enterLocal; (repeat' split) <;> simp

@[simp] theorem enterLocal_frame_dram :
    ∀ x0 s, (enterLocal x0 s).dram = s.dram := by
  intros; unfold enterLocal; (repeat' split) <;> simp

@[simp] theorem enterLocal_frame_ws :
    ∀ x0 s, (enterLocal x0 s).ws = s.ws := by
  intros; unfold enterLocal; (repeat' split) <;> simp

@[simp] theorem originateAll_frame :
    ∀ x0 s, (originateAll x0 s).pending = s.pending ∧ (originateAll x0 s).time = s.time ∧ (originateAll x0 s).boxDie = s.boxDie ∧ (originateAll x0 s).fuses = s.fuses ∧ (originateAll x0 s).dram = s.dram ∧ (originateAll x0 s).ws = s.ws := by
  intros; simp [originateAll]

@[simp] theorem originate_frame :
    ∀ x0 x1 x2 s, (originate x0 x1 x2 s).pending = s.pending ∧ (originate x0 x1 x2 s).time = s.time ∧ (originate x0 x1 x2 s).boxDie = s.boxDie ∧ (originate x0 x1 x2 s).fuses = s.fuses ∧ (originate x0 x1 x2 s).dram = s.dram ∧ (originate x0 x1 x2 s).ws = s.ws := by
  intros; simp [originate]

@[simp] theorem serveLocal_frame :
    ∀ x0 s, (serveLocal x0 s).pending = s.pending ∧ (serveLocal x0 s).time = s.time ∧ (serveLocal x0 s).boxDie = s.boxDie ∧ (serveLocal x0 s).fuses = s.fuses ∧ (serveLocal x0 s).dram = s.dram ∧ (serveLocal x0 s).ws = s.ws := by
  intros; fun_induction serveLocal <;> simp_all

@[simp] theorem mirror_frame :
    ∀ x0 x1 x2 x3 s, (mirror x0 x1 x2 x3 s).pending = s.pending ∧ (mirror x0 x1 x2 x3 s).time = s.time ∧ (mirror x0 x1 x2 x3 s).boxDie = s.boxDie ∧ (mirror x0 x1 x2 x3 s).fuses = s.fuses ∧ (mirror x0 x1 x2 x3 s).dram = s.dram ∧ (mirror x0 x1 x2 x3 s).ws = s.ws := by
  intros; simp [mirror]

@[simp] theorem pushOne_frame :
    ∀ x0 s, (pushOne x0 s).pending = s.pending ∧ (pushOne x0 s).time = s.time ∧ (pushOne x0 s).boxDie = s.boxDie ∧ (pushOne x0 s).fuses = s.fuses ∧ (pushOne x0 s).dram = s.dram ∧ (pushOne x0 s).ws = s.ws := by
  intros; unfold pushOne; (repeat' split) <;> simp

@[simp] theorem pushOut_frame :
    ∀ x0 x1 x2 s, (pushOut x0 x1 x2 s).pending = s.pending ∧ (pushOut x0 x1 x2 s).time = s.time ∧ (pushOut x0 x1 x2 s).boxDie = s.boxDie ∧ (pushOut x0 x1 x2 s).fuses = s.fuses ∧ (pushOut x0 x1 x2 s).dram = s.dram ∧ (pushOut x0 x1 x2 s).ws = s.ws := by
  intros; fun_induction pushOut <;> simp_all

theorem admitLossy_frame :
    ∀ x0 x1 s t, admitLossy x0 x1 s = some t → (t).pending = s.pending ∧ (t).time = s.time ∧ (t).boxDie = s.boxDie ∧ (t).fuses = s.fuses ∧ (t).dram = s.dram ∧ (t).ws = s.ws := by
  intros; rename_i h; unfold admitLossy at h; dsimp only at h; (repeat' split at h) <;> (first | (simp only [Option.some.injEq] at h; subst h; simp) | simp at h)

@[simp] theorem countDropped_frame :
    ∀ x0 s, (countDropped x0 s).pending = s.pending ∧ (countDropped x0 s).time = s.time ∧ (countDropped x0 s).boxDie = s.boxDie ∧ (countDropped x0 s).fuses = s.fuses ∧ (countDropped x0 s).dram = s.dram ∧ (countDropped x0 s).ws = s.ws := by
  intros; simp [countDropped]

@[simp] theorem linkSticky_frame :
    ∀ x0 x1 s, (linkSticky x0 x1 s).pending = s.pending ∧ (linkSticky x0 x1 s).time = s.time ∧ (linkSticky x0 x1 s).boxDie = s.boxDie ∧ (linkSticky x0 x1 s).fuses = s.fuses ∧ (linkSticky x0 x1 s).dram = s.dram ∧ (linkSticky x0 x1 s).ws = s.ws := by
  intros; simp [linkSticky]

@[simp] theorem resolveArrival_frame :
    ∀ x0 x1 s, ((resolveArrival x0 x1 s).2).pending = s.pending ∧ ((resolveArrival x0 x1 s).2).time = s.time ∧ ((resolveArrival x0 x1 s).2).boxDie = s.boxDie ∧ ((resolveArrival x0 x1 s).2).fuses = s.fuses ∧ ((resolveArrival x0 x1 s).2).dram = s.dram ∧ ((resolveArrival x0 x1 s).2).ws = s.ws := by
  intros; unfold resolveArrival; split <;> simp

@[simp] theorem admitTo_frame :
    ∀ x0 x1 x2 s, (admitTo x0 x1 x2 s).pending = s.pending ∧ (admitTo x0 x1 x2 s).time = s.time ∧ (admitTo x0 x1 x2 s).boxDie = s.boxDie ∧ (admitTo x0 x1 x2 s).fuses = s.fuses ∧ (admitTo x0 x1 x2 s).dram = s.dram ∧ (admitTo x0 x1 x2 s).ws = s.ws := by
  intros; unfold admitTo; dsimp only; split <;> (try have hA := admitLossy_frame _ _ _ _ (by assumption)) <;> simp_all

@[simp] theorem letIn_frame :
    ∀ x0 x1 s, (letIn x0 x1 s).pending = s.pending ∧ (letIn x0 x1 s).time = s.time ∧ (letIn x0 x1 s).boxDie = s.boxDie ∧ (letIn x0 x1 s).fuses = s.fuses ∧ (letIn x0 x1 s).dram = s.dram ∧ (letIn x0 x1 s).ws = s.ws := by
  intros; simp only [letIn]; (repeat' split) <;> simp

@[simp] theorem routeAccepted_frame :
    ∀ x0 x1 x2 s, (routeAccepted x0 x1 x2 s).pending = s.pending ∧ (routeAccepted x0 x1 x2 s).time = s.time ∧ (routeAccepted x0 x1 x2 s).boxDie = s.boxDie ∧ (routeAccepted x0 x1 x2 s).fuses = s.fuses ∧ (routeAccepted x0 x1 x2 s).dram = s.dram ∧ (routeAccepted x0 x1 x2 s).ws = s.ws := by
  intros; unfold routeAccepted; (repeat' split) <;> simp

@[simp] theorem takeHanded_frame :
    ∀ x0 x1 s, (takeHanded x0 x1 s).pending = s.pending ∧ (takeHanded x0 x1 s).time = s.time ∧ (takeHanded x0 x1 s).boxDie = s.boxDie ∧ (takeHanded x0 x1 s).fuses = s.fuses ∧ (takeHanded x0 x1 s).dram = s.dram ∧ (takeHanded x0 x1 s).ws = s.ws := by
  intros; unfold takeHanded; (repeat' split) <;> simp

/-! ### CueOps -/

@[simp] theorem modHStep_frame :
    ∀ x0 x1 x2 s, (modHStep x0 x1 x2 s).pending = s.pending ∧ (modHStep x0 x1 x2 s).time = s.time ∧ (modHStep x0 x1 x2 s).boxDie = s.boxDie ∧ (modHStep x0 x1 x2 s).fuses = s.fuses ∧ (modHStep x0 x1 x2 s).dram = s.dram ∧ (modHStep x0 x1 x2 s).ws = s.ws := by
  intros; simp [modHStep]

@[simp] theorem modHead_frame :
    ∀ x0 x1 s, (modHead x0 x1 s).pending = s.pending ∧ (modHead x0 x1 s).time = s.time ∧ (modHead x0 x1 s).boxDie = s.boxDie ∧ (modHead x0 x1 s).fuses = s.fuses ∧ (modHead x0 x1 s).dram = s.dram ∧ (modHead x0 x1 s).ws = s.ws := by
  intros; simp [modHead]

@[simp] theorem noteFirst_frame :
    ∀ x0 x1 s, (noteFirst x0 x1 s).pending = s.pending ∧ (noteFirst x0 x1 s).time = s.time ∧ (noteFirst x0 x1 s).boxDie = s.boxDie ∧ (noteFirst x0 x1 s).fuses = s.fuses ∧ (noteFirst x0 x1 s).dram = s.dram ∧ (noteFirst x0 x1 s).ws = s.ws := by
  intros; simp [noteFirst]

@[simp] theorem noteFlags_frame :
    ∀ x0 x1 x2 s, (noteFlags x0 x1 x2 s).pending = s.pending ∧ (noteFlags x0 x1 x2 s).time = s.time ∧ (noteFlags x0 x1 x2 s).boxDie = s.boxDie ∧ (noteFlags x0 x1 x2 s).fuses = s.fuses ∧ (noteFlags x0 x1 x2 s).dram = s.dram ∧ (noteFlags x0 x1 x2 s).ws = s.ws := by
  intros; simp [noteFlags]

@[simp] theorem modMember_frame :
    ∀ x0 x1 x2 s, (modMember x0 x1 x2 s).pending = s.pending ∧ (modMember x0 x1 x2 s).time = s.time ∧ (modMember x0 x1 x2 s).boxDie = s.boxDie ∧ (modMember x0 x1 x2 s).fuses = s.fuses ∧ (modMember x0 x1 x2 s).dram = s.dram ∧ (modMember x0 x1 x2 s).ws = s.ws := by
  intros; simp [modMember]

@[simp] theorem sendAgain_frame :
    ∀ x0 x1 x2 s, (sendAgain x0 x1 x2 s).pending = s.pending ∧ (sendAgain x0 x1 x2 s).time = s.time ∧ (sendAgain x0 x1 x2 s).boxDie = s.boxDie ∧ (sendAgain x0 x1 x2 s).fuses = s.fuses ∧ (sendAgain x0 x1 x2 s).dram = s.dram ∧ (sendAgain x0 x1 x2 s).ws = s.ws := by
  intros; unfold sendAgain; (repeat' split) <;> simp

@[simp] theorem sendOn_frame_pending :
    ∀ x0 x1 x2 s, (sendOn x0 x1 x2 s).pending = s.pending := by
  intros; unfold sendOn; (repeat' split) <;> simp

@[simp] theorem sendOn_frame_time :
    ∀ x0 x1 x2 s, (sendOn x0 x1 x2 s).time = s.time := by
  intros; unfold sendOn; (repeat' split) <;> simp

@[simp] theorem sendOn_frame_boxDie :
    ∀ x0 x1 x2 s, (sendOn x0 x1 x2 s).boxDie = s.boxDie := by
  intros; unfold sendOn; (repeat' split) <;> simp

@[simp] theorem sendOn_frame_fuses :
    ∀ x0 x1 x2 s, (sendOn x0 x1 x2 s).fuses = s.fuses := by
  intros; unfold sendOn; (repeat' split) <;> simp

@[simp] theorem sendOn_frame_dram :
    ∀ x0 x1 x2 s, (sendOn x0 x1 x2 s).dram = s.dram := by
  intros; unfold sendOn; (repeat' split) <;> simp

@[simp] theorem sendOn_frame_ws :
    ∀ x0 x1 x2 s, (sendOn x0 x1 x2 s).ws = s.ws := by
  intros; unfold sendOn; (repeat' split) <;> simp

@[simp] theorem sendPartner_frame :
    ∀ x0 x1 x2 x3 s, (sendPartner x0 x1 x2 x3 s).pending = s.pending ∧ (sendPartner x0 x1 x2 x3 s).time = s.time ∧ (sendPartner x0 x1 x2 x3 s).boxDie = s.boxDie ∧ (sendPartner x0 x1 x2 x3 s).fuses = s.fuses ∧ (sendPartner x0 x1 x2 x3 s).dram = s.dram ∧ (sendPartner x0 x1 x2 x3 s).ws = s.ws := by
  intros; unfold sendPartner; (repeat' split) <;> simp

@[simp] theorem sendMember_frame :
    ∀ x0 x1 x2 x3 s, (sendMember x0 x1 x2 x3 s).pending = s.pending ∧ (sendMember x0 x1 x2 x3 s).time = s.time ∧ (sendMember x0 x1 x2 x3 s).boxDie = s.boxDie ∧ (sendMember x0 x1 x2 x3 s).fuses = s.fuses ∧ (sendMember x0 x1 x2 x3 s).dram = s.dram ∧ (sendMember x0 x1 x2 x3 s).ws = s.ws := by
  intros; unfold sendMember; (repeat' split) <;> simp

/-! ### CallOps -/

@[simp] theorem callFlags_frame :
    ∀ x0 s, (callFlags x0 s).pending = s.pending ∧ (callFlags x0 s).time = s.time ∧ (callFlags x0 s).boxDie = s.boxDie ∧ (callFlags x0 s).fuses = s.fuses ∧ (callFlags x0 s).dram = s.dram ∧ (callFlags x0 s).ws = s.ws := by
  intros; simp [callFlags]

@[simp] theorem callSticky_frame :
    ∀ x0 s, (callSticky x0 s).pending = s.pending ∧ (callSticky x0 s).time = s.time ∧ (callSticky x0 s).boxDie = s.boxDie ∧ (callSticky x0 s).fuses = s.fuses ∧ (callSticky x0 s).dram = s.dram ∧ (callSticky x0 s).ws = s.ws := by
  intros; simp [callSticky]

@[simp] theorem modCtx_frame :
    ∀ x0 x1 x2 s, (modCtx x0 x1 x2 s).pending = s.pending ∧ (modCtx x0 x1 x2 s).time = s.time ∧ (modCtx x0 x1 x2 s).boxDie = s.boxDie ∧ (modCtx x0 x1 x2 s).fuses = s.fuses ∧ (modCtx x0 x1 x2 s).dram = s.dram ∧ (modCtx x0 x1 x2 s).ws = s.ws := by
  intros; simp [modCtx]

@[simp] theorem armCtx_frame :
    ∀ x0 x1 s, (armCtx x0 x1 s).pending = s.pending ∧ (armCtx x0 x1 s).time = s.time ∧ (armCtx x0 x1 s).boxDie = s.boxDie ∧ (armCtx x0 x1 s).fuses = s.fuses ∧ (armCtx x0 x1 s).dram = s.dram ∧ (armCtx x0 x1 s).ws = s.ws := by
  intros; simp [armCtx]

@[simp] theorem storeOperand_frame :
    ∀ x0 x1 x2 x3 s, (storeOperand x0 x1 x2 x3 s).pending = s.pending ∧ (storeOperand x0 x1 x2 x3 s).time = s.time ∧ (storeOperand x0 x1 x2 x3 s).boxDie = s.boxDie ∧ (storeOperand x0 x1 x2 x3 s).fuses = s.fuses ∧ (storeOperand x0 x1 x2 x3 s).dram = s.dram ∧ (storeOperand x0 x1 x2 x3 s).ws = s.ws := by
  intros; simp [storeOperand]

@[simp] theorem sendDown_frame :
    ∀ x0 x1 x2 x3 s, (sendDown x0 x1 x2 x3 s).pending = s.pending ∧ (sendDown x0 x1 x2 x3 s).time = s.time ∧ (sendDown x0 x1 x2 x3 s).boxDie = s.boxDie ∧ (sendDown x0 x1 x2 x3 s).fuses = s.fuses ∧ (sendDown x0 x1 x2 x3 s).dram = s.dram ∧ (sendDown x0 x1 x2 x3 s).ws = s.ws := by
  intros; simp [sendDown]

@[simp] theorem tryComplete_frame :
    ∀ x0 x1 s, (tryComplete x0 x1 s).pending = s.pending ∧ (tryComplete x0 x1 s).time = s.time ∧ (tryComplete x0 x1 s).boxDie = s.boxDie ∧ (tryComplete x0 x1 s).fuses = s.fuses ∧ (tryComplete x0 x1 s).dram = s.dram ∧ (tryComplete x0 x1 s).ws = s.ws := by
  intros; unfold tryComplete; (repeat' split) <;> simp

@[simp] theorem retryCalls_frame :
    ∀ s, (retryCalls s).pending = s.pending ∧ (retryCalls s).time = s.time ∧ (retryCalls s).boxDie = s.boxDie ∧ (retryCalls s).fuses = s.fuses ∧ (retryCalls s).dram = s.dram ∧ (retryCalls s).ws = s.ws := by
  intros; simp [retryCalls]

@[simp] theorem callArrive_frame :
    ∀ x0 x1 s, (callArrive x0 x1 s).pending = s.pending ∧ (callArrive x0 x1 s).time = s.time ∧ (callArrive x0 x1 s).boxDie = s.boxDie ∧ (callArrive x0 x1 s).fuses = s.fuses ∧ (callArrive x0 x1 s).dram = s.dram ∧ (callArrive x0 x1 s).ws = s.ws := by
  intros; simp only [callArrive]; (repeat' split) <;> simp

@[simp] theorem retryHeld_frame :
    ∀ s, (retryHeld s).pending = s.pending ∧ (retryHeld s).time = s.time ∧ (retryHeld s).boxDie = s.boxDie ∧ (retryHeld s).fuses = s.fuses ∧ (retryHeld s).dram = s.dram ∧ (retryHeld s).ws = s.ws := by
  intros; simp [retryHeld]

@[simp] theorem modSum_frame :
    ∀ x0 x1 x2 s, (modSum x0 x1 x2 s).pending = s.pending ∧ (modSum x0 x1 x2 s).time = s.time ∧ (modSum x0 x1 x2 s).boxDie = s.boxDie ∧ (modSum x0 x1 x2 s).fuses = s.fuses ∧ (modSum x0 x1 x2 s).dram = s.dram ∧ (modSum x0 x1 x2 s).ws = s.ws := by
  intros; simp [modSum]

@[simp] theorem sumFlags_frame :
    ∀ x0 x1 x2 s, (sumFlags x0 x1 x2 s).pending = s.pending ∧ (sumFlags x0 x1 x2 s).time = s.time ∧ (sumFlags x0 x1 x2 s).boxDie = s.boxDie ∧ (sumFlags x0 x1 x2 s).fuses = s.fuses ∧ (sumFlags x0 x1 x2 s).dram = s.dram ∧ (sumFlags x0 x1 x2 s).ws = s.ws := by
  intros; simp [sumFlags]

@[simp] theorem foldSumsq_frame :
    ∀ x0 x1 x2 s, (foldSumsq x0 x1 x2 s).pending = s.pending ∧ (foldSumsq x0 x1 x2 s).time = s.time ∧ (foldSumsq x0 x1 x2 s).boxDie = s.boxDie ∧ (foldSumsq x0 x1 x2 s).fuses = s.fuses ∧ (foldSumsq x0 x1 x2 s).dram = s.dram ∧ (foldSumsq x0 x1 x2 s).ws = s.ws := by
  intros; fun_induction foldSumsq <;> simp_all

@[simp] theorem feedSumsq_frame :
    ∀ x0 x1 x2 x3 x4 s, (feedSumsq x0 x1 x2 x3 x4 s).pending = s.pending ∧ (feedSumsq x0 x1 x2 x3 x4 s).time = s.time ∧ (feedSumsq x0 x1 x2 x3 x4 s).boxDie = s.boxDie ∧ (feedSumsq x0 x1 x2 x3 x4 s).fuses = s.fuses ∧ (feedSumsq x0 x1 x2 x3 x4 s).dram = s.dram ∧ (feedSumsq x0 x1 x2 x3 x4 s).ws = s.ws := by
  intros; unfold feedSumsq; (repeat' split) <;> simp

@[simp] theorem retrySums_frame :
    ∀ s, (retrySums s).pending = s.pending ∧ (retrySums s).time = s.time ∧ (retrySums s).boxDie = s.boxDie ∧ (retrySums s).fuses = s.fuses ∧ (retrySums s).dram = s.dram ∧ (retrySums s).ws = s.ws := by
  intros; simp [retrySums]

@[simp] theorem arriveOwn_frame :
    ∀ x0 x1 s, (arriveOwn x0 x1 s).pending = s.pending ∧ (arriveOwn x0 x1 s).time = s.time ∧ (arriveOwn x0 x1 s).boxDie = s.boxDie ∧ (arriveOwn x0 x1 s).fuses = s.fuses ∧ (arriveOwn x0 x1 s).dram = s.dram ∧ (arriveOwn x0 x1 s).ws = s.ws := by
  intros; unfold arriveOwn; (repeat' split) <;> simp

@[simp] theorem clearMisses_frame :
    ∀ x0 s, (clearMisses x0 s).pending = s.pending ∧ (clearMisses x0 s).time = s.time ∧ (clearMisses x0 s).boxDie = s.boxDie ∧ (clearMisses x0 s).fuses = s.fuses ∧ (clearMisses x0 s).dram = s.dram ∧ (clearMisses x0 s).ws = s.ws := by
  intros; unfold clearMisses; (repeat' split) <;> simp

@[simp] theorem finishInst_frame :
    ∀ x0 x1 s, (finishInst x0 x1 s).pending = s.pending ∧ (finishInst x0 x1 s).time = s.time ∧ (finishInst x0 x1 s).boxDie = s.boxDie ∧ (finishInst x0 x1 s).fuses = s.fuses ∧ (finishInst x0 x1 s).dram = s.dram ∧ (finishInst x0 x1 s).ws = s.ws := by
  intros; simp only [finishInst]; (repeat' split) <;> simp

@[simp] theorem endStep_frame :
    ∀ x0 s, (endStep x0 s).pending = s.pending ∧ (endStep x0 s).time = s.time ∧ (endStep x0 s).boxDie = s.boxDie ∧ (endStep x0 s).fuses = s.fuses ∧ (endStep x0 s).dram = s.dram ∧ (endStep x0 s).ws = s.ws := by
  intros; unfold endStep; (repeat' split) <;> simp

@[simp] theorem settle_frame :
    ∀ s, (settle s).pending = s.pending ∧ (settle s).time = s.time ∧ (settle s).boxDie = s.boxDie ∧ (settle s).fuses = s.fuses ∧ (settle s).dram = s.dram ∧ (settle s).ws = s.ws := by
  intros; simp [settle]

/-! ### OutrOps -/

@[simp] theorem outrSticky_frame :
    ∀ x0 s, (outrSticky x0 s).pending = s.pending ∧ (outrSticky x0 s).time = s.time ∧ (outrSticky x0 s).boxDie = s.boxDie ∧ (outrSticky x0 s).fuses = s.fuses ∧ (outrSticky x0 s).dram = s.dram ∧ (outrSticky x0 s).ws = s.ws := by
  intros; simp [outrSticky]

@[simp] theorem abandon_frame :
    ∀ x0 s, (abandon x0 s).pending = s.pending ∧ (abandon x0 s).time = s.time ∧ (abandon x0 s).boxDie = s.boxDie ∧ (abandon x0 s).fuses = s.fuses ∧ (abandon x0 s).dram = s.dram ∧ (abandon x0 s).ws = s.ws := by
  intros; simp [abandon]

@[simp] theorem takeSamples_frame :
    ∀ x0 x1 x2 s, (takeSamples x0 x1 x2 s).pending = s.pending ∧ (takeSamples x0 x1 x2 s).time = s.time ∧ (takeSamples x0 x1 x2 s).boxDie = s.boxDie ∧ (takeSamples x0 x1 x2 s).fuses = s.fuses ∧ (takeSamples x0 x1 x2 s).dram = s.dram ∧ (takeSamples x0 x1 x2 s).ws = s.ws := by
  intros; unfold takeSamples; (repeat' split) <;> simp

@[simp] theorem modSamples_frame :
    ∀ x0 x1 x2 x3 s, (modSamples x0 x1 x2 x3 s).pending = s.pending ∧ (modSamples x0 x1 x2 x3 s).time = s.time ∧ (modSamples x0 x1 x2 x3 s).boxDie = s.boxDie ∧ (modSamples x0 x1 x2 x3 s).fuses = s.fuses ∧ (modSamples x0 x1 x2 x3 s).dram = s.dram ∧ (modSamples x0 x1 x2 x3 s).ws = s.ws := by
  intros; simp [modSamples]

@[simp] theorem dropSamples_frame :
    ∀ x0 x1 x2 s, (dropSamples x0 x1 x2 s).pending = s.pending ∧ (dropSamples x0 x1 x2 s).time = s.time ∧ (dropSamples x0 x1 x2 s).boxDie = s.boxDie ∧ (dropSamples x0 x1 x2 s).fuses = s.fuses ∧ (dropSamples x0 x1 x2 s).dram = s.dram ∧ (dropSamples x0 x1 x2 s).ws = s.ws := by
  intros; simp [dropSamples]

@[simp] theorem snoopOne_frame :
    ∀ x0 s x2, (snoopOne x0 s x2).pending = s.pending ∧ (snoopOne x0 s x2).time = s.time ∧ (snoopOne x0 s x2).boxDie = s.boxDie ∧ (snoopOne x0 s x2).fuses = s.fuses ∧ (snoopOne x0 s x2).dram = s.dram ∧ (snoopOne x0 s x2).ws = s.ws := by
  intros; simp [snoopOne]

@[simp] theorem snoop_frame :
    ∀ x0 x1 x2 x3 s, (snoop x0 x1 x2 x3 s).pending = s.pending ∧ (snoop x0 x1 x2 x3 s).time = s.time ∧ (snoop x0 x1 x2 x3 s).boxDie = s.boxDie ∧ (snoop x0 x1 x2 x3 s).fuses = s.fuses ∧ (snoop x0 x1 x2 x3 s).dram = s.dram ∧ (snoop x0 x1 x2 x3 s).ws = s.ws := by
  intros; simp [snoop]

@[simp] theorem shadowAdd_frame :
    ∀ x0 x1 s, (shadowAdd x0 x1 s).pending = s.pending ∧ (shadowAdd x0 x1 s).time = s.time ∧ (shadowAdd x0 x1 s).boxDie = s.boxDie ∧ (shadowAdd x0 x1 s).fuses = s.fuses ∧ (shadowAdd x0 x1 s).dram = s.dram ∧ (shadowAdd x0 x1 s).ws = s.ws := by
  intros; simp [shadowAdd]

@[simp] theorem samplesFire_frame :
    ∀ x0 s, (samplesFire x0 s).pending = s.pending ∧ (samplesFire x0 s).time = s.time ∧ (samplesFire x0 s).boxDie = s.boxDie ∧ (samplesFire x0 s).fuses = s.fuses ∧ (samplesFire x0 s).dram = s.dram ∧ (samplesFire x0 s).ws = s.ws := by
  intros; simp [samplesFire]

@[simp] theorem outrEvent_frame :
    ∀ x0 x1 x2 s, (outrEvent x0 x1 x2 s).pending = s.pending ∧ (outrEvent x0 x1 x2 s).time = s.time ∧ (outrEvent x0 x1 x2 s).boxDie = s.boxDie ∧ (outrEvent x0 x1 x2 s).fuses = s.fuses ∧ (outrEvent x0 x1 x2 s).dram = s.dram ∧ (outrEvent x0 x1 x2 s).ws = s.ws := by
  intros; simp [outrEvent]

@[simp] theorem modNote_frame :
    ∀ x0 x1 x2 s, (modNote x0 x1 x2 s).pending = s.pending ∧ (modNote x0 x1 x2 s).time = s.time ∧ (modNote x0 x1 x2 s).boxDie = s.boxDie ∧ (modNote x0 x1 x2 s).fuses = s.fuses ∧ (modNote x0 x1 x2 s).dram = s.dram ∧ (modNote x0 x1 x2 s).ws = s.ws := by
  intros; simp [modNote]

@[simp] theorem noteOutr_frame :
    ∀ x0 x1 x2 s, (noteOutr x0 x1 x2 s).pending = s.pending ∧ (noteOutr x0 x1 x2 s).time = s.time ∧ (noteOutr x0 x1 x2 s).boxDie = s.boxDie ∧ (noteOutr x0 x1 x2 s).fuses = s.fuses ∧ (noteOutr x0 x1 x2 s).dram = s.dram ∧ (noteOutr x0 x1 x2 s).ws = s.ws := by
  intros; simp only [noteOutr]; (repeat' split) <;> simp

@[simp] theorem endTolerance_frame :
    ∀ x0 s, (endTolerance x0 s).pending = s.pending ∧ (endTolerance x0 s).time = s.time ∧ (endTolerance x0 s).boxDie = s.boxDie ∧ (endTolerance x0 s).fuses = s.fuses ∧ (endTolerance x0 s).dram = s.dram ∧ (endTolerance x0 s).ws = s.ws := by
  intros; unfold endTolerance; (repeat' split) <;> simp

@[simp] theorem trimSamples_frame :
    ∀ x0 x1 x2 s, (trimSamples x0 x1 x2 s).pending = s.pending ∧ (trimSamples x0 x1 x2 s).time = s.time ∧ (trimSamples x0 x1 x2 s).boxDie = s.boxDie ∧ (trimSamples x0 x1 x2 s).fuses = s.fuses ∧ (trimSamples x0 x1 x2 s).dram = s.dram ∧ (trimSamples x0 x1 x2 s).ws = s.ws := by
  intros; simp [trimSamples]

@[simp] theorem countHead_frame :
    ∀ x0 x1 x2 x3 x4 s, (countHead x0 x1 x2 x3 x4 s).pending = s.pending ∧ (countHead x0 x1 x2 x3 x4 s).time = s.time ∧ (countHead x0 x1 x2 x3 x4 s).boxDie = s.boxDie ∧ (countHead x0 x1 x2 x3 x4 s).fuses = s.fuses ∧ (countHead x0 x1 x2 x3 x4 s).dram = s.dram ∧ (countHead x0 x1 x2 x3 x4 s).ws = s.ws := by
  intros; unfold countHead; (repeat' split) <;> simp

end Sys2Proof.Machine
end

