-- ==== Sys2Proof/Laws/FrameHarness.lean ====
section
/-! SUPPORT. The frame of the harness, the groom, the run and the casts: the queue, the clock, the box office die, the fuses and the two memories are as before, and
where a memory may change it keeps its canonical form. -/

set_option linter.unusedSimpArgs false

namespace Sys2Proof.Machine

/-! ### HarnOps -/

@[simp] theorem harnSticky_frame :
    ∀ x0 s, (harnSticky x0 s).pending = s.pending ∧ (harnSticky x0 s).time = s.time ∧ (harnSticky x0 s).boxDie = s.boxDie ∧ (harnSticky x0 s).fuses = s.fuses ∧ (harnSticky x0 s).dram = s.dram ∧ (harnSticky x0 s).ws = s.ws := by
  intros; simp [harnSticky]

@[simp] theorem countMember_frame :
    ∀ x0 x1 s, (countMember x0 x1 s).pending = s.pending ∧ (countMember x0 x1 s).time = s.time ∧ (countMember x0 x1 s).boxDie = s.boxDie ∧ (countMember x0 x1 s).fuses = s.fuses ∧ (countMember x0 x1 s).dram = s.dram ∧ (countMember x0 x1 s).ws = s.ws := by
  intros; unfold countMember; (repeat' split) <;> simp

@[simp] theorem writeScales_frame_pending :
    ∀ x0 x1 x2 x3 s, (writeScales x0 x1 x2 x3 s).pending = s.pending := by
  intros; unfold writeScales; (repeat' split) <;> simp

@[simp] theorem writeScales_frame_time :
    ∀ x0 x1 x2 x3 s, (writeScales x0 x1 x2 x3 s).time = s.time := by
  intros; unfold writeScales; (repeat' split) <;> simp

@[simp] theorem writeScales_frame_boxDie :
    ∀ x0 x1 x2 x3 s, (writeScales x0 x1 x2 x3 s).boxDie = s.boxDie := by
  intros; unfold writeScales; (repeat' split) <;> simp

@[simp] theorem writeScales_frame_fuses :
    ∀ x0 x1 x2 x3 s, (writeScales x0 x1 x2 x3 s).fuses = s.fuses := by
  intros; unfold writeScales; (repeat' split) <;> simp

@[simp] theorem writeScales_wf_dram :
    ∀ x0 x1 x2 x3 s, Memory.wf s.dram = true → Memory.wf (writeScales x0 x1 x2 x3 s).dram = true := by
  intros; unfold writeScales; (repeat' split) <;> simp +contextual [*]

@[simp] theorem writeScales_frame_ws :
    ∀ x0 x1 x2 x3 s, (writeScales x0 x1 x2 x3 s).ws = s.ws := by
  intros; unfold writeScales; (repeat' split) <;> simp

@[simp] theorem advertise_frame :
    ∀ x0 s, (advertise x0 s).pending = s.pending ∧ (advertise x0 s).time = s.time ∧ (advertise x0 s).boxDie = s.boxDie ∧ (advertise x0 s).fuses = s.fuses ∧ (advertise x0 s).dram = s.dram ∧ (advertise x0 s).ws = s.ws := by
  intros; unfold advertise; (repeat' split) <;> simp

@[simp] theorem fillEntry_frame :
    ∀ x0 x1 s, (fillEntry x0 x1 s).pending = s.pending ∧ (fillEntry x0 x1 s).time = s.time ∧ (fillEntry x0 x1 s).boxDie = s.boxDie ∧ (fillEntry x0 x1 s).fuses = s.fuses ∧ (fillEntry x0 x1 s).dram = s.dram ∧ (fillEntry x0 x1 s).ws = s.ws := by
  intros; unfold fillEntry; (repeat' split) <;> simp

@[simp] theorem modSlot_frame :
    ∀ x0 x1 x2 s, (modSlot x0 x1 x2 s).pending = s.pending ∧ (modSlot x0 x1 x2 s).time = s.time ∧ (modSlot x0 x1 x2 s).boxDie = s.boxDie ∧ (modSlot x0 x1 x2 s).fuses = s.fuses ∧ (modSlot x0 x1 x2 s).dram = s.dram ∧ (modSlot x0 x1 x2 s).ws = s.ws := by
  intros; simp [modSlot]

@[simp] theorem dropSlot_frame :
    ∀ x0 x1 s, (dropSlot x0 x1 s).pending = s.pending ∧ (dropSlot x0 x1 s).time = s.time ∧ (dropSlot x0 x1 s).boxDie = s.boxDie ∧ (dropSlot x0 x1 s).fuses = s.fuses ∧ (dropSlot x0 x1 s).dram = s.dram ∧ (dropSlot x0 x1 s).ws = s.ws := by
  intros; simp [dropSlot]

@[simp] theorem armSlot_frame :
    ∀ x0 x1 s, (armSlot x0 x1 s).pending = s.pending ∧ (armSlot x0 x1 s).time = s.time ∧ (armSlot x0 x1 s).boxDie = s.boxDie ∧ (armSlot x0 x1 s).fuses = s.fuses ∧ (armSlot x0 x1 s).dram = s.dram ∧ (armSlot x0 x1 s).ws = s.ws := by
  intros; unfold armSlot; (repeat' split) <;> simp

@[simp] theorem keepSlot_frame_pending :
    ∀ x0 s, (keepSlot x0 s).pending = s.pending := by
  intros; unfold keepSlot; (repeat' split) <;> simp

@[simp] theorem keepSlot_frame_time :
    ∀ x0 s, (keepSlot x0 s).time = s.time := by
  intros; unfold keepSlot; (repeat' split) <;> simp

@[simp] theorem keepSlot_frame_boxDie :
    ∀ x0 s, (keepSlot x0 s).boxDie = s.boxDie := by
  intros; unfold keepSlot; (repeat' split) <;> simp

@[simp] theorem keepSlot_frame_fuses :
    ∀ x0 s, (keepSlot x0 s).fuses = s.fuses := by
  intros; unfold keepSlot; (repeat' split) <;> simp

@[simp] theorem keepSlot_wf_dram :
    ∀ x0 s, Memory.wf s.dram = true → Memory.wf (keepSlot x0 s).dram = true := by
  intros; unfold keepSlot; (repeat' split) <;> simp +contextual [*]

@[simp] theorem keepSlot_frame_ws :
    ∀ x0 s, (keepSlot x0 s).ws = s.ws := by
  intros; unfold keepSlot; (repeat' split) <;> simp

@[simp] theorem sendPartial_frame :
    ∀ x0 x1 s, (sendPartial x0 x1 s).pending = s.pending ∧ (sendPartial x0 x1 s).time = s.time ∧ (sendPartial x0 x1 s).boxDie = s.boxDie ∧ (sendPartial x0 x1 s).fuses = s.fuses ∧ (sendPartial x0 x1 s).dram = s.dram ∧ (sendPartial x0 x1 s).ws = s.ws := by
  intros; unfold sendPartial; (repeat' split) <;> simp

@[simp] theorem sendForward_frame :
    ∀ x0 x1 x2 s, (sendForward x0 x1 x2 s).pending = s.pending ∧ (sendForward x0 x1 x2 s).time = s.time ∧ (sendForward x0 x1 x2 s).boxDie = s.boxDie ∧ (sendForward x0 x1 x2 s).fuses = s.fuses ∧ (sendForward x0 x1 x2 s).dram = s.dram ∧ (sendForward x0 x1 x2 s).ws = s.ws := by
  intros; unfold sendForward; (repeat' split) <;> simp

@[simp] theorem fireSlot_frame :
    ∀ x0 x1 s, (fireSlot x0 x1 s).pending = s.pending ∧ (fireSlot x0 x1 s).time = s.time ∧ (fireSlot x0 x1 s).boxDie = s.boxDie ∧ (fireSlot x0 x1 s).fuses = s.fuses ∧ (fireSlot x0 x1 s).dram = s.dram ∧ (fireSlot x0 x1 s).ws = s.ws := by
  intros; unfold fireSlot; (repeat' split) <;> simp

@[simp] theorem testFire_frame :
    ∀ x0 x1 s, (testFire x0 x1 s).pending = s.pending ∧ (testFire x0 x1 s).time = s.time ∧ (testFire x0 x1 s).boxDie = s.boxDie ∧ (testFire x0 x1 s).fuses = s.fuses ∧ (testFire x0 x1 s).dram = s.dram ∧ (testFire x0 x1 s).ws = s.ws := by
  intros; unfold testFire; (repeat' split) <;> simp

theorem moveOne_frame :
    ∀ s t, moveOne s = some t → (t).pending = s.pending ∧ (t).time = s.time ∧ (t).boxDie = s.boxDie ∧ (t).fuses = s.fuses ∧ (t).dram = s.dram ∧ (t).ws = s.ws := by
  intros; rename_i h; unfold moveOne at h; dsimp only at h; (repeat' split at h) <;> (first | (simp only [Option.some.injEq] at h; subst h; simp) | simp at h)

@[simp] theorem moveUpTo_frame : ∀ n s, (moveUpTo n s).pending = s.pending ∧ (moveUpTo n s).time = s.time ∧ (moveUpTo n s).boxDie = s.boxDie ∧ (moveUpTo n s).fuses = s.fuses ∧ (moveUpTo n s).dram = s.dram ∧ (moveUpTo n s).ws = s.ws := by
  intro n; induction n with
  | zero => intros; simp [moveUpTo]
  | succ n ih =>
    intro s; simp only [moveUpTo]; split
    · have h := moveOne_frame _ _ (by assumption); simp [ih, h]
    · simp

@[simp] theorem moveSlots_frame :
    ∀ s, (moveSlots s).pending = s.pending ∧ (moveSlots s).time = s.time ∧ (moveSlots s).boxDie = s.boxDie ∧ (moveSlots s).fuses = s.fuses ∧ (moveSlots s).dram = s.dram ∧ (moveSlots s).ws = s.ws := by
  intros; unfold moveSlots; (repeat' split) <;> simp

@[simp] theorem noteLate_frame :
    ∀ x0 x1 s, (noteLate x0 x1 s).pending = s.pending ∧ (noteLate x0 x1 s).time = s.time ∧ (noteLate x0 x1 s).boxDie = s.boxDie ∧ (noteLate x0 x1 s).fuses = s.fuses ∧ (noteLate x0 x1 s).dram = s.dram ∧ (noteLate x0 x1 s).ws = s.ws := by
  intros; unfold noteLate; (repeat' split) <;> simp

@[simp] theorem noteAdds_frame :
    ∀ x0 x1 x2 s, (noteAdds x0 x1 x2 s).pending = s.pending ∧ (noteAdds x0 x1 x2 s).time = s.time ∧ (noteAdds x0 x1 x2 s).boxDie = s.boxDie ∧ (noteAdds x0 x1 x2 s).fuses = s.fuses ∧ (noteAdds x0 x1 x2 s).dram = s.dram ∧ (noteAdds x0 x1 x2 s).ws = s.ws := by
  intros; simp only [noteAdds]; (repeat' split) <;> simp

@[simp] theorem takeContr_frame_pending :
    ∀ x0 x1 x2 x3 s, (takeContr x0 x1 x2 x3 s).pending = s.pending := by
  intros; unfold takeContr; (repeat' split) <;> simp

@[simp] theorem takeContr_frame_time :
    ∀ x0 x1 x2 x3 s, (takeContr x0 x1 x2 x3 s).time = s.time := by
  intros; unfold takeContr; (repeat' split) <;> simp

@[simp] theorem takeContr_frame_boxDie :
    ∀ x0 x1 x2 x3 s, (takeContr x0 x1 x2 x3 s).boxDie = s.boxDie := by
  intros; unfold takeContr; (repeat' split) <;> simp

@[simp] theorem takeContr_frame_fuses :
    ∀ x0 x1 x2 x3 s, (takeContr x0 x1 x2 x3 s).fuses = s.fuses := by
  intros; unfold takeContr; (repeat' split) <;> simp

@[simp] theorem takeContr_wf_dram :
    ∀ x0 x1 x2 x3 s, Memory.wf s.dram = true → Memory.wf (takeContr x0 x1 x2 x3 s).dram = true := by
  intros; unfold takeContr; (repeat' split) <;> simp +contextual [*]

@[simp] theorem takeContr_frame_ws :
    ∀ x0 x1 x2 x3 s, (takeContr x0 x1 x2 x3 s).ws = s.ws := by
  intros; unfold takeContr; (repeat' split) <;> simp

@[simp] theorem countDrop_frame :
    ∀ x0 x1 s, (countDrop x0 x1 s).pending = s.pending ∧ (countDrop x0 x1 s).time = s.time ∧ (countDrop x0 x1 s).boxDie = s.boxDie ∧ (countDrop x0 x1 s).fuses = s.fuses ∧ (countDrop x0 x1 s).dram = s.dram ∧ (countDrop x0 x1 s).ws = s.ws := by
  intros; simp [countDrop]

@[simp] theorem fenceSlot_frame_pending :
    ∀ x0 x1 s, (fenceSlot x0 x1 s).pending = s.pending := by
  intros; unfold fenceSlot; (repeat' split) <;> simp

@[simp] theorem fenceSlot_frame_time :
    ∀ x0 x1 s, (fenceSlot x0 x1 s).time = s.time := by
  intros; unfold fenceSlot; (repeat' split) <;> simp

@[simp] theorem fenceSlot_frame_boxDie :
    ∀ x0 x1 s, (fenceSlot x0 x1 s).boxDie = s.boxDie := by
  intros; unfold fenceSlot; (repeat' split) <;> simp

@[simp] theorem fenceSlot_frame_fuses :
    ∀ x0 x1 s, (fenceSlot x0 x1 s).fuses = s.fuses := by
  intros; unfold fenceSlot; (repeat' split) <;> simp

@[simp] theorem fenceSlot_wf_dram :
    ∀ x0 x1 s, Memory.wf s.dram = true → Memory.wf (fenceSlot x0 x1 s).dram = true := by
  intros; unfold fenceSlot; (repeat' split) <;> simp +contextual [*]

@[simp] theorem fenceSlot_wf_ws :
    ∀ x0 x1 s, Memory.wf s.ws = true → Memory.wf (fenceSlot x0 x1 s).ws = true := by
  intros; unfold fenceSlot; (repeat' split) <;> simp +contextual [*]

@[simp] theorem grmSticky_frame :
    ∀ x0 s, (grmSticky x0 s).pending = s.pending ∧ (grmSticky x0 s).time = s.time ∧ (grmSticky x0 s).boxDie = s.boxDie ∧ (grmSticky x0 s).fuses = s.fuses ∧ (grmSticky x0 s).dram = s.dram ∧ (grmSticky x0 s).ws = s.ws := by
  intros; simp [grmSticky]

@[simp] theorem loseAccess_frame_pending :
    ∀ x0 s, (loseAccess x0 s).pending = s.pending := by
  intros; unfold loseAccess; (repeat' split) <;> simp

@[simp] theorem loseAccess_frame_time :
    ∀ x0 s, (loseAccess x0 s).time = s.time := by
  intros; unfold loseAccess; (repeat' split) <;> simp

@[simp] theorem loseAccess_frame_boxDie :
    ∀ x0 s, (loseAccess x0 s).boxDie = s.boxDie := by
  intros; unfold loseAccess; (repeat' split) <;> simp

@[simp] theorem loseAccess_frame_fuses :
    ∀ x0 s, (loseAccess x0 s).fuses = s.fuses := by
  intros; unfold loseAccess; (repeat' split) <;> simp

@[simp] theorem loseAccess_wf_dram :
    ∀ x0 s, Memory.wf s.dram = true → Memory.wf (loseAccess x0 s).dram = true := by
  intros; unfold loseAccess; (repeat' split) <;> simp +contextual [*]

@[simp] theorem loseAccess_frame_ws :
    ∀ x0 s, (loseAccess x0 s).ws = s.ws := by
  intros; unfold loseAccess; (repeat' split) <;> simp

@[simp] theorem badAccess_frame_pending :
    ∀ x0 x1 s, (badAccess x0 x1 s).pending = s.pending := by
  intros; simp [badAccess]

@[simp] theorem badAccess_frame_time :
    ∀ x0 x1 s, (badAccess x0 x1 s).time = s.time := by
  intros; simp [badAccess]

@[simp] theorem badAccess_frame_boxDie :
    ∀ x0 x1 s, (badAccess x0 x1 s).boxDie = s.boxDie := by
  intros; simp [badAccess]

@[simp] theorem badAccess_frame_fuses :
    ∀ x0 x1 s, (badAccess x0 x1 s).fuses = s.fuses := by
  intros; simp [badAccess]

@[simp] theorem badAccess_wf_dram :
    ∀ x0 x1 s, Memory.wf s.dram = true → Memory.wf (badAccess x0 x1 s).dram = true := by
  intros; simp +contextual [badAccess, *]

@[simp] theorem badAccess_wf_ws :
    ∀ x0 x1 s, Memory.wf s.ws = true → Memory.wf (badAccess x0 x1 s).ws = true := by
  intros; simp +contextual [badAccess, *]

@[simp] theorem accessError_frame_pending :
    ∀ x0 x1 s, (accessError x0 x1 s).pending = s.pending := by
  intros; unfold accessError; (repeat' split) <;> simp

@[simp] theorem accessError_frame_time :
    ∀ x0 x1 s, (accessError x0 x1 s).time = s.time := by
  intros; unfold accessError; (repeat' split) <;> simp

@[simp] theorem accessError_frame_boxDie :
    ∀ x0 x1 s, (accessError x0 x1 s).boxDie = s.boxDie := by
  intros; unfold accessError; (repeat' split) <;> simp

@[simp] theorem accessError_frame_fuses :
    ∀ x0 x1 s, (accessError x0 x1 s).fuses = s.fuses := by
  intros; unfold accessError; (repeat' split) <;> simp

@[simp] theorem accessError_wf_dram :
    ∀ x0 x1 s, Memory.wf s.dram = true → Memory.wf (accessError x0 x1 s).dram = true := by
  intros; unfold accessError; (repeat' split) <;> simp +contextual [*]

@[simp] theorem accessError_wf_ws :
    ∀ x0 x1 s, Memory.wf s.ws = true → Memory.wf (accessError x0 x1 s).ws = true := by
  intros; unfold accessError; (repeat' split) <;> simp +contextual [*]

@[simp] theorem readErrors_frame : ∀ x0 x1 x2 s, (readErrors x0 x1 x2 s).pending = s.pending ∧ (readErrors x0 x1 x2 s).time = s.time ∧ (readErrors x0 x1 x2 s).boxDie = s.boxDie ∧ (readErrors x0 x1 x2 s).fuses = s.fuses := by
  intros; unfold readErrors
  refine ⟨foldl_same State.pending _ ?_ _ _, foldl_same State.time _ ?_ _ _, foldl_same State.boxDie _ ?_ _ _, foldl_same State.fuses _ ?_ _ _⟩ <;> (intro s x; split <;> simp)

@[simp] theorem readErrors_wf_dram : ∀ x0 x1 x2 s, Memory.wf s.dram = true → Memory.wf (readErrors x0 x1 x2 s).dram = true := by
  intros; unfold readErrors; refine foldl_wfd _ ?_ _ _ (by assumption)
  intro s x hs; split <;> simp [hs]

@[simp] theorem readErrors_wf_ws : ∀ x0 x1 x2 s, Memory.wf s.ws = true → Memory.wf (readErrors x0 x1 x2 s).ws = true := by
  intros; unfold readErrors; refine foldl_wfw _ ?_ _ _ (by assumption)
  intro s x hs; split <;> simp [hs]

@[simp] theorem slotError_frame_pending :
    ∀ x0 x1 x2 s, (slotError x0 x1 x2 s).pending = s.pending := by
  intros; unfold slotError; (repeat' split) <;> simp

@[simp] theorem slotError_frame_time :
    ∀ x0 x1 x2 s, (slotError x0 x1 x2 s).time = s.time := by
  intros; unfold slotError; (repeat' split) <;> simp

@[simp] theorem slotError_frame_boxDie :
    ∀ x0 x1 x2 s, (slotError x0 x1 x2 s).boxDie = s.boxDie := by
  intros; unfold slotError; (repeat' split) <;> simp

@[simp] theorem slotError_frame_fuses :
    ∀ x0 x1 x2 s, (slotError x0 x1 x2 s).fuses = s.fuses := by
  intros; unfold slotError; (repeat' split) <;> simp

@[simp] theorem slotError_wf_dram :
    ∀ x0 x1 x2 s, Memory.wf s.dram = true → Memory.wf (slotError x0 x1 x2 s).dram = true := by
  intros; unfold slotError; (repeat' split) <;> simp +contextual [*]

@[simp] theorem slotError_wf_ws :
    ∀ x0 x1 x2 s, Memory.wf s.ws = true → Memory.wf (slotError x0 x1 x2 s).ws = true := by
  intros; unfold slotError; (repeat' split) <;> simp +contextual [*]

@[simp] theorem intake_frame_pending :
    ∀ x0 x1 s, ((intake x0 x1 s).1).pending = s.pending := by
  intros; simp only [intake]; (repeat' split) <;> simp

@[simp] theorem intake_frame_time :
    ∀ x0 x1 s, ((intake x0 x1 s).1).time = s.time := by
  intros; simp only [intake]; (repeat' split) <;> simp

@[simp] theorem intake_frame_boxDie :
    ∀ x0 x1 s, ((intake x0 x1 s).1).boxDie = s.boxDie := by
  intros; simp only [intake]; (repeat' split) <;> simp

@[simp] theorem intake_frame_fuses :
    ∀ x0 x1 s, ((intake x0 x1 s).1).fuses = s.fuses := by
  intros; simp only [intake]; (repeat' split) <;> simp

@[simp] theorem intake_wf_dram :
    ∀ x0 x1 s, Memory.wf s.dram = true → Memory.wf ((intake x0 x1 s).1).dram = true := by
  intros; unfold intake; simp only []; (repeat' split) <;> simp +contextual [*]

@[simp] theorem intake_wf_ws :
    ∀ x0 x1 s, Memory.wf s.ws = true → Memory.wf ((intake x0 x1 s).1).ws = true := by
  intros; unfold intake; simp only []; (repeat' split) <;> simp +contextual [*]

@[simp] theorem enter_frame : ∀ x0 x1 s, (enter x0 x1 s).pending = s.pending ∧ (enter x0 x1 s).time = s.time ∧ (enter x0 x1 s).boxDie = s.boxDie ∧ (enter x0 x1 s).fuses = s.fuses := by
  intros; unfold enter; dsimp only; (repeat' split) <;> simp

@[simp] theorem enter_wf_dram : ∀ x0 x1 s, Memory.wf s.dram = true → Memory.wf (enter x0 x1 s).dram = true := by
  intro pk e s hw; have := intake_wf_dram pk e s hw; unfold enter; dsimp only; (repeat' split) <;> first | exact hw | exact this

@[simp] theorem enter_wf_ws : ∀ x0 x1 s, Memory.wf s.ws = true → Memory.wf (enter x0 x1 s).ws = true := by
  intro pk e s hw; have := intake_wf_ws pk e s hw; unfold enter; dsimp only; (repeat' split) <;> first | exact hw | exact this

@[simp] theorem arrive_frame_pending :
    ∀ x0 x1 x2 s, (arrive x0 x1 x2 s).pending = s.pending := by
  intros; simp [arrive]

@[simp] theorem arrive_frame_time :
    ∀ x0 x1 x2 s, (arrive x0 x1 x2 s).time = s.time := by
  intros; simp [arrive]

@[simp] theorem arrive_frame_boxDie :
    ∀ x0 x1 x2 s, (arrive x0 x1 x2 s).boxDie = s.boxDie := by
  intros; simp [arrive]

@[simp] theorem arrive_frame_fuses :
    ∀ x0 x1 x2 s, (arrive x0 x1 x2 s).fuses = s.fuses := by
  intros; simp [arrive]

@[simp] theorem arrive_wf_dram :
    ∀ x0 x1 x2 s, Memory.wf s.dram = true → Memory.wf (arrive x0 x1 x2 s).dram = true := by
  intros; unfold arrive; (repeat' split) <;> simp +contextual [*]

@[simp] theorem arrive_wf_ws :
    ∀ x0 x1 x2 s, Memory.wf s.ws = true → Memory.wf (arrive x0 x1 x2 s).ws = true := by
  intros; unfold arrive; (repeat' split) <;> simp +contextual [*]

@[simp] theorem applyReadmit_frame :
    ∀ x0 s, (applyReadmit x0 s).pending = s.pending ∧ (applyReadmit x0 s).time = s.time ∧ (applyReadmit x0 s).boxDie = s.boxDie ∧ (applyReadmit x0 s).fuses = s.fuses ∧ (applyReadmit x0 s).dram = s.dram ∧ (applyReadmit x0 s).ws = s.ws := by
  intros; unfold applyReadmit; (repeat' split) <;> simp

@[simp] theorem seedEnd_frame_pending :
    ∀ s, (seedEnd s).pending = s.pending := by
  intros; unfold seedEnd; (repeat' split) <;> simp

@[simp] theorem seedEnd_frame_time :
    ∀ s, (seedEnd s).time = s.time := by
  intros; unfold seedEnd; (repeat' split) <;> simp

@[simp] theorem seedEnd_frame_boxDie :
    ∀ s, (seedEnd s).boxDie = s.boxDie := by
  intros; unfold seedEnd; (repeat' split) <;> simp

@[simp] theorem seedEnd_frame_fuses :
    ∀ s, (seedEnd s).fuses = s.fuses := by
  intros; unfold seedEnd; (repeat' split) <;> simp

@[simp] theorem seedEnd_wf_dram :
    ∀ s, Memory.wf s.dram = true → Memory.wf (seedEnd s).dram = true := by
  intros; unfold seedEnd; (repeat' split) <;> simp +contextual [*]

@[simp] theorem seedEnd_frame_ws :
    ∀ s, (seedEnd s).ws = s.ws := by
  intros; unfold seedEnd; (repeat' split) <;> simp

@[simp] theorem seedBoundary_frame_pending :
    ∀ x0 x1 s, (seedBoundary x0 x1 s).pending = s.pending := by
  intros; simp [seedBoundary]

@[simp] theorem seedBoundary_frame_time :
    ∀ x0 x1 s, (seedBoundary x0 x1 s).time = s.time := by
  intros; simp [seedBoundary]

@[simp] theorem seedBoundary_frame_boxDie :
    ∀ x0 x1 s, (seedBoundary x0 x1 s).boxDie = s.boxDie := by
  intros; simp [seedBoundary]

@[simp] theorem seedBoundary_frame_fuses :
    ∀ x0 x1 s, (seedBoundary x0 x1 s).fuses = s.fuses := by
  intros; simp [seedBoundary]

@[simp] theorem seedBoundary_wf_dram :
    ∀ x0 x1 s, Memory.wf s.dram = true → Memory.wf (seedBoundary x0 x1 s).dram = true := by
  intros; unfold seedBoundary; (repeat' split) <;> simp +contextual [*]

@[simp] theorem seedBoundary_frame_ws :
    ∀ x0 x1 s, (seedBoundary x0 x1 s).ws = s.ws := by
  intros; simp [seedBoundary]

@[simp] theorem advanceStep_frame_pending :
    ∀ x0 s, (advanceStep x0 s).pending = s.pending := by
  intros; unfold advanceStep; (repeat' split) <;> simp

@[simp] theorem advanceStep_frame_time :
    ∀ x0 s, (advanceStep x0 s).time = s.time := by
  intros; unfold advanceStep; (repeat' split) <;> simp

@[simp] theorem advanceStep_frame_boxDie :
    ∀ x0 s, (advanceStep x0 s).boxDie = s.boxDie := by
  intros; unfold advanceStep; (repeat' split) <;> simp

@[simp] theorem advanceStep_frame_fuses :
    ∀ x0 s, (advanceStep x0 s).fuses = s.fuses := by
  intros; unfold advanceStep; (repeat' split) <;> simp

@[simp] theorem advanceStep_wf_dram :
    ∀ x0 s, Memory.wf s.dram = true → Memory.wf (advanceStep x0 s).dram = true := by
  intros; unfold advanceStep; (repeat' split) <;> simp +contextual [*]

@[simp] theorem advanceStep_frame_ws :
    ∀ x0 s, (advanceStep x0 s).ws = s.ws := by
  intros; unfold advanceStep; (repeat' split) <;> simp

@[simp] theorem releaseSlot_frame_pending :
    ∀ x0 x1 s, (releaseSlot x0 x1 s).pending = s.pending := by
  intros; unfold releaseSlot; (repeat' split) <;> simp

@[simp] theorem releaseSlot_frame_time :
    ∀ x0 x1 s, (releaseSlot x0 x1 s).time = s.time := by
  intros; unfold releaseSlot; (repeat' split) <;> simp

@[simp] theorem releaseSlot_frame_boxDie :
    ∀ x0 x1 s, (releaseSlot x0 x1 s).boxDie = s.boxDie := by
  intros; unfold releaseSlot; (repeat' split) <;> simp

@[simp] theorem releaseSlot_frame_fuses :
    ∀ x0 x1 s, (releaseSlot x0 x1 s).fuses = s.fuses := by
  intros; unfold releaseSlot; (repeat' split) <;> simp

@[simp] theorem releaseSlot_wf_dram :
    ∀ x0 x1 s, Memory.wf s.dram = true → Memory.wf (releaseSlot x0 x1 s).dram = true := by
  intros; unfold releaseSlot; simp only []; (repeat' split) <;> simp +contextual [*]

@[simp] theorem releaseSlot_frame_ws :
    ∀ x0 x1 s, (releaseSlot x0 x1 s).ws = s.ws := by
  intros; unfold releaseSlot; (repeat' split) <;> simp

@[simp] theorem excludeSlot_frame_pending :
    ∀ x0 x1 s x3, (excludeSlot x0 x1 s x3).pending = s.pending := by
  intros; unfold excludeSlot; (repeat' split) <;> simp

@[simp] theorem excludeSlot_frame_time :
    ∀ x0 x1 s x3, (excludeSlot x0 x1 s x3).time = s.time := by
  intros; unfold excludeSlot; (repeat' split) <;> simp

@[simp] theorem excludeSlot_frame_boxDie :
    ∀ x0 x1 s x3, (excludeSlot x0 x1 s x3).boxDie = s.boxDie := by
  intros; unfold excludeSlot; (repeat' split) <;> simp

@[simp] theorem excludeSlot_frame_fuses :
    ∀ x0 x1 s x3, (excludeSlot x0 x1 s x3).fuses = s.fuses := by
  intros; unfold excludeSlot; (repeat' split) <;> simp

@[simp] theorem excludeSlot_wf_dram :
    ∀ x0 x1 s x3, Memory.wf s.dram = true → Memory.wf (excludeSlot x0 x1 s x3).dram = true := by
  intros; unfold excludeSlot; simp only []; (repeat' split) <;> simp +contextual [*]

@[simp] theorem excludeSlot_frame_ws :
    ∀ x0 x1 s x3, (excludeSlot x0 x1 s x3).ws = s.ws := by
  intros; unfold excludeSlot; (repeat' split) <;> simp

@[simp] theorem excludeFrom_frame_pending :
    ∀ x0 x1 s, (excludeFrom x0 x1 s).pending = s.pending := by
  intros; simp [excludeFrom]

@[simp] theorem excludeFrom_frame_time :
    ∀ x0 x1 s, (excludeFrom x0 x1 s).time = s.time := by
  intros; simp [excludeFrom]

@[simp] theorem excludeFrom_frame_boxDie :
    ∀ x0 x1 s, (excludeFrom x0 x1 s).boxDie = s.boxDie := by
  intros; simp [excludeFrom]

@[simp] theorem excludeFrom_frame_fuses :
    ∀ x0 x1 s, (excludeFrom x0 x1 s).fuses = s.fuses := by
  intros; simp [excludeFrom]

@[simp] theorem excludeFrom_wf_dram :
    ∀ x0 x1 s, Memory.wf s.dram = true → Memory.wf (excludeFrom x0 x1 s).dram = true := by
  intros; simp +contextual [excludeFrom, *]

@[simp] theorem excludeFrom_frame_ws :
    ∀ x0 x1 s, (excludeFrom x0 x1 s).ws = s.ws := by
  intros; simp [excludeFrom]

/-! ### LeaveOps -/

@[simp] theorem rideSticky_frame :
    ∀ x0 s, (rideSticky x0 s).pending = s.pending ∧ (rideSticky x0 s).time = s.time ∧ (rideSticky x0 s).boxDie = s.boxDie ∧ (rideSticky x0 s).fuses = s.fuses ∧ (rideSticky x0 s).dram = s.dram ∧ (rideSticky x0 s).ws = s.ws := by
  intros; simp [rideSticky]

@[simp] theorem modGrant_frame :
    ∀ x0 x1 s, (modGrant x0 x1 s).pending = s.pending ∧ (modGrant x0 x1 s).time = s.time ∧ (modGrant x0 x1 s).boxDie = s.boxDie ∧ (modGrant x0 x1 s).fuses = s.fuses ∧ (modGrant x0 x1 s).dram = s.dram ∧ (modGrant x0 x1 s).ws = s.ws := by
  intros; simp [modGrant]

@[simp] theorem startIssue_frame :
    ∀ x0 s, (startIssue x0 s).pending = s.pending ∧ (startIssue x0 s).time = s.time ∧ (startIssue x0 s).boxDie = s.boxDie ∧ (startIssue x0 s).fuses = s.fuses ∧ (startIssue x0 s).dram = s.dram ∧ (startIssue x0 s).ws = s.ws := by
  intros; simp [startIssue]

@[simp] theorem endIssue_frame :
    ∀ x0 s, (endIssue x0 s).pending = s.pending ∧ (endIssue x0 s).time = s.time ∧ (endIssue x0 s).boxDie = s.boxDie ∧ (endIssue x0 s).fuses = s.fuses ∧ (endIssue x0 s).dram = s.dram ∧ (endIssue x0 s).ws = s.ws := by
  intros; simp [endIssue]

@[simp] theorem suspendGrant_frame :
    ∀ x0 s, (suspendGrant x0 s).pending = s.pending ∧ (suspendGrant x0 s).time = s.time ∧ (suspendGrant x0 s).boxDie = s.boxDie ∧ (suspendGrant x0 s).fuses = s.fuses ∧ (suspendGrant x0 s).dram = s.dram ∧ (suspendGrant x0 s).ws = s.ws := by
  intros; simp [suspendGrant]

@[simp] theorem suspendAll_frame :
    ∀ x0 s, (suspendAll x0 s).pending = s.pending ∧ (suspendAll x0 s).time = s.time ∧ (suspendAll x0 s).boxDie = s.boxDie ∧ (suspendAll x0 s).fuses = s.fuses ∧ (suspendAll x0 s).dram = s.dram ∧ (suspendAll x0 s).ws = s.ws := by
  intros; fun_induction suspendAll <;> simp_all

@[simp] theorem capChanged_frame :
    ∀ s, (capChanged s).pending = s.pending ∧ (capChanged s).time = s.time ∧ (capChanged s).boxDie = s.boxDie ∧ (capChanged s).fuses = s.fuses ∧ (capChanged s).dram = s.dram ∧ (capChanged s).ws = s.ws := by
  intros; simp [capChanged]

/-! ### GroomOps -/

@[simp] theorem grmFlags_frame :
    ∀ x0 s, (grmFlags x0 s).pending = s.pending ∧ (grmFlags x0 s).time = s.time ∧ (grmFlags x0 s).boxDie = s.boxDie ∧ (grmFlags x0 s).fuses = s.fuses ∧ (grmFlags x0 s).dram = s.dram ∧ (grmFlags x0 s).ws = s.ws := by
  intros; simp [grmFlags]

@[simp] theorem checkLast_frame_pending :
    ∀ x0 x1 s, (checkLast x0 x1 s).pending = s.pending := by
  intros; unfold checkLast; (repeat' split) <;> simp

@[simp] theorem checkLast_frame_time :
    ∀ x0 x1 s, (checkLast x0 x1 s).time = s.time := by
  intros; unfold checkLast; (repeat' split) <;> simp

@[simp] theorem checkLast_frame_boxDie :
    ∀ x0 x1 s, (checkLast x0 x1 s).boxDie = s.boxDie := by
  intros; unfold checkLast; (repeat' split) <;> simp

@[simp] theorem checkLast_frame_fuses :
    ∀ x0 x1 s, (checkLast x0 x1 s).fuses = s.fuses := by
  intros; unfold checkLast; (repeat' split) <;> simp

@[simp] theorem checkLast_wf_dram :
    ∀ x0 x1 s, Memory.wf s.dram = true → Memory.wf (checkLast x0 x1 s).dram = true := by
  intros; unfold checkLast; (repeat' split) <;> simp +contextual [*]

@[simp] theorem checkLast_frame_ws :
    ∀ x0 x1 s, (checkLast x0 x1 s).ws = s.ws := by
  intros; unfold checkLast; (repeat' split) <;> simp

@[simp] theorem advanceAge_frame_pending :
    ∀ x0 x1 x2 x3 s, (advanceAge x0 x1 x2 x3 s).pending = s.pending := by
  intros; simp only [advanceAge]; (repeat' split) <;> simp

@[simp] theorem advanceAge_frame_time :
    ∀ x0 x1 x2 x3 s, (advanceAge x0 x1 x2 x3 s).time = s.time := by
  intros; simp only [advanceAge]; (repeat' split) <;> simp

@[simp] theorem advanceAge_frame_boxDie :
    ∀ x0 x1 x2 x3 s, (advanceAge x0 x1 x2 x3 s).boxDie = s.boxDie := by
  intros; simp only [advanceAge]; (repeat' split) <;> simp

@[simp] theorem advanceAge_frame_fuses :
    ∀ x0 x1 x2 x3 s, (advanceAge x0 x1 x2 x3 s).fuses = s.fuses := by
  intros; simp only [advanceAge]; (repeat' split) <;> simp

@[simp] theorem advanceAge_wf_dram :
    ∀ x0 x1 x2 x3 s, Memory.wf s.dram = true → Memory.wf (advanceAge x0 x1 x2 x3 s).dram = true := by
  intros; unfold advanceAge; simp only []; (repeat' split) <;> simp +contextual [*]

@[simp] theorem advanceAge_frame_ws :
    ∀ x0 x1 x2 x3 s, (advanceAge x0 x1 x2 x3 s).ws = s.ws := by
  intros; simp only [advanceAge]; (repeat' split) <;> simp

@[simp] theorem endJobs_frame :
    ∀ x0 x1 s, (endJobs x0 x1 s).pending = s.pending ∧ (endJobs x0 x1 s).time = s.time ∧ (endJobs x0 x1 s).boxDie = s.boxDie ∧ (endJobs x0 x1 s).fuses = s.fuses ∧ (endJobs x0 x1 s).dram = s.dram ∧ (endJobs x0 x1 s).ws = s.ws := by
  intros; simp [endJobs]

/-! ### RunOps -/

@[simp] theorem endCmd_frame :
    ∀ x0 x1 x2 s, (endCmd x0 x1 x2 s).pending = s.pending ∧ (endCmd x0 x1 x2 s).time = s.time ∧ (endCmd x0 x1 x2 s).boxDie = s.boxDie ∧ (endCmd x0 x1 x2 s).fuses = s.fuses ∧ (endCmd x0 x1 x2 s).dram = s.dram ∧ (endCmd x0 x1 x2 s).ws = s.ws := by
  intros; simp [endCmd]

@[simp] theorem digSticky_frame :
    ∀ x0 s, (digSticky x0 s).pending = s.pending ∧ (digSticky x0 s).time = s.time ∧ (digSticky x0 s).boxDie = s.boxDie ∧ (digSticky x0 s).fuses = s.fuses ∧ (digSticky x0 s).dram = s.dram ∧ (digSticky x0 s).ws = s.ws := by
  intros; simp [digSticky]

@[simp] theorem addRecord_frame_pending :
    ∀ x0 x1 x2 s, (addRecord x0 x1 x2 s).pending = s.pending := by
  intros; simp [addRecord]

@[simp] theorem addRecord_frame_time :
    ∀ x0 x1 x2 s, (addRecord x0 x1 x2 s).time = s.time := by
  intros; simp [addRecord]

@[simp] theorem addRecord_frame_boxDie :
    ∀ x0 x1 x2 s, (addRecord x0 x1 x2 s).boxDie = s.boxDie := by
  intros; simp [addRecord]

@[simp] theorem addRecord_frame_fuses :
    ∀ x0 x1 x2 s, (addRecord x0 x1 x2 s).fuses = s.fuses := by
  intros; simp [addRecord]

@[simp] theorem addRecord_wf_dram :
    ∀ x0 x1 x2 s, Memory.wf s.dram = true → Memory.wf (addRecord x0 x1 x2 s).dram = true := by
  intros; unfold addRecord; simp [ringWrite, *]

@[simp] theorem addRecord_frame_ws :
    ∀ x0 x1 x2 s, (addRecord x0 x1 x2 s).ws = s.ws := by
  intros; simp [addRecord]

@[simp] theorem serveRing_frame_pending :
    ∀ x0 s, (serveRing x0 s).pending = s.pending := by
  intros; fun_induction serveRing <;> simp_all

@[simp] theorem serveRing_frame_time :
    ∀ x0 s, (serveRing x0 s).time = s.time := by
  intros; fun_induction serveRing <;> simp_all

@[simp] theorem serveRing_frame_boxDie :
    ∀ x0 s, (serveRing x0 s).boxDie = s.boxDie := by
  intros; fun_induction serveRing <;> simp_all

@[simp] theorem serveRing_frame_fuses :
    ∀ x0 s, (serveRing x0 s).fuses = s.fuses := by
  intros; fun_induction serveRing <;> simp_all

@[simp] theorem serveRing_wf_dram :
    ∀ x0 s, Memory.wf s.dram = true → Memory.wf (serveRing x0 s).dram = true := by
  intros; fun_induction serveRing <;> simp_all

@[simp] theorem serveRing_frame_ws :
    ∀ x0 s, (serveRing x0 s).ws = s.ws := by
  intros; fun_induction serveRing <;> simp_all

@[simp] theorem signDue_frame :
    ∀ x0 s, (signDue x0 s).pending = s.pending ∧ (signDue x0 s).time = s.time ∧ (signDue x0 s).boxDie = s.boxDie ∧ (signDue x0 s).fuses = s.fuses ∧ (signDue x0 s).dram = s.dram ∧ (signDue x0 s).ws = s.ws := by
  intros; simp [signDue]

@[simp] theorem drawnLast_frame :
    ∀ s, (drawnLast s).pending = s.pending ∧ (drawnLast s).time = s.time ∧ (drawnLast s).boxDie = s.boxDie ∧ (drawnLast s).fuses = s.fuses ∧ (drawnLast s).dram = s.dram ∧ (drawnLast s).ws = s.ws := by
  intros; simp [drawnLast]

@[simp] theorem endStops_frame :
    ∀ x0 s, (endStops x0 s).pending = s.pending ∧ (endStops x0 s).time = s.time ∧ (endStops x0 s).boxDie = s.boxDie ∧ (endStops x0 s).fuses = s.fuses ∧ (endStops x0 s).dram = s.dram ∧ (endStops x0 s).ws = s.ws := by
  intros; simp [endStops]

@[simp] theorem liftFences_frame :
    ∀ s, (liftFences s).pending = s.pending ∧ (liftFences s).time = s.time ∧ (liftFences s).boxDie = s.boxDie ∧ (liftFences s).fuses = s.fuses ∧ (liftFences s).dram = s.dram ∧ (liftFences s).ws = s.ws := by
  intros; simp [liftFences]

@[simp] theorem endRun_frame :
    ∀ x0 s, (endRun x0 s).pending = s.pending ∧ (endRun x0 s).time = s.time ∧ (endRun x0 s).boxDie = s.boxDie ∧ (endRun x0 s).fuses = s.fuses ∧ (endRun x0 s).dram = s.dram ∧ (endRun x0 s).ws = s.ws := by
  intros; simp only [endRun]; (repeat' split) <;> simp

@[simp] theorem maybeEnd_frame :
    ∀ s, (maybeEnd s).pending = s.pending ∧ (maybeEnd s).time = s.time ∧ (maybeEnd s).boxDie = s.boxDie ∧ (maybeEnd s).fuses = s.fuses ∧ (maybeEnd s).dram = s.dram ∧ (maybeEnd s).ws = s.ws := by
  intros; unfold maybeEnd; (repeat' split) <;> simp

@[simp] theorem clockStop_frame :
    ∀ s, (clockStop s).pending = s.pending ∧ (clockStop s).time = s.time ∧ (clockStop s).boxDie = s.boxDie ∧ (clockStop s).fuses = s.fuses ∧ (clockStop s).dram = s.dram ∧ (clockStop s).ws = s.ws := by
  intros; unfold clockStop; (repeat' split) <;> simp

@[simp] theorem keepLast_frame :
    ∀ x0 x1 s, (keepLast x0 x1 s).pending = s.pending ∧ (keepLast x0 x1 s).time = s.time ∧ (keepLast x0 x1 s).boxDie = s.boxDie ∧ (keepLast x0 x1 s).fuses = s.fuses ∧ (keepLast x0 x1 s).dram = s.dram ∧ (keepLast x0 x1 s).ws = s.ws := by
  intros; simp [keepLast]

@[simp] theorem clearProgress_frame_pending :
    ∀ x0 s, (clearProgress x0 s).pending = s.pending := by
  intros; simp [clearProgress]

@[simp] theorem clearProgress_frame_time :
    ∀ x0 s, (clearProgress x0 s).time = s.time := by
  intros; simp [clearProgress]

@[simp] theorem clearProgress_frame_boxDie :
    ∀ x0 s, (clearProgress x0 s).boxDie = s.boxDie := by
  intros; simp [clearProgress]

@[simp] theorem clearProgress_frame_fuses :
    ∀ x0 s, (clearProgress x0 s).fuses = s.fuses := by
  intros; simp [clearProgress]

@[simp] theorem clearProgress_wf_dram :
    ∀ x0 s, Memory.wf s.dram = true → Memory.wf (clearProgress x0 s).dram = true := by
  intros; unfold clearProgress; refine foldl_wfd _ ?_ _ _ (by assumption); intro s x hs; dsimp only; split <;> simp [hs]

@[simp] theorem clearProgress_frame_ws :
    ∀ x0 s, (clearProgress x0 s).ws = s.ws := by
  intros; simp [clearProgress]

@[simp] theorem closeStep_frame_pending :
    ∀ x0 s, (closeStep x0 s).pending = s.pending := by
  intros; unfold closeStep; (repeat' split) <;> simp

@[simp] theorem closeStep_frame_time :
    ∀ x0 s, (closeStep x0 s).time = s.time := by
  intros; unfold closeStep; (repeat' split) <;> simp

@[simp] theorem closeStep_frame_boxDie :
    ∀ x0 s, (closeStep x0 s).boxDie = s.boxDie := by
  intros; unfold closeStep; (repeat' split) <;> simp

@[simp] theorem closeStep_frame_fuses :
    ∀ x0 s, (closeStep x0 s).fuses = s.fuses := by
  intros; unfold closeStep; (repeat' split) <;> simp

@[simp] theorem closeStep_wf_dram :
    ∀ x0 s, Memory.wf s.dram = true → Memory.wf (closeStep x0 s).dram = true := by
  intros; unfold closeStep; (repeat' split) <;> simp +contextual [*]

@[simp] theorem closeStep_frame_ws :
    ∀ x0 s, (closeStep x0 s).ws = s.ws := by
  intros; unfold closeStep; (repeat' split) <;> simp

/-! ### CastOps -/

@[simp] theorem noteCast_frame :
    ∀ x0 s, (noteCast x0 s).pending = s.pending ∧ (noteCast x0 s).time = s.time ∧ (noteCast x0 s).boxDie = s.boxDie ∧ (noteCast x0 s).fuses = s.fuses ∧ (noteCast x0 s).dram = s.dram ∧ (noteCast x0 s).ws = s.ws := by
  intros; simp [noteCast]

@[simp] theorem castStage_frame_pending :
    ∀ x0 x1 x2 x3 x4 x5 x6 x7 x8 s, ((castStage x0 x1 x2 x3 x4 x5 x6 x7 x8 s).2.2).pending = s.pending := by
  intros; unfold castStage; (repeat' split) <;> simp

@[simp] theorem castStage_frame_time :
    ∀ x0 x1 x2 x3 x4 x5 x6 x7 x8 s, ((castStage x0 x1 x2 x3 x4 x5 x6 x7 x8 s).2.2).time = s.time := by
  intros; unfold castStage; (repeat' split) <;> simp

@[simp] theorem castStage_frame_boxDie :
    ∀ x0 x1 x2 x3 x4 x5 x6 x7 x8 s, ((castStage x0 x1 x2 x3 x4 x5 x6 x7 x8 s).2.2).boxDie = s.boxDie := by
  intros; unfold castStage; (repeat' split) <;> simp

@[simp] theorem castStage_frame_fuses :
    ∀ x0 x1 x2 x3 x4 x5 x6 x7 x8 s, ((castStage x0 x1 x2 x3 x4 x5 x6 x7 x8 s).2.2).fuses = s.fuses := by
  intros; unfold castStage; (repeat' split) <;> simp

@[simp] theorem castStage_wf_dram :
    ∀ x0 x1 x2 x3 x4 x5 x6 x7 x8 s, Memory.wf s.dram = true → Memory.wf ((castStage x0 x1 x2 x3 x4 x5 x6 x7 x8 s).2.2).dram = true := by
  intros; unfold castStage; (repeat' split) <;> simp +contextual [*]

@[simp] theorem castStage_frame_ws :
    ∀ x0 x1 x2 x3 x4 x5 x6 x7 x8 s, ((castStage x0 x1 x2 x3 x4 x5 x6 x7 x8 s).2.2).ws = s.ws := by
  intros; unfold castStage; (repeat' split) <;> simp

@[simp] theorem modJob_frame :
    ∀ x0 x1 x2 x3 x4 x5 s, (modJob x0 x1 x2 x3 x4 x5 s).pending = s.pending ∧ (modJob x0 x1 x2 x3 x4 x5 s).time = s.time ∧ (modJob x0 x1 x2 x3 x4 x5 s).boxDie = s.boxDie ∧ (modJob x0 x1 x2 x3 x4 x5 s).fuses = s.fuses ∧ (modJob x0 x1 x2 x3 x4 x5 s).dram = s.dram ∧ (modJob x0 x1 x2 x3 x4 x5 s).ws = s.ws := by
  intros; simp [modJob]

@[simp] theorem dropJob_frame :
    ∀ x0 x1 x2 x3 x4 s, (dropJob x0 x1 x2 x3 x4 s).pending = s.pending ∧ (dropJob x0 x1 x2 x3 x4 s).time = s.time ∧ (dropJob x0 x1 x2 x3 x4 s).boxDie = s.boxDie ∧ (dropJob x0 x1 x2 x3 x4 s).fuses = s.fuses ∧ (dropJob x0 x1 x2 x3 x4 s).dram = s.dram ∧ (dropJob x0 x1 x2 x3 x4 s).ws = s.ws := by
  intros; simp [dropJob]

@[simp] theorem addJob_frame :
    ∀ x0 s, (addJob x0 s).pending = s.pending ∧ (addJob x0 s).time = s.time ∧ (addJob x0 s).boxDie = s.boxDie ∧ (addJob x0 s).fuses = s.fuses ∧ (addJob x0 s).dram = s.dram ∧ (addJob x0 s).ws = s.ws := by
  intros; simp [addJob]

@[simp] theorem compareEntry_frame_pending :
    ∀ x0 x1 x2 x3 x4 s, (compareEntry x0 x1 x2 x3 x4 s).pending = s.pending := by
  intros; simp only [compareEntry]; (repeat' split) <;> simp

@[simp] theorem compareEntry_frame_time :
    ∀ x0 x1 x2 x3 x4 s, (compareEntry x0 x1 x2 x3 x4 s).time = s.time := by
  intros; simp only [compareEntry]; (repeat' split) <;> simp

@[simp] theorem compareEntry_frame_boxDie :
    ∀ x0 x1 x2 x3 x4 s, (compareEntry x0 x1 x2 x3 x4 s).boxDie = s.boxDie := by
  intros; simp only [compareEntry]; (repeat' split) <;> simp

@[simp] theorem compareEntry_frame_fuses :
    ∀ x0 x1 x2 x3 x4 s, (compareEntry x0 x1 x2 x3 x4 s).fuses = s.fuses := by
  intros; simp only [compareEntry]; (repeat' split) <;> simp

@[simp] theorem compareEntry_wf_dram :
    ∀ x0 x1 x2 x3 x4 s, Memory.wf s.dram = true → Memory.wf (compareEntry x0 x1 x2 x3 x4 s).dram = true := by
  intros; unfold compareEntry; simp only []; (repeat' split) <;> simp +contextual [*]

@[simp] theorem compareEntry_wf_ws :
    ∀ x0 x1 x2 x3 x4 s, Memory.wf s.ws = true → Memory.wf (compareEntry x0 x1 x2 x3 x4 s).ws = true := by
  intros; unfold compareEntry; simp only []; (repeat' split) <;> simp +contextual [*]

@[simp] theorem addDig_frame :
    ∀ x0 x1 x2 x3 x4 s, (addDig x0 x1 x2 x3 x4 s).pending = s.pending ∧ (addDig x0 x1 x2 x3 x4 s).time = s.time ∧ (addDig x0 x1 x2 x3 x4 s).boxDie = s.boxDie ∧ (addDig x0 x1 x2 x3 x4 s).fuses = s.fuses ∧ (addDig x0 x1 x2 x3 x4 s).dram = s.dram ∧ (addDig x0 x1 x2 x3 x4 s).ws = s.ws := by
  intros; simp [addDig]

end Sys2Proof.Machine
end

