-- ==== Sys2Proof/Laws/FrameFabric.lean ====
section
/-! SUPPORT. The frame of the Digest, the Prompter's messages, the links, the switch and the lanes: the queue, the clock, the box office die, the fuses and the two memories are as before, and
where a memory may change it keeps its canonical form. -/

set_option linter.unusedSimpArgs false

namespace Sys2Proof.Machine

/-! ### Audit -/

theorem execPlaybillWrite_frame : ∀ s t, execPlaybillWrite s = .next t → t.pending = s.pending ∧ t.time = s.time ∧ t.boxDie = s.boxDie ∧ t.fuses = s.fuses ∧ t.ws = s.ws := by
  intros; rename_i h; unfold execPlaybillWrite at h; simp only [] at h; (repeat' split at h) <;> (simp only [Host.Outcome.next.injEq] at h) <;> (subst h) <;> (try split) <;> simp

theorem execPlaybillWrite_wf_dram : ∀ s t, Memory.wf s.dram = true → execPlaybillWrite s = .next t → Memory.wf t.dram = true := by
  intros; rename_i hw h; unfold execPlaybillWrite at h; simp only [] at h; (repeat' split at h) <;> (simp only [Host.Outcome.next.injEq] at h) <;> (subst h) <;> (try split) <;> try (simp [hw]; done)
  all_goals
    simp only [maybeEnd_frame]
    refine closeStep_wf_dram _ _ ?_
    try simp only [modRun_frame, signDue_frame]
    refine serveRing_wf_dram _ _ ?_
    simp [hw]

theorem execSignatureComplete_frame_pending :
    ∀ s t, execSignatureComplete s = .next t → (t).pending = s.pending := by
  intros; rename_i h; simp only [execSignatureComplete] at h; (repeat' split at h) <;> cases h <;> simp

theorem execSignatureComplete_frame_time :
    ∀ s t, execSignatureComplete s = .next t → (t).time = s.time := by
  intros; rename_i h; simp only [execSignatureComplete] at h; (repeat' split at h) <;> cases h <;> simp

theorem execSignatureComplete_frame_boxDie :
    ∀ s t, execSignatureComplete s = .next t → (t).boxDie = s.boxDie := by
  intros; rename_i h; simp only [execSignatureComplete] at h; (repeat' split at h) <;> cases h <;> simp

theorem execSignatureComplete_frame_fuses :
    ∀ s t, execSignatureComplete s = .next t → (t).fuses = s.fuses := by
  intros; rename_i h; simp only [execSignatureComplete] at h; (repeat' split at h) <;> cases h <;> simp

theorem execSignatureComplete_wf_dram :
    ∀ s t, Memory.wf s.dram = true → execSignatureComplete s = .next t → Memory.wf (t).dram = true := by
  intros; rename_i hw h; simp only [execSignatureComplete] at h; (repeat' split at h) <;> (simp only [Host.Outcome.next.injEq, reduceCtorEq] at h) <;> (subst h; simp +contextual [hw])

theorem execSignatureComplete_frame_ws :
    ∀ s t, execSignatureComplete s = .next t → (t).ws = s.ws := by
  intros; rename_i h; simp only [execSignatureComplete] at h; (repeat' split at h) <;> cases h <;> simp

@[simp] theorem startAudit_frame :
    ∀ x0 s, (startAudit x0 s).pending = s.pending ∧ (startAudit x0 s).time = s.time ∧ (startAudit x0 s).boxDie = s.boxDie ∧ (startAudit x0 s).fuses = s.fuses ∧ (startAudit x0 s).dram = s.dram ∧ (startAudit x0 s).ws = s.ws := by
  intros; simp [startAudit]

@[simp] theorem writeAudit_frame :
    ∀ x0 s, (writeAudit x0 s).pending = s.pending ∧ (writeAudit x0 s).time = s.time ∧ (writeAudit x0 s).boxDie = s.boxDie ∧ (writeAudit x0 s).fuses = s.fuses ∧ (writeAudit x0 s).dram = s.dram ∧ (writeAudit x0 s).ws = s.ws := by
  intros; unfold writeAudit; (repeat' split) <;> simp

@[simp] theorem endAudit_frame :
    ∀ s, (endAudit s).pending = s.pending ∧ (endAudit s).time = s.time ∧ (endAudit s).boxDie = s.boxDie ∧ (endAudit s).fuses = s.fuses ∧ (endAudit s).dram = s.dram ∧ (endAudit s).ws = s.ws := by
  intro s; simp only [endAudit]; cases lastWrite s .digAudit 0 <;> simp

theorem execAuditDone_frame_pending :
    ∀ x0 s t, execAuditDone x0 s = .next t → (t).pending = s.pending := by
  intros; rename_i h; simp only [execAuditDone] at h; (repeat' split at h) <;> (simp only [Host.Outcome.next.injEq, reduceCtorEq] at h) <;> (subst h; simp)

theorem execAuditDone_frame_time :
    ∀ x0 s t, execAuditDone x0 s = .next t → (t).time = s.time := by
  intros; rename_i h; simp only [execAuditDone] at h; (repeat' split at h) <;> (simp only [Host.Outcome.next.injEq, reduceCtorEq] at h) <;> (subst h; simp)

theorem execAuditDone_frame_boxDie :
    ∀ x0 s t, execAuditDone x0 s = .next t → (t).boxDie = s.boxDie := by
  intros; rename_i h; simp only [execAuditDone] at h; (repeat' split at h) <;> (simp only [Host.Outcome.next.injEq, reduceCtorEq] at h) <;> (subst h; simp)

theorem execAuditDone_frame_fuses :
    ∀ x0 s t, execAuditDone x0 s = .next t → (t).fuses = s.fuses := by
  intros; rename_i h; simp only [execAuditDone] at h; (repeat' split at h) <;> (simp only [Host.Outcome.next.injEq, reduceCtorEq] at h) <;> (subst h; simp)

theorem execAuditDone_wf_dram :
    ∀ x0 s t, Memory.wf s.dram = true → execAuditDone x0 s = .next t → Memory.wf (t).dram = true := by
  intros; rename_i hw h; simp only [execAuditDone] at h; (repeat' split at h) <;> (simp only [Host.Outcome.next.injEq, reduceCtorEq] at h) <;> (subst h; simp +contextual [hw])

theorem execAuditDone_wf_ws :
    ∀ x0 s t, Memory.wf s.ws = true → execAuditDone x0 s = .next t → Memory.wf (t).ws = true := by
  intros; rename_i hw h; simp only [execAuditDone] at h; (repeat' split at h) <;> (simp only [Host.Outcome.next.injEq, reduceCtorEq] at h) <;> (subst h; simp +contextual [hw])

@[simp] theorem exactMiss_frame_pending :
    ∀ x0 x1 x2 x3 s, (exactMiss x0 x1 x2 x3 s).pending = s.pending := by
  intros; simp [exactMiss]

@[simp] theorem exactMiss_frame_time :
    ∀ x0 x1 x2 x3 s, (exactMiss x0 x1 x2 x3 s).time = s.time := by
  intros; simp [exactMiss]

@[simp] theorem exactMiss_frame_boxDie :
    ∀ x0 x1 x2 x3 s, (exactMiss x0 x1 x2 x3 s).boxDie = s.boxDie := by
  intros; simp [exactMiss]

@[simp] theorem exactMiss_frame_fuses :
    ∀ x0 x1 x2 x3 s, (exactMiss x0 x1 x2 x3 s).fuses = s.fuses := by
  intros; simp [exactMiss]

@[simp] theorem exactMiss_wf_dram :
    ∀ x0 x1 x2 x3 s, Memory.wf s.dram = true → Memory.wf (exactMiss x0 x1 x2 x3 s).dram = true := by
  intros; simp +contextual [exactMiss, *]

@[simp] theorem exactMiss_wf_ws :
    ∀ x0 x1 x2 x3 s, Memory.wf s.ws = true → Memory.wf (exactMiss x0 x1 x2 x3 s).ws = true := by
  intros; simp +contextual [exactMiss, *]

theorem execSampleCheckEnd_frame_pending :
    ∀ x0 x1 x2 x3 x4 s t, execSampleCheckEnd x0 x1 x2 x3 x4 s = .next t → (t).pending = s.pending := by
  intros; rename_i h; simp only [execSampleCheckEnd] at h; (repeat' split at h) <;> cases h <;> simp

theorem execSampleCheckEnd_frame_time :
    ∀ x0 x1 x2 x3 x4 s t, execSampleCheckEnd x0 x1 x2 x3 x4 s = .next t → (t).time = s.time := by
  intros; rename_i h; simp only [execSampleCheckEnd] at h; (repeat' split at h) <;> cases h <;> simp

theorem execSampleCheckEnd_frame_boxDie :
    ∀ x0 x1 x2 x3 x4 s t, execSampleCheckEnd x0 x1 x2 x3 x4 s = .next t → (t).boxDie = s.boxDie := by
  intros; rename_i h; simp only [execSampleCheckEnd] at h; (repeat' split at h) <;> cases h <;> simp

theorem execSampleCheckEnd_frame_fuses :
    ∀ x0 x1 x2 x3 x4 s t, execSampleCheckEnd x0 x1 x2 x3 x4 s = .next t → (t).fuses = s.fuses := by
  intros; rename_i h; simp only [execSampleCheckEnd] at h; (repeat' split at h) <;> cases h <;> simp

theorem execSampleCheckEnd_wf_dram :
    ∀ x0 x1 x2 x3 x4 s t, Memory.wf s.dram = true → execSampleCheckEnd x0 x1 x2 x3 x4 s = .next t → Memory.wf (t).dram = true := by
  intros; rename_i hw h; simp only [execSampleCheckEnd] at h; (repeat' split at h) <;> (simp only [Host.Outcome.next.injEq, reduceCtorEq] at h) <;> (subst h; simp +contextual [hw])

theorem execSampleCheckEnd_wf_ws :
    ∀ x0 x1 x2 x3 x4 s t, Memory.wf s.ws = true → execSampleCheckEnd x0 x1 x2 x3 x4 s = .next t → Memory.wf (t).ws = true := by
  intros; rename_i hw h; simp only [execSampleCheckEnd] at h; (repeat' split at h) <;> (simp only [Host.Outcome.next.injEq, reduceCtorEq] at h) <;> (subst h; simp +contextual [hw])

/-! ### PromOps -/

@[simp] theorem writeCtl_frame :
    ∀ x0 x1 s, (writeCtl x0 x1 s).pending = s.pending ∧ (writeCtl x0 x1 s).time = s.time ∧ (writeCtl x0 x1 s).boxDie = s.boxDie ∧ (writeCtl x0 x1 s).fuses = s.fuses ∧ (writeCtl x0 x1 s).dram = s.dram ∧ (writeCtl x0 x1 s).ws = s.ws := by
  intros; simp [writeCtl]

@[simp] theorem writeOps_frame :
    ∀ x0 s, (writeOps x0 s).pending = s.pending ∧ (writeOps x0 s).time = s.time ∧ (writeOps x0 s).boxDie = s.boxDie ∧ (writeOps x0 s).fuses = s.fuses ∧ (writeOps x0 s).dram = s.dram ∧ (writeOps x0 s).ws = s.ws := by
  intros; simp only [writeOps]; (repeat' split) <;> simp

@[simp] theorem runImage_frame :
    ∀ x0 x1 x2 x3 s, (runImage x0 x1 x2 x3 s).pending = s.pending ∧ (runImage x0 x1 x2 x3 s).time = s.time ∧ (runImage x0 x1 x2 x3 s).boxDie = s.boxDie ∧ (runImage x0 x1 x2 x3 s).fuses = s.fuses ∧ (runImage x0 x1 x2 x3 s).dram = s.dram ∧ (runImage x0 x1 x2 x3 s).ws = s.ws := by
  intros; simp [runImage]

@[simp] theorem setGate_frame :
    ∀ x0 s, (setGate x0 s).pending = s.pending ∧ (setGate x0 s).time = s.time ∧ (setGate x0 s).boxDie = s.boxDie ∧ (setGate x0 s).fuses = s.fuses ∧ (setGate x0 s).dram = s.dram ∧ (setGate x0 s).ws = s.ws := by
  intros; simp [setGate]

@[simp] theorem halt_frame :
    ∀ s, (halt s).pending = s.pending ∧ (halt s).time = s.time ∧ (halt s).boxDie = s.boxDie ∧ (halt s).fuses = s.fuses ∧ (halt s).dram = s.dram ∧ (halt s).ws = s.ws := by
  intros; simp [halt]

@[simp] theorem romKeys_frame :
    ∀ x0 s, (romKeys x0 s).pending = s.pending ∧ (romKeys x0 s).time = s.time ∧ (romKeys x0 s).boxDie = s.boxDie ∧ (romKeys x0 s).fuses = s.fuses ∧ (romKeys x0 s).dram = s.dram ∧ (romKeys x0 s).ws = s.ws := by
  intros; simp only [romKeys]; split <;> simp

@[simp] theorem chooseSlot_frame :
    ∀ x0 s, ((chooseSlot x0 s).2.2).pending = s.pending ∧ ((chooseSlot x0 s).2.2).time = s.time ∧ ((chooseSlot x0 s).2.2).boxDie = s.boxDie ∧ ((chooseSlot x0 s).2.2).fuses = s.fuses ∧ ((chooseSlot x0 s).2.2).dram = s.dram ∧ ((chooseSlot x0 s).2.2).ws = s.ws := by
  intros; simp only [chooseSlot]; (repeat' split) <;> simp

@[simp] theorem romBoot_frame :
    ∀ x0 x1 s, (romBoot x0 x1 s).pending = s.pending ∧ (romBoot x0 x1 s).time = s.time ∧ (romBoot x0 x1 s).boxDie = s.boxDie ∧ (romBoot x0 x1 s).fuses = s.fuses ∧ (romBoot x0 x1 s).dram = s.dram ∧ (romBoot x0 x1 s).ws = s.ws := by
  intros; simp [romBoot]

/-! ### Ether -/

@[simp] theorem modPtp_frame :
    ∀ x0 s, (modPtp x0 s).pending = s.pending ∧ (modPtp x0 s).time = s.time ∧ (modPtp x0 s).boxDie = s.boxDie ∧ (modPtp x0 s).fuses = s.fuses ∧ (modPtp x0 s).dram = s.dram ∧ (modPtp x0 s).ws = s.ws := by
  intros; simp [modPtp]

@[simp] theorem choosePort_frame :
    ∀ s, (choosePort s).pending = s.pending ∧ (choosePort s).time = s.time ∧ (choosePort s).boxDie = s.boxDie ∧ (choosePort s).fuses = s.fuses ∧ (choosePort s).dram = s.dram ∧ (choosePort s).ws = s.ws := by
  intros; simp [choosePort]

@[simp] theorem sendDelayReq_frame :
    ∀ x0 x1 s, (sendDelayReq x0 x1 s).pending = s.pending ∧ (sendDelayReq x0 x1 s).time = s.time ∧ (sendDelayReq x0 x1 s).boxDie = s.boxDie ∧ (sendDelayReq x0 x1 s).fuses = s.fuses ∧ (sendDelayReq x0 x1 s).dram = s.dram ∧ (sendDelayReq x0 x1 s).ws = s.ws := by
  intros; simp [sendDelayReq]

@[simp] theorem measure_frame :
    ∀ x0 x1 x2 s, (measure x0 x1 x2 s).pending = s.pending ∧ (measure x0 x1 x2 s).time = s.time ∧ (measure x0 x1 x2 s).boxDie = s.boxDie ∧ (measure x0 x1 x2 s).fuses = s.fuses ∧ (measure x0 x1 x2 s).dram = s.dram ∧ (measure x0 x1 x2 s).ws = s.ws := by
  intros; simp [measure]

theorem execHostLinkUp_frame :
    ∀ x0 s t, execHostLinkUp x0 s = .next t → (t).pending = s.pending ∧ (t).time = s.time ∧ (t).boxDie = s.boxDie ∧ (t).fuses = s.fuses ∧ (t).dram = s.dram ∧ (t).ws = s.ws := by
  intros; rename_i h; simp only [execHostLinkUp] at h; (repeat' split at h) <;> cases h <;> simp

theorem execHostLinkDown_frame :
    ∀ x0 s t, execHostLinkDown x0 s = .next t → (t).pending = s.pending ∧ (t).time = s.time ∧ (t).boxDie = s.boxDie ∧ (t).fuses = s.fuses ∧ (t).dram = s.dram ∧ (t).ws = s.ws := by
  intros; rename_i h; simp only [execHostLinkDown] at h; cases h; simp

theorem execDhcpTimeout_frame :
    ∀ x0 s t, execDhcpTimeout x0 s = .next t → (t).pending = s.pending ∧ (t).time = s.time ∧ (t).boxDie = s.boxDie ∧ (t).fuses = s.fuses ∧ (t).dram = s.dram ∧ (t).ws = s.ws := by
  intros; rename_i h; simp only [execDhcpTimeout] at h; (repeat' split at h) <;> cases h <;> simp

theorem execDhcpLease_frame :
    ∀ x0 x1 s t, execDhcpLease x0 x1 s = .next t → (t).pending = s.pending ∧ (t).time = s.time ∧ (t).boxDie = s.boxDie ∧ (t).fuses = s.fuses ∧ (t).dram = s.dram ∧ (t).ws = s.ws := by
  intros; rename_i h; simp only [execDhcpLease] at h; (repeat' split at h) <;> cases h <;> simp

theorem execArpRequest_frame :
    ∀ x0 x1 x2 x3 s t, execArpRequest x0 x1 x2 x3 s = .next t → (t).pending = s.pending ∧ (t).time = s.time ∧ (t).boxDie = s.boxDie ∧ (t).fuses = s.fuses ∧ (t).dram = s.dram ∧ (t).ws = s.ws := by
  intros; rename_i h; simp only [execArpRequest] at h; (repeat' split at h) <;> cases h <;> simp

theorem execNeighborDiscovery_frame :
    ∀ x0 x1 s t, execNeighborDiscovery x0 x1 s = .next t → (t).pending = s.pending ∧ (t).time = s.time ∧ (t).boxDie = s.boxDie ∧ (t).fuses = s.fuses ∧ (t).dram = s.dram ∧ (t).ws = s.ws := by
  intros; rename_i h; simp only [execNeighborDiscovery] at h; (repeat' split at h) <;> cases h <;> simp

theorem execDuplicateAddressDetection_frame :
    ∀ x0 x1 x2 s t, execDuplicateAddressDetection x0 x1 x2 s = .next t → (t).pending = s.pending ∧ (t).time = s.time ∧ (t).boxDie = s.boxDie ∧ (t).fuses = s.fuses ∧ (t).dram = s.dram ∧ (t).ws = s.ws := by
  intros; rename_i h; simp only [execDuplicateAddressDetection] at h; (repeat' split at h) <;> cases h <;> simp

theorem execIcmpEcho_frame :
    ∀ x0 x1 x2 x3 x4 s t, execIcmpEcho x0 x1 x2 x3 x4 s = .next t → (t).pending = s.pending ∧ (t).time = s.time ∧ (t).boxDie = s.boxDie ∧ (t).fuses = s.fuses ∧ (t).dram = s.dram ∧ (t).ws = s.ws := by
  intros; rename_i h; simp only [execIcmpEcho] at h; (repeat' split at h) <;> cases h <;> simp

theorem execLldpSend_frame :
    ∀ x0 s t, execLldpSend x0 s = .next t → (t).pending = s.pending ∧ (t).time = s.time ∧ (t).boxDie = s.boxDie ∧ (t).fuses = s.fuses ∧ (t).dram = s.dram ∧ (t).ws = s.ws := by
  intros; rename_i h; simp only [execLldpSend] at h; (repeat' split at h) <;> cases h <;> simp

theorem execLldpdu_frame :
    ∀ x0 x1 x2 s t, execLldpdu x0 x1 x2 s = .next t → (t).pending = s.pending ∧ (t).time = s.time ∧ (t).boxDie = s.boxDie ∧ (t).fuses = s.fuses ∧ (t).dram = s.dram ∧ (t).ws = s.ws := by
  intros; rename_i h; simp only [execLldpdu] at h; (repeat' split at h) <;> cases h <;> simp

theorem execSync_frame :
    ∀ x0 x1 x2 x3 x4 x5 x6 s t, execSync x0 x1 x2 x3 x4 x5 x6 s = .next t → (t).pending = s.pending ∧ (t).time = s.time ∧ (t).boxDie = s.boxDie ∧ (t).fuses = s.fuses ∧ (t).dram = s.dram ∧ (t).ws = s.ws := by
  intros; rename_i h; simp only [execSync] at h; (repeat' split at h) <;> (simp only [Host.Outcome.next.injEq, reduceCtorEq] at h) <;> (subst h; simp)

theorem execFollowUp_frame :
    ∀ x0 x1 x2 x3 x4 s t, execFollowUp x0 x1 x2 x3 x4 s = .next t → (t).pending = s.pending ∧ (t).time = s.time ∧ (t).boxDie = s.boxDie ∧ (t).fuses = s.fuses ∧ (t).dram = s.dram ∧ (t).ws = s.ws := by
  intros; rename_i h; simp only [execFollowUp] at h; (repeat' split at h) <;> (simp only [Host.Outcome.next.injEq, reduceCtorEq] at h) <;> (subst h; simp)

theorem execDelayResp_frame :
    ∀ x0 x1 x2 x3 x4 s t, execDelayResp x0 x1 x2 x3 x4 s = .next t → (t).pending = s.pending ∧ (t).time = s.time ∧ (t).boxDie = s.boxDie ∧ (t).fuses = s.fuses ∧ (t).dram = s.dram ∧ (t).ws = s.ws := by
  intros; rename_i h; simp only [execDelayResp] at h; (repeat' split at h) <;> (simp only [Host.Outcome.next.injEq, reduceCtorEq] at h) <;> (subst h; simp)

theorem execAnnounce_frame :
    ∀ x0 x1 s t, execAnnounce x0 x1 s = .next t → (t).pending = s.pending ∧ (t).time = s.time ∧ (t).boxDie = s.boxDie ∧ (t).fuses = s.fuses ∧ (t).dram = s.dram ∧ (t).ws = s.ws := by
  intros; rename_i h; simp only [execAnnounce] at h; (repeat' split at h) <;> cases h <;> simp

theorem execPtpSyncLoss_frame :
    ∀ s t, execPtpSyncLoss s = .next t → (t).pending = s.pending ∧ (t).time = s.time ∧ (t).boxDie = s.boxDie ∧ (t).fuses = s.fuses ∧ (t).dram = s.dram ∧ (t).ws = s.ws := by
  intros; rename_i h; simp only [execPtpSyncLoss] at h; (repeat' split at h) <;> cases h <;> simp

/-! ### Routes -/

@[simp] theorem setRoutes_frame :
    ∀ x0 s, (setRoutes x0 s).pending = s.pending ∧ (setRoutes x0 s).time = s.time ∧ (setRoutes x0 s).boxDie = s.boxDie ∧ (setRoutes x0 s).fuses = s.fuses ∧ (setRoutes x0 s).dram = s.dram ∧ (setRoutes x0 s).ws = s.ws := by
  intros; simp [setRoutes]

@[simp] theorem writeRoutes_frame :
    ∀ s, (writeRoutes s).pending = s.pending ∧ (writeRoutes s).time = s.time ∧ (writeRoutes s).boxDie = s.boxDie ∧ (writeRoutes s).fuses = s.fuses ∧ (writeRoutes s).dram = s.dram ∧ (writeRoutes s).ws = s.ws := by
  intros; unfold writeRoutes; (repeat' split) <;> simp

@[simp] theorem clearRoutes_frame :
    ∀ s, (clearRoutes s).pending = s.pending ∧ (clearRoutes s).time = s.time ∧ (clearRoutes s).boxDie = s.boxDie ∧ (clearRoutes s).fuses = s.fuses ∧ (clearRoutes s).dram = s.dram ∧ (clearRoutes s).ws = s.ws := by
  intros; simp [clearRoutes]

/-! ### LinkOps -/

@[simp] theorem pauseTimer_frame :
    ∀ x0 s, (pauseTimer x0 s).pending = s.pending ∧ (pauseTimer x0 s).time = s.time ∧ (pauseTimer x0 s).boxDie = s.boxDie ∧ (pauseTimer x0 s).fuses = s.fuses ∧ (pauseTimer x0 s).dram = s.dram ∧ (pauseTimer x0 s).ws = s.ws := by
  intros; simp [pauseTimer]

@[simp] theorem resumeTimer_frame :
    ∀ x0 s, (resumeTimer x0 s).pending = s.pending ∧ (resumeTimer x0 s).time = s.time ∧ (resumeTimer x0 s).boxDie = s.boxDie ∧ (resumeTimer x0 s).fuses = s.fuses ∧ (resumeTimer x0 s).dram = s.dram ∧ (resumeTimer x0 s).ws = s.ws := by
  intros; simp [resumeTimer]

@[simp] theorem linkEvent_frame :
    ∀ x0 x1 s, (linkEvent x0 x1 s).pending = s.pending ∧ (linkEvent x0 x1 s).time = s.time ∧ (linkEvent x0 x1 s).boxDie = s.boxDie ∧ (linkEvent x0 x1 s).fuses = s.fuses ∧ (linkEvent x0 x1 s).dram = s.dram ∧ (linkEvent x0 x1 s).ws = s.ws := by
  intros; simp [linkEvent]

@[simp] theorem setLink_frame :
    ∀ x0 x1 x2 s, (setLink x0 x1 x2 s).pending = s.pending ∧ (setLink x0 x1 x2 s).time = s.time ∧ (setLink x0 x1 x2 s).boxDie = s.boxDie ∧ (setLink x0 x1 x2 s).fuses = s.fuses ∧ (setLink x0 x1 x2 s).dram = s.dram ∧ (setLink x0 x1 x2 s).ws = s.ws := by
  intros; simp [setLink]

@[simp] theorem resendCall_frame :
    ∀ x0 s x2, (resendCall x0 s x2).pending = s.pending ∧ (resendCall x0 s x2).time = s.time ∧ (resendCall x0 s x2).boxDie = s.boxDie ∧ (resendCall x0 s x2).fuses = s.fuses ∧ (resendCall x0 s x2).dram = s.dram ∧ (resendCall x0 s x2).ws = s.ws := by
  intros; unfold resendCall; (repeat' split) <;> simp

@[simp] theorem resendSlot_frame :
    ∀ x0 s x2, (resendSlot x0 s x2).pending = s.pending ∧ (resendSlot x0 s x2).time = s.time ∧ (resendSlot x0 s x2).boxDie = s.boxDie ∧ (resendSlot x0 s x2).fuses = s.fuses ∧ (resendSlot x0 s x2).dram = s.dram ∧ (resendSlot x0 s x2).ws = s.ws := by
  intros; unfold resendSlot; (repeat' split) <;> simp

@[simp] theorem resendSeed_frame :
    ∀ x0 s x1, (resendSeed x0 s x1).pending = s.pending ∧ (resendSeed x0 s x1).time = s.time ∧ (resendSeed x0 s x1).boxDie = s.boxDie ∧ (resendSeed x0 s x1).fuses = s.fuses ∧ (resendSeed x0 s x1).dram = s.dram ∧ (resendSeed x0 s x1).ws = s.ws := by
  intros; unfold resendSeed; (repeat' split) <;> simp

@[simp] theorem resendPort_frame :
    ∀ x0 s, (resendPort x0 s).pending = s.pending ∧ (resendPort x0 s).time = s.time ∧ (resendPort x0 s).boxDie = s.boxDie ∧ (resendPort x0 s).fuses = s.fuses ∧ (resendPort x0 s).dram = s.dram ∧ (resendPort x0 s).ws = s.ws := by
  intros; simp [resendPort]

@[simp] theorem resendResult_frame :
    ∀ x0 s x2, (resendResult x0 s x2).pending = s.pending ∧ (resendResult x0 s x2).time = s.time ∧ (resendResult x0 s x2).boxDie = s.boxDie ∧ (resendResult x0 s x2).fuses = s.fuses ∧ (resendResult x0 s x2).dram = s.dram ∧ (resendResult x0 s x2).ws = s.ws := by
  intros; unfold resendResult; (repeat' split) <;> simp

@[simp] theorem resendResults_frame :
    ∀ x0 s, (resendResults x0 s).pending = s.pending ∧ (resendResults x0 s).time = s.time ∧ (resendResults x0 s).boxDie = s.boxDie ∧ (resendResults x0 s).fuses = s.fuses ∧ (resendResults x0 s).dram = s.dram ∧ (resendResults x0 s).ws = s.ws := by
  intros; simp [resendResults]

@[simp] theorem giveBack_frame :
    ∀ x0 x1 x2 x3 x4 s, (giveBack x0 x1 x2 x3 x4 s).pending = s.pending ∧ (giveBack x0 x1 x2 x3 x4 s).time = s.time ∧ (giveBack x0 x1 x2 x3 x4 s).boxDie = s.boxDie ∧ (giveBack x0 x1 x2 x3 x4 s).fuses = s.fuses ∧ (giveBack x0 x1 x2 x3 x4 s).dram = s.dram ∧ (giveBack x0 x1 x2 x3 x4 s).ws = s.ws := by
  intros; simp [giveBack]

@[simp] theorem giveBackUnacked_frame :
    ∀ x0 s x2, (giveBackUnacked x0 s x2).pending = s.pending ∧ (giveBackUnacked x0 s x2).time = s.time ∧ (giveBackUnacked x0 s x2).boxDie = s.boxDie ∧ (giveBackUnacked x0 s x2).fuses = s.fuses ∧ (giveBackUnacked x0 s x2).dram = s.dram ∧ (giveBackUnacked x0 s x2).ws = s.ws := by
  intros; simp [giveBackUnacked]

@[simp] theorem giveBackQueued_frame :
    ∀ x0 s x2, (giveBackQueued x0 s x2).pending = s.pending ∧ (giveBackQueued x0 s x2).time = s.time ∧ (giveBackQueued x0 s x2).boxDie = s.boxDie ∧ (giveBackQueued x0 s x2).fuses = s.fuses ∧ (giveBackQueued x0 s x2).dram = s.dram ∧ (giveBackQueued x0 s x2).ws = s.ws := by
  intros; simp [giveBackQueued]

@[simp] theorem giveBackWaiting_frame :
    ∀ x0 s, (giveBackWaiting x0 s).pending = s.pending ∧ (giveBackWaiting x0 s).time = s.time ∧ (giveBackWaiting x0 s).boxDie = s.boxDie ∧ (giveBackWaiting x0 s).fuses = s.fuses ∧ (giveBackWaiting x0 s).dram = s.dram ∧ (giveBackWaiting x0 s).ws = s.ws := by
  intros; simp [giveBackWaiting]

@[simp] theorem linkDown_frame_pending :
    ∀ x0 x1 s, (linkDown x0 x1 s).pending = s.pending := by
  intros; simp [linkDown]

@[simp] theorem linkDown_frame_time :
    ∀ x0 x1 s, (linkDown x0 x1 s).time = s.time := by
  intros; simp [linkDown]

@[simp] theorem linkDown_frame_boxDie :
    ∀ x0 x1 s, (linkDown x0 x1 s).boxDie = s.boxDie := by
  intros; simp [linkDown]

@[simp] theorem linkDown_frame_fuses :
    ∀ x0 x1 s, (linkDown x0 x1 s).fuses = s.fuses := by
  intros; simp [linkDown]

@[simp] theorem linkDown_wf_dram :
    ∀ x0 x1 s, Memory.wf s.dram = true → Memory.wf (linkDown x0 x1 s).dram = true := by
  intros; unfold linkDown; simp only []; (repeat' split) <;> simp +contextual [*]

@[simp] theorem linkDown_wf_ws :
    ∀ x0 x1 s, Memory.wf s.ws = true → Memory.wf (linkDown x0 x1 s).ws = true := by
  intros; unfold linkDown; simp only []; (repeat' split) <;> simp +contextual [*]

@[simp] theorem openLink_frame :
    ∀ x0 x1 s, (openLink x0 x1 s).pending = s.pending ∧ (openLink x0 x1 s).time = s.time ∧ (openLink x0 x1 s).boxDie = s.boxDie ∧ (openLink x0 x1 s).fuses = s.fuses ∧ (openLink x0 x1 s).dram = s.dram ∧ (openLink x0 x1 s).ws = s.ws := by
  intros; simp [openLink]

@[simp] theorem judge_frame :
    ∀ x0 s, (judge x0 s).pending = s.pending ∧ (judge x0 s).time = s.time ∧ (judge x0 s).boxDie = s.boxDie ∧ (judge x0 s).fuses = s.fuses ∧ (judge x0 s).dram = s.dram ∧ (judge x0 s).ws = s.ws := by
  intros; simp only [judge]; (repeat' split) <;> simp

@[simp] theorem judgeAll_frame :
    ∀ s, (judgeAll s).pending = s.pending ∧ (judgeAll s).time = s.time ∧ (judgeAll s).boxDie = s.boxDie ∧ (judgeAll s).fuses = s.fuses ∧ (judgeAll s).dram = s.dram ∧ (judgeAll s).ws = s.ws := by
  intros; simp [judgeAll]

@[simp] theorem rxError_frame :
    ∀ x0 s, (rxError x0 s).pending = s.pending ∧ (rxError x0 s).time = s.time ∧ (rxError x0 s).boxDie = s.boxDie ∧ (rxError x0 s).fuses = s.fuses ∧ (rxError x0 s).dram = s.dram ∧ (rxError x0 s).ws = s.ws := by
  intros; simp [rxError]

@[simp] theorem dropUnacked_frame :
    ∀ x0 x1 s, (dropUnacked x0 x1 s).pending = s.pending ∧ (dropUnacked x0 x1 s).time = s.time ∧ (dropUnacked x0 x1 s).boxDie = s.boxDie ∧ (dropUnacked x0 x1 s).fuses = s.fuses ∧ (dropUnacked x0 x1 s).dram = s.dram ∧ (dropUnacked x0 x1 s).ws = s.ws := by
  intros; simp [dropUnacked]

@[simp] theorem sendUnacked_frame_pending :
    ∀ x0 s x1, (sendUnacked x0 s x1).pending = s.pending := by
  intros; unfold sendUnacked; (repeat' split) <;> simp

@[simp] theorem sendUnacked_frame_time :
    ∀ x0 s x1, (sendUnacked x0 s x1).time = s.time := by
  intros; unfold sendUnacked; (repeat' split) <;> simp

@[simp] theorem sendUnacked_frame_boxDie :
    ∀ x0 s x1, (sendUnacked x0 s x1).boxDie = s.boxDie := by
  intros; unfold sendUnacked; (repeat' split) <;> simp

@[simp] theorem sendUnacked_frame_fuses :
    ∀ x0 s x1, (sendUnacked x0 s x1).fuses = s.fuses := by
  intros; unfold sendUnacked; (repeat' split) <;> simp

@[simp] theorem sendUnacked_wf_dram :
    ∀ x0 s x1, Memory.wf s.dram = true → Memory.wf (sendUnacked x0 s x1).dram = true := by
  intros; unfold sendUnacked; simp only []; (repeat' split) <;> simp +contextual [*]

@[simp] theorem sendUnacked_wf_ws :
    ∀ x0 s x1, Memory.wf s.ws = true → Memory.wf (sendUnacked x0 s x1).ws = true := by
  intros; unfold sendUnacked; simp only []; (repeat' split) <;> simp +contextual [*]

@[simp] theorem withBad_pending :
    ∀ x0 x1 f s, (withBad x0 x1 f s).pending = (f (modLink x0 (fun l => { l with badRead := x1 }) s)).pending := by
  intros; simp [withBad]

@[simp] theorem withBad_time :
    ∀ x0 x1 f s, (withBad x0 x1 f s).time = (f (modLink x0 (fun l => { l with badRead := x1 }) s)).time := by
  intros; simp [withBad]

@[simp] theorem withBad_boxDie :
    ∀ x0 x1 f s, (withBad x0 x1 f s).boxDie = (f (modLink x0 (fun l => { l with badRead := x1 }) s)).boxDie := by
  intros; simp [withBad]

@[simp] theorem withBad_fuses :
    ∀ x0 x1 f s, (withBad x0 x1 f s).fuses = (f (modLink x0 (fun l => { l with badRead := x1 }) s)).fuses := by
  intros; simp [withBad]

@[simp] theorem withBad_dram :
    ∀ x0 x1 f s, (withBad x0 x1 f s).dram = (f (modLink x0 (fun l => { l with badRead := x1 }) s)).dram := by
  intros; simp [withBad]

@[simp] theorem withBad_ws :
    ∀ x0 x1 f s, (withBad x0 x1 f s).ws = (f (modLink x0 (fun l => { l with badRead := x1 }) s)).ws := by
  intros; simp [withBad]

@[simp] theorem replay_frame_pending :
    ∀ x0 s, (replay x0 s).pending = s.pending := by
  intros; simp [replay]

@[simp] theorem replay_frame_time :
    ∀ x0 s, (replay x0 s).time = s.time := by
  intros; simp [replay]

@[simp] theorem replay_frame_boxDie :
    ∀ x0 s, (replay x0 s).boxDie = s.boxDie := by
  intros; simp [replay]

@[simp] theorem replay_frame_fuses :
    ∀ x0 s, (replay x0 s).fuses = s.fuses := by
  intros; simp [replay]

@[simp] theorem replay_wf_dram :
    ∀ x0 s, Memory.wf s.dram = true → Memory.wf (replay x0 s).dram = true := by
  intros; unfold replay; simp only []; (repeat' split) <;> simp +contextual [*]

@[simp] theorem replay_wf_ws :
    ∀ x0 s, Memory.wf s.ws = true → Memory.wf (replay x0 s).ws = true := by
  intros; unfold replay; simp only []; (repeat' split) <;> simp +contextual [*]

@[simp] theorem replayOrDown_frame_pending :
    ∀ x0 s, (replayOrDown x0 s).pending = s.pending := by
  intros; simp only [replayOrDown]; (repeat' split) <;> simp

@[simp] theorem replayOrDown_frame_time :
    ∀ x0 s, (replayOrDown x0 s).time = s.time := by
  intros; simp only [replayOrDown]; (repeat' split) <;> simp

@[simp] theorem replayOrDown_frame_boxDie :
    ∀ x0 s, (replayOrDown x0 s).boxDie = s.boxDie := by
  intros; simp only [replayOrDown]; (repeat' split) <;> simp

@[simp] theorem replayOrDown_frame_fuses :
    ∀ x0 s, (replayOrDown x0 s).fuses = s.fuses := by
  intros; simp only [replayOrDown]; (repeat' split) <;> simp

@[simp] theorem replayOrDown_wf_dram :
    ∀ x0 s, Memory.wf s.dram = true → Memory.wf (replayOrDown x0 s).dram = true := by
  intros; unfold replayOrDown; simp only []; (repeat' split) <;> simp +contextual [*]

@[simp] theorem replayOrDown_wf_ws :
    ∀ x0 s, Memory.wf s.ws = true → Memory.wf (replayOrDown x0 s).ws = true := by
  intros; unfold replayOrDown; simp only []; (repeat' split) <;> simp +contextual [*]

@[simp] theorem freeAcked_frame :
    ∀ x0 x1 x2 s, (freeAcked x0 x1 x2 s).pending = s.pending ∧ (freeAcked x0 x1 x2 s).time = s.time ∧ (freeAcked x0 x1 x2 s).boxDie = s.boxDie ∧ (freeAcked x0 x1 x2 s).fuses = s.fuses ∧ (freeAcked x0 x1 x2 s).dram = s.dram ∧ (freeAcked x0 x1 x2 s).ws = s.ws := by
  intros; simp [freeAcked]

@[simp] theorem takeAck_frame :
    ∀ x0 x1 x2 s, ((takeAck x0 x1 x2 s).2).pending = s.pending ∧ ((takeAck x0 x1 x2 s).2).time = s.time ∧ ((takeAck x0 x1 x2 s).2).boxDie = s.boxDie ∧ ((takeAck x0 x1 x2 s).2).fuses = s.fuses ∧ ((takeAck x0 x1 x2 s).2).dram = s.dram ∧ ((takeAck x0 x1 x2 s).2).ws = s.ws := by
  intros; simp only [takeAck]; (repeat' split) <;> simp

@[simp] theorem takeNak_frame_pending :
    ∀ x0 x1 s, (takeNak x0 x1 s).pending = s.pending := by
  intros; simp [takeNak]

@[simp] theorem takeNak_frame_time :
    ∀ x0 x1 s, (takeNak x0 x1 s).time = s.time := by
  intros; simp [takeNak]

@[simp] theorem takeNak_frame_boxDie :
    ∀ x0 x1 s, (takeNak x0 x1 s).boxDie = s.boxDie := by
  intros; simp [takeNak]

@[simp] theorem takeNak_frame_fuses :
    ∀ x0 x1 s, (takeNak x0 x1 s).fuses = s.fuses := by
  intros; simp [takeNak]

@[simp] theorem takeNak_wf_dram :
    ∀ x0 x1 s, Memory.wf s.dram = true → Memory.wf (takeNak x0 x1 s).dram = true := by
  intros; unfold takeNak; simp only []; (repeat' split) <;> simp +contextual [*]

@[simp] theorem takeNak_wf_ws :
    ∀ x0 x1 s, Memory.wf s.ws = true → Memory.wf (takeNak x0 x1 s).ws = true := by
  intros; unfold takeNak; simp only []; (repeat' split) <;> simp +contextual [*]

@[simp] theorem linkInfo_frame_pending :
    ∀ x0 x1 s, (linkInfo x0 x1 s).pending = s.pending := by
  intros; simp [linkInfo]

@[simp] theorem linkInfo_frame_time :
    ∀ x0 x1 s, (linkInfo x0 x1 s).time = s.time := by
  intros; simp [linkInfo]

@[simp] theorem linkInfo_frame_boxDie :
    ∀ x0 x1 s, (linkInfo x0 x1 s).boxDie = s.boxDie := by
  intros; simp [linkInfo]

@[simp] theorem linkInfo_frame_fuses :
    ∀ x0 x1 s, (linkInfo x0 x1 s).fuses = s.fuses := by
  intros; simp [linkInfo]

@[simp] theorem linkInfo_wf_dram :
    ∀ x0 x1 s, Memory.wf s.dram = true → Memory.wf (linkInfo x0 x1 s).dram = true := by
  intros; unfold linkInfo; simp only []; (repeat' split) <;> simp +contextual [*]

@[simp] theorem linkInfo_wf_ws :
    ∀ x0 x1 s, Memory.wf s.ws = true → Memory.wf (linkInfo x0 x1 s).ws = true := by
  intros; unfold linkInfo; simp only []; (repeat' split) <;> simp +contextual [*]

@[simp] theorem enterRollcall_frame :
    ∀ x0 x1 s, (enterRollcall x0 x1 s).pending = s.pending ∧ (enterRollcall x0 x1 s).time = s.time ∧ (enterRollcall x0 x1 s).boxDie = s.boxDie ∧ (enterRollcall x0 x1 s).fuses = s.fuses ∧ (enterRollcall x0 x1 s).dram = s.dram ∧ (enterRollcall x0 x1 s).ws = s.ws := by
  intros; simp [enterRollcall]

@[simp] theorem helloArrive_frame_pending :
    ∀ x0 x1 s, (helloArrive x0 x1 s).pending = s.pending := by
  intros; simp only [helloArrive]; (repeat' split) <;> simp

@[simp] theorem helloArrive_frame_time :
    ∀ x0 x1 s, (helloArrive x0 x1 s).time = s.time := by
  intros; simp only [helloArrive]; (repeat' split) <;> simp

@[simp] theorem helloArrive_frame_boxDie :
    ∀ x0 x1 s, (helloArrive x0 x1 s).boxDie = s.boxDie := by
  intros; simp only [helloArrive]; (repeat' split) <;> simp

@[simp] theorem helloArrive_frame_fuses :
    ∀ x0 x1 s, (helloArrive x0 x1 s).fuses = s.fuses := by
  intros; simp only [helloArrive]; (repeat' split) <;> simp

@[simp] theorem helloArrive_wf_dram :
    ∀ x0 x1 s, Memory.wf s.dram = true → Memory.wf (helloArrive x0 x1 s).dram = true := by
  intros; unfold helloArrive; simp only []; (repeat' split) <;> simp +contextual [*]

@[simp] theorem helloArrive_wf_ws :
    ∀ x0 x1 s, Memory.wf s.ws = true → Memory.wf (helloArrive x0 x1 s).ws = true := by
  intros; unfold helloArrive; simp only []; (repeat' split) <;> simp +contextual [*]

@[simp] theorem rollArrive_frame :
    ∀ x0 x1 s, (rollArrive x0 x1 s).pending = s.pending ∧ (rollArrive x0 x1 s).time = s.time ∧ (rollArrive x0 x1 s).boxDie = s.boxDie ∧ (rollArrive x0 x1 s).fuses = s.fuses ∧ (rollArrive x0 x1 s).dram = s.dram ∧ (rollArrive x0 x1 s).ws = s.ws := by
  intros; simp only [rollArrive]; (repeat' split) <;> simp

@[simp] theorem takeControl_frame_pending :
    ∀ x0 x1 s, (takeControl x0 x1 s).pending = s.pending := by
  intros; unfold takeControl; (repeat' split) <;> simp

@[simp] theorem takeControl_frame_time :
    ∀ x0 x1 s, (takeControl x0 x1 s).time = s.time := by
  intros; unfold takeControl; (repeat' split) <;> simp

@[simp] theorem takeControl_frame_boxDie :
    ∀ x0 x1 s, (takeControl x0 x1 s).boxDie = s.boxDie := by
  intros; unfold takeControl; (repeat' split) <;> simp

@[simp] theorem takeControl_frame_fuses :
    ∀ x0 x1 s, (takeControl x0 x1 s).fuses = s.fuses := by
  intros; unfold takeControl; (repeat' split) <;> simp

@[simp] theorem takeControl_wf_dram :
    ∀ x0 x1 s, Memory.wf s.dram = true → Memory.wf (takeControl x0 x1 s).dram = true := by
  intros; unfold takeControl; (repeat' split) <;> simp +contextual [*]

@[simp] theorem takeControl_wf_ws :
    ∀ x0 x1 s, Memory.wf s.ws = true → Memory.wf (takeControl x0 x1 s).ws = true := by
  intros; unfold takeControl; (repeat' split) <;> simp +contextual [*]

@[simp] theorem countBad_frame :
    ∀ x0 s, (countBad x0 s).pending = s.pending ∧ (countBad x0 s).time = s.time ∧ (countBad x0 s).boxDie = s.boxDie ∧ (countBad x0 s).fuses = s.fuses ∧ (countBad x0 s).dram = s.dram ∧ (countBad x0 s).ws = s.ws := by
  intros; simp [countBad]

@[simp] theorem judgeFrame_frame :
    ∀ x0 x1 x2 x3 x4 x5 s, (judgeFrame x0 x1 x2 x3 x4 x5 s).pending = s.pending ∧ (judgeFrame x0 x1 x2 x3 x4 x5 s).time = s.time ∧ (judgeFrame x0 x1 x2 x3 x4 x5 s).boxDie = s.boxDie ∧ (judgeFrame x0 x1 x2 x3 x4 x5 s).fuses = s.fuses ∧ (judgeFrame x0 x1 x2 x3 x4 x5 s).dram = s.dram ∧ (judgeFrame x0 x1 x2 x3 x4 x5 s).ws = s.ws := by
  intros; simp [judgeFrame]

@[simp] theorem linkReceive_frame : ∀ x0 n l s, (linkReceive x0 n l s).pending = s.pending ∧ (linkReceive x0 n l s).time = s.time ∧ (linkReceive x0 n l s).boxDie = s.boxDie ∧ (linkReceive x0 n l s).fuses = s.fuses := by
  intro p n; induction n with
  | zero => intros; simp [linkReceive]
  | succ n ih =>
    intro l s
    cases l with
    | nil => simp [linkReceive]
    | cons c r => simp only [linkReceive]; (repeat' split) <;> simp [ih]

theorem linkReceive_wf : ∀ x0 n l s, (Memory.wf s.dram = true → Memory.wf (linkReceive x0 n l s).dram = true) ∧ (Memory.wf s.ws = true → Memory.wf (linkReceive x0 n l s).ws = true) := by
  intro p n; induction n with
  | zero => intros; simp [linkReceive]
  | succ n ih =>
    intro l s
    cases l with
    | nil => simp [linkReceive]
    | cons c r => constructor <;> intro hw <;> simp only [linkReceive] <;> (repeat' split) <;> simp [ih, hw]

@[simp] theorem linkReceive_wf_dram : ∀ x0 n l s, Memory.wf s.dram = true → Memory.wf (linkReceive x0 n l s).dram = true := fun a b c d => (linkReceive_wf a b c d).1

@[simp] theorem linkReceive_wf_ws : ∀ x0 n l s, Memory.wf s.ws = true → Memory.wf (linkReceive x0 n l s).ws = true := fun a b c d => (linkReceive_wf a b c d).2

/-! ### Switch -/

@[simp] theorem settleDrr_frame :
    ∀ x0 x1 s, (settleDrr x0 x1 s).pending = s.pending ∧ (settleDrr x0 x1 s).time = s.time ∧ (settleDrr x0 x1 s).boxDie = s.boxDie ∧ (settleDrr x0 x1 s).fuses = s.fuses ∧ (settleDrr x0 x1 s).dram = s.dram ∧ (settleDrr x0 x1 s).ws = s.ws := by
  intros; unfold settleDrr; (repeat' split) <;> simp

@[simp] theorem enqueue_frame :
    ∀ x0 s, (enqueue x0 s).pending = s.pending ∧ (enqueue x0 s).time = s.time ∧ (enqueue x0 s).boxDie = s.boxDie ∧ (enqueue x0 s).fuses = s.fuses ∧ (enqueue x0 s).dram = s.dram ∧ (enqueue x0 s).ws = s.ws := by
  intros; simp [enqueue]

@[simp] theorem releaseNext_frame :
    ∀ x0 x1 s, ((releaseNext x0 x1 s).2).pending = s.pending ∧ ((releaseNext x0 x1 s).2).time = s.time ∧ ((releaseNext x0 x1 s).2).boxDie = s.boxDie ∧ ((releaseNext x0 x1 s).2).fuses = s.fuses ∧ ((releaseNext x0 x1 s).2).dram = s.dram ∧ ((releaseNext x0 x1 s).2).ws = s.ws := by
  intros; fun_induction releaseNext <;> simp_all

@[simp] theorem setCtx_frame :
    ∀ x0 s, (setCtx x0 s).pending = s.pending ∧ (setCtx x0 s).time = s.time ∧ (setCtx x0 s).boxDie = s.boxDie ∧ (setCtx x0 s).fuses = s.fuses ∧ (setCtx x0 s).dram = s.dram ∧ (setCtx x0 s).ws = s.ws := by
  intros; simp [setCtx]

@[simp] theorem reorderFrame_frame :
    ∀ x0 x1 s, (reorderFrame x0 x1 s).pending = s.pending ∧ (reorderFrame x0 x1 s).time = s.time ∧ (reorderFrame x0 x1 s).boxDie = s.boxDie ∧ (reorderFrame x0 x1 s).fuses = s.fuses ∧ (reorderFrame x0 x1 s).dram = s.dram ∧ (reorderFrame x0 x1 s).ws = s.ws := by
  intros; simp only [reorderFrame]; (repeat' split) <;> simp

theorem execFrameAtOutput_frame :
    ∀ x0 x1 x2 s t, execFrameAtOutput x0 x1 x2 s = .next t → (t).pending = s.pending ∧ (t).time = s.time ∧ (t).boxDie = s.boxDie ∧ (t).fuses = s.fuses ∧ (t).dram = s.dram ∧ (t).ws = s.ws := by
  intros; rename_i h; simp only [execFrameAtOutput] at h; (repeat' split at h) <;> cases h <;> simp

theorem execReorderTimeout_frame :
    ∀ x0 x1 x2 s t, execReorderTimeout x0 x1 x2 s = .next t → (t).pending = s.pending ∧ (t).time = s.time ∧ (t).boxDie = s.boxDie ∧ (t).fuses = s.fuses ∧ (t).dram = s.dram ∧ (t).ws = s.ws := by
  intros; rename_i h; simp only [execReorderTimeout] at h; (repeat' split at h) <;> cases h <;> simp

theorem execReorderContextFree_frame :
    ∀ x0 x1 x2 s t, execReorderContextFree x0 x1 x2 s = .next t → (t).pending = s.pending ∧ (t).time = s.time ∧ (t).boxDie = s.boxDie ∧ (t).fuses = s.fuses ∧ (t).dram = s.dram ∧ (t).ws = s.ws := by
  intros; rename_i h; simp only [execReorderContextFree] at h; (repeat' split at h) <;> cases h <;> simp

@[simp] theorem popHead_frame :
    ∀ x0 x1 s, (popHead x0 x1 s).pending = s.pending ∧ (popHead x0 x1 s).time = s.time ∧ (popHead x0 x1 s).boxDie = s.boxDie ∧ (popHead x0 x1 s).fuses = s.fuses ∧ (popHead x0 x1 s).dram = s.dram ∧ (popHead x0 x1 s).ws = s.ws := by
  intros; simp [popHead]

@[simp] theorem ageOut_frame :
    ∀ x0 x1 x2 s, (ageOut x0 x1 x2 s).pending = s.pending ∧ (ageOut x0 x1 x2 s).time = s.time ∧ (ageOut x0 x1 x2 s).boxDie = s.boxDie ∧ (ageOut x0 x1 x2 s).fuses = s.fuses ∧ (ageOut x0 x1 x2 s).dram = s.dram ∧ (ageOut x0 x1 x2 s).ws = s.ws := by
  intro o c k; induction k with | zero => intros; simp [ageOut] | succ k ih => intro s; simp only [ageOut]; (repeat' split) <;> simp [ih]

@[simp] theorem pickClass_frame :
    ∀ s x1, ((pickClass s x1).2).pending = s.pending ∧ ((pickClass s x1).2).time = s.time ∧ ((pickClass s x1).2).boxDie = s.boxDie ∧ ((pickClass s x1).2).fuses = s.fuses ∧ ((pickClass s x1).2).dram = s.dram ∧ ((pickClass s x1).2).ws = s.ws := by
  intros; unfold pickClass; (repeat' split) <;> simp

@[simp] theorem startFrame_frame :
    ∀ x0 x1 s, (startFrame x0 x1 s).pending = s.pending ∧ (startFrame x0 x1 s).time = s.time ∧ (startFrame x0 x1 s).boxDie = s.boxDie ∧ (startFrame x0 x1 s).fuses = s.fuses ∧ (startFrame x0 x1 s).dram = s.dram ∧ (startFrame x0 x1 s).ws = s.ws := by
  intros; simp [startFrame]

theorem execHistoryUpdate_frame :
    ∀ s t, execHistoryUpdate s = .next t → (t).pending = s.pending ∧ (t).time = s.time ∧ (t).boxDie = s.boxDie ∧ (t).fuses = s.fuses ∧ (t).dram = s.dram ∧ (t).ws = s.ws := by
  intros; rename_i h; simp only [execHistoryUpdate] at h; (repeat' split at h) <;> cases h <;> simp

theorem execQueueSample_frame :
    ∀ s t, execQueueSample s = .next t → (t).pending = s.pending ∧ (t).time = s.time ∧ (t).boxDie = s.boxDie ∧ (t).fuses = s.fuses ∧ (t).dram = s.dram ∧ (t).ws = s.ws := by
  intros; rename_i h; simp only [execQueueSample] at h; (repeat' split at h) <;> cases h <;> simp

theorem execUser_frame :
    ∀ x0 x1 s t, execUser x0 x1 s = .next t → (t).pending = s.pending ∧ (t).time = s.time ∧ (t).boxDie = s.boxDie ∧ (t).fuses = s.fuses ∧ (t).dram = s.dram ∧ (t).ws = s.ws := by
  intros; rename_i h; simp only [execUser] at h; (repeat' split at h) <;> (simp only [Host.Outcome.next.injEq, reduceCtorEq] at h) <;> (subst h; simp)

/-! ### Link -/

@[simp] theorem takeCells_frame_pending :
    ∀ x0 x1 s, (takeCells x0 x1 s).pending = s.pending := by
  intros; simp [takeCells]

@[simp] theorem takeCells_frame_time :
    ∀ x0 x1 s, (takeCells x0 x1 s).time = s.time := by
  intros; simp [takeCells]

@[simp] theorem takeCells_frame_boxDie :
    ∀ x0 x1 s, (takeCells x0 x1 s).boxDie = s.boxDie := by
  intros; simp [takeCells]

@[simp] theorem takeCells_frame_fuses :
    ∀ x0 x1 s, (takeCells x0 x1 s).fuses = s.fuses := by
  intros; simp [takeCells]

@[simp] theorem takeCells_wf_dram :
    ∀ x0 x1 s, Memory.wf s.dram = true → Memory.wf (takeCells x0 x1 s).dram = true := by
  intros; simp +contextual [takeCells, *]

@[simp] theorem takeCells_wf_ws :
    ∀ x0 x1 s, Memory.wf s.ws = true → Memory.wf (takeCells x0 x1 s).ws = true := by
  intros; simp +contextual [takeCells, *]

theorem execDataFrame_frame_pending :
    ∀ x0 x1 s t, execDataFrame x0 x1 s = .next t → (t).pending = s.pending := by
  intros; rename_i h; simp only [execDataFrame] at h; (repeat' split at h) <;> (simp only [Host.Outcome.next.injEq, reduceCtorEq] at h) <;> (subst h; simp)

theorem execDataFrame_frame_time :
    ∀ x0 x1 s t, execDataFrame x0 x1 s = .next t → (t).time = s.time := by
  intros; rename_i h; simp only [execDataFrame] at h; (repeat' split at h) <;> (simp only [Host.Outcome.next.injEq, reduceCtorEq] at h) <;> (subst h; simp)

theorem execDataFrame_frame_boxDie :
    ∀ x0 x1 s t, execDataFrame x0 x1 s = .next t → (t).boxDie = s.boxDie := by
  intros; rename_i h; simp only [execDataFrame] at h; (repeat' split at h) <;> (simp only [Host.Outcome.next.injEq, reduceCtorEq] at h) <;> (subst h; simp)

theorem execDataFrame_frame_fuses :
    ∀ x0 x1 s t, execDataFrame x0 x1 s = .next t → (t).fuses = s.fuses := by
  intros; rename_i h; simp only [execDataFrame] at h; (repeat' split at h) <;> (simp only [Host.Outcome.next.injEq, reduceCtorEq] at h) <;> (subst h; simp)

theorem execDataFrame_wf_dram :
    ∀ x0 x1 s t, Memory.wf s.dram = true → execDataFrame x0 x1 s = .next t → Memory.wf (t).dram = true := by
  intros; rename_i hw h; simp only [execDataFrame] at h; (repeat' split at h) <;> (simp only [Host.Outcome.next.injEq, reduceCtorEq] at h) <;> (subst h; simp +contextual [hw])

theorem execDataFrame_wf_ws :
    ∀ x0 x1 s t, Memory.wf s.ws = true → execDataFrame x0 x1 s = .next t → Memory.wf (t).ws = true := by
  intros; rename_i hw h; simp only [execDataFrame] at h; (repeat' split at h) <;> (simp only [Host.Outcome.next.injEq, reduceCtorEq] at h) <;> (subst h; simp +contextual [hw])

theorem execLinkCell_frame_pending :
    ∀ x0 s t, execLinkCell x0 s = .next t → (t).pending = s.pending := by
  intros; rename_i h; simp only [execLinkCell] at h; (repeat' split at h) <;> (simp only [Host.Outcome.next.injEq, reduceCtorEq] at h) <;> (subst h; simp)

theorem execLinkCell_frame_time :
    ∀ x0 s t, execLinkCell x0 s = .next t → (t).time = s.time := by
  intros; rename_i h; simp only [execLinkCell] at h; (repeat' split at h) <;> (simp only [Host.Outcome.next.injEq, reduceCtorEq] at h) <;> (subst h; simp)

theorem execLinkCell_frame_boxDie :
    ∀ x0 s t, execLinkCell x0 s = .next t → (t).boxDie = s.boxDie := by
  intros; rename_i h; simp only [execLinkCell] at h; (repeat' split at h) <;> (simp only [Host.Outcome.next.injEq, reduceCtorEq] at h) <;> (subst h; simp)

theorem execLinkCell_frame_fuses :
    ∀ x0 s t, execLinkCell x0 s = .next t → (t).fuses = s.fuses := by
  intros; rename_i h; simp only [execLinkCell] at h; (repeat' split at h) <;> (simp only [Host.Outcome.next.injEq, reduceCtorEq] at h) <;> (subst h; simp)

theorem execLinkCell_wf_dram :
    ∀ x0 s t, Memory.wf s.dram = true → execLinkCell x0 s = .next t → Memory.wf (t).dram = true := by
  intros; rename_i hw h; simp only [execLinkCell] at h; (repeat' split at h) <;> (simp only [Host.Outcome.next.injEq, reduceCtorEq] at h) <;> (subst h; simp +contextual [hw])

theorem execLinkCell_wf_ws :
    ∀ x0 s t, Memory.wf s.ws = true → execLinkCell x0 s = .next t → Memory.wf (t).ws = true := by
  intros; rename_i hw h; simp only [execLinkCell] at h; (repeat' split at h) <;> (simp only [Host.Outcome.next.injEq, reduceCtorEq] at h) <;> (subst h; simp +contextual [hw])

theorem execHello_frame_pending :
    ∀ x0 s t, execHello x0 s = .next t → (t).pending = s.pending := by
  intros; rename_i h; simp only [execHello] at h; (repeat' split at h) <;> (simp only [Host.Outcome.next.injEq, reduceCtorEq] at h) <;> (subst h; simp)

theorem execHello_frame_time :
    ∀ x0 s t, execHello x0 s = .next t → (t).time = s.time := by
  intros; rename_i h; simp only [execHello] at h; (repeat' split at h) <;> (simp only [Host.Outcome.next.injEq, reduceCtorEq] at h) <;> (subst h; simp)

theorem execHello_frame_boxDie :
    ∀ x0 s t, execHello x0 s = .next t → (t).boxDie = s.boxDie := by
  intros; rename_i h; simp only [execHello] at h; (repeat' split at h) <;> (simp only [Host.Outcome.next.injEq, reduceCtorEq] at h) <;> (subst h; simp)

theorem execHello_frame_fuses :
    ∀ x0 s t, execHello x0 s = .next t → (t).fuses = s.fuses := by
  intros; rename_i h; simp only [execHello] at h; (repeat' split at h) <;> (simp only [Host.Outcome.next.injEq, reduceCtorEq] at h) <;> (subst h; simp)

theorem execHello_wf_dram :
    ∀ x0 s t, Memory.wf s.dram = true → execHello x0 s = .next t → Memory.wf (t).dram = true := by
  intros; rename_i hw h; simp only [execHello] at h; (repeat' split at h) <;> (simp only [Host.Outcome.next.injEq, reduceCtorEq] at h) <;> (subst h; simp +contextual [hw])

theorem execHello_wf_ws :
    ∀ x0 s t, Memory.wf s.ws = true → execHello x0 s = .next t → Memory.wf (t).ws = true := by
  intros; rename_i hw h; simp only [execHello] at h; (repeat' split at h) <;> (simp only [Host.Outcome.next.injEq, reduceCtorEq] at h) <;> (subst h; simp +contextual [hw])

theorem execRollcall_frame_pending :
    ∀ x0 s t, execRollcall x0 s = .next t → (t).pending = s.pending := by
  intros; rename_i h; simp only [execRollcall] at h; (repeat' split at h) <;> (simp only [Host.Outcome.next.injEq, reduceCtorEq] at h) <;> (subst h; simp)

theorem execRollcall_frame_time :
    ∀ x0 s t, execRollcall x0 s = .next t → (t).time = s.time := by
  intros; rename_i h; simp only [execRollcall] at h; (repeat' split at h) <;> (simp only [Host.Outcome.next.injEq, reduceCtorEq] at h) <;> (subst h; simp)

theorem execRollcall_frame_boxDie :
    ∀ x0 s t, execRollcall x0 s = .next t → (t).boxDie = s.boxDie := by
  intros; rename_i h; simp only [execRollcall] at h; (repeat' split at h) <;> (simp only [Host.Outcome.next.injEq, reduceCtorEq] at h) <;> (subst h; simp)

theorem execRollcall_frame_fuses :
    ∀ x0 s t, execRollcall x0 s = .next t → (t).fuses = s.fuses := by
  intros; rename_i h; simp only [execRollcall] at h; (repeat' split at h) <;> (simp only [Host.Outcome.next.injEq, reduceCtorEq] at h) <;> (subst h; simp)

theorem execRollcall_wf_dram :
    ∀ x0 s t, Memory.wf s.dram = true → execRollcall x0 s = .next t → Memory.wf (t).dram = true := by
  intros; rename_i hw h; simp only [execRollcall] at h; (repeat' split at h) <;> (simp only [Host.Outcome.next.injEq, reduceCtorEq] at h) <;> (subst h; simp +contextual [hw])

theorem execRollcall_wf_ws :
    ∀ x0 s t, Memory.wf s.ws = true → execRollcall x0 s = .next t → Memory.wf (t).ws = true := by
  intros; rename_i hw h; simp only [execRollcall] at h; (repeat' split at h) <;> (simp only [Host.Outcome.next.injEq, reduceCtorEq] at h) <;> (subst h; simp +contextual [hw])

theorem execLinkCellSend_frame :
    ∀ x0 s t, execLinkCellSend x0 s = .next t → (t).pending = s.pending ∧ (t).time = s.time ∧ (t).boxDie = s.boxDie ∧ (t).fuses = s.fuses ∧ (t).dram = s.dram ∧ (t).ws = s.ws := by
  intros; rename_i h; simp only [execLinkCellSend] at h; (repeat' split at h) <;> cases h <;> simp

theorem execHelloSend_frame :
    ∀ x0 s t, execHelloSend x0 s = .next t → (t).pending = s.pending ∧ (t).time = s.time ∧ (t).boxDie = s.boxDie ∧ (t).fuses = s.fuses ∧ (t).dram = s.dram ∧ (t).ws = s.ws := by
  intros; rename_i h; simp only [execHelloSend] at h; (repeat' split at h) <;> cases h <;> simp

theorem execRollcallSend_frame :
    ∀ x0 s t, execRollcallSend x0 s = .next t → (t).pending = s.pending ∧ (t).time = s.time ∧ (t).boxDie = s.boxDie ∧ (t).fuses = s.fuses ∧ (t).dram = s.dram ∧ (t).ws = s.ws := by
  intros; rename_i h; simp only [execRollcallSend] at h; (repeat' split at h) <;> cases h <;> simp

theorem execReplayTimeout_frame_pending :
    ∀ x0 s t, execReplayTimeout x0 s = .next t → (t).pending = s.pending := by
  intros; rename_i h; simp only [execReplayTimeout] at h; (repeat' split at h) <;> cases h <;> simp

theorem execReplayTimeout_frame_time :
    ∀ x0 s t, execReplayTimeout x0 s = .next t → (t).time = s.time := by
  intros; rename_i h; simp only [execReplayTimeout] at h; (repeat' split at h) <;> cases h <;> simp

theorem execReplayTimeout_frame_boxDie :
    ∀ x0 s t, execReplayTimeout x0 s = .next t → (t).boxDie = s.boxDie := by
  intros; rename_i h; simp only [execReplayTimeout] at h; (repeat' split at h) <;> cases h <;> simp

theorem execReplayTimeout_frame_fuses :
    ∀ x0 s t, execReplayTimeout x0 s = .next t → (t).fuses = s.fuses := by
  intros; rename_i h; simp only [execReplayTimeout] at h; (repeat' split at h) <;> cases h <;> simp

theorem execReplayTimeout_wf_dram :
    ∀ x0 s t, Memory.wf s.dram = true → execReplayTimeout x0 s = .next t → Memory.wf (t).dram = true := by
  intros; rename_i hw h; simp only [execReplayTimeout] at h; (repeat' split at h) <;> (simp only [Host.Outcome.next.injEq, reduceCtorEq] at h) <;> (subst h; simp +contextual [hw])

theorem execReplayTimeout_wf_ws :
    ∀ x0 s t, Memory.wf s.ws = true → execReplayTimeout x0 s = .next t → Memory.wf (t).ws = true := by
  intros; rename_i hw h; simp only [execReplayTimeout] at h; (repeat' split at h) <;> (simp only [Host.Outcome.next.injEq, reduceCtorEq] at h) <;> (subst h; simp +contextual [hw])

theorem execPortUp_frame :
    ∀ x0 s t, execPortUp x0 s = .next t → (t).pending = s.pending ∧ (t).time = s.time ∧ (t).boxDie = s.boxDie ∧ (t).fuses = s.fuses ∧ (t).dram = s.dram ∧ (t).ws = s.ws := by
  intros; rename_i h; simp only [execPortUp] at h; (repeat' split at h) <;> cases h <;> simp

theorem execPortDown_frame_pending :
    ∀ x0 s t, execPortDown x0 s = .next t → (t).pending = s.pending := by
  intros; rename_i h; simp only [execPortDown] at h; (repeat' split at h) <;> cases h <;> simp

theorem execPortDown_frame_time :
    ∀ x0 s t, execPortDown x0 s = .next t → (t).time = s.time := by
  intros; rename_i h; simp only [execPortDown] at h; (repeat' split at h) <;> cases h <;> simp

theorem execPortDown_frame_boxDie :
    ∀ x0 s t, execPortDown x0 s = .next t → (t).boxDie = s.boxDie := by
  intros; rename_i h; simp only [execPortDown] at h; (repeat' split at h) <;> cases h <;> simp

theorem execPortDown_frame_fuses :
    ∀ x0 s t, execPortDown x0 s = .next t → (t).fuses = s.fuses := by
  intros; rename_i h; simp only [execPortDown] at h; (repeat' split at h) <;> cases h <;> simp

theorem execPortDown_wf_dram :
    ∀ x0 s t, Memory.wf s.dram = true → execPortDown x0 s = .next t → Memory.wf (t).dram = true := by
  intros; rename_i hw h; simp only [execPortDown] at h; (repeat' split at h) <;> (simp only [Host.Outcome.next.injEq, reduceCtorEq] at h) <;> (subst h; simp +contextual [hw])

theorem execPortDown_wf_ws :
    ∀ x0 s t, Memory.wf s.ws = true → execPortDown x0 s = .next t → Memory.wf (t).ws = true := by
  intros; rename_i hw h; simp only [execPortDown] at h; (repeat' split at h) <;> (simp only [Host.Outcome.next.injEq, reduceCtorEq] at h) <;> (subst h; simp +contextual [hw])

@[simp] theorem dropBuffer_frame_pending :
    ∀ x0 s, (dropBuffer x0 s).pending = s.pending := by
  intros; unfold dropBuffer; (repeat' split) <;> simp

@[simp] theorem dropBuffer_frame_time :
    ∀ x0 s, (dropBuffer x0 s).time = s.time := by
  intros; unfold dropBuffer; (repeat' split) <;> simp

@[simp] theorem dropBuffer_frame_boxDie :
    ∀ x0 s, (dropBuffer x0 s).boxDie = s.boxDie := by
  intros; unfold dropBuffer; (repeat' split) <;> simp

@[simp] theorem dropBuffer_frame_fuses :
    ∀ x0 s, (dropBuffer x0 s).fuses = s.fuses := by
  intros; unfold dropBuffer; (repeat' split) <;> simp

@[simp] theorem dropBuffer_wf_dram :
    ∀ x0 s, Memory.wf s.dram = true → Memory.wf (dropBuffer x0 s).dram = true := by
  intros; unfold dropBuffer; (repeat' split) <;> simp +contextual [*]

@[simp] theorem dropBuffer_wf_ws :
    ∀ x0 s, Memory.wf s.ws = true → Memory.wf (dropBuffer x0 s).ws = true := by
  intros; unfold dropBuffer; (repeat' split) <;> simp +contextual [*]

theorem execEgressFrameStart_frame_pending :
    ∀ x0 x1 s t, execEgressFrameStart x0 x1 s = .next t → (t).pending = s.pending := by
  intros; rename_i h; simp only [execEgressFrameStart] at h; (repeat' split at h) <;> (simp only [Host.Outcome.next.injEq, reduceCtorEq] at h) <;> (subst h; simp)

theorem execEgressFrameStart_frame_time :
    ∀ x0 x1 s t, execEgressFrameStart x0 x1 s = .next t → (t).time = s.time := by
  intros; rename_i h; simp only [execEgressFrameStart] at h; (repeat' split at h) <;> (simp only [Host.Outcome.next.injEq, reduceCtorEq] at h) <;> (subst h; simp)

theorem execEgressFrameStart_frame_boxDie :
    ∀ x0 x1 s t, execEgressFrameStart x0 x1 s = .next t → (t).boxDie = s.boxDie := by
  intros; rename_i h; simp only [execEgressFrameStart] at h; (repeat' split at h) <;> (simp only [Host.Outcome.next.injEq, reduceCtorEq] at h) <;> (subst h; simp)

theorem execEgressFrameStart_frame_fuses :
    ∀ x0 x1 s t, execEgressFrameStart x0 x1 s = .next t → (t).fuses = s.fuses := by
  intros; rename_i h; simp only [execEgressFrameStart] at h; (repeat' split at h) <;> (simp only [Host.Outcome.next.injEq, reduceCtorEq] at h) <;> (subst h; simp)

theorem execEgressFrameStart_wf_dram :
    ∀ x0 x1 s t, Memory.wf s.dram = true → execEgressFrameStart x0 x1 s = .next t → Memory.wf (t).dram = true := by
  intros; rename_i hw h; simp only [execEgressFrameStart] at h; (repeat' split at h) <;> (simp only [Host.Outcome.next.injEq, reduceCtorEq] at h) <;> (subst h; simp +contextual [hw])

theorem execEgressFrameStart_wf_ws :
    ∀ x0 x1 s t, Memory.wf s.ws = true → execEgressFrameStart x0 x1 s = .next t → Memory.wf (t).ws = true := by
  intros; rename_i hw h; simp only [execEgressFrameStart] at h; (repeat' split at h) <;> (simp only [Host.Outcome.next.injEq, reduceCtorEq] at h) <;> (subst h; simp +contextual [hw])

/-! ### LaneOps -/

@[simp] theorem startPort_frame :
    ∀ x0 s, (startPort x0 s).pending = s.pending ∧ (startPort x0 s).time = s.time ∧ (startPort x0 s).boxDie = s.boxDie ∧ (startPort x0 s).fuses = s.fuses ∧ (startPort x0 s).dram = s.dram ∧ (startPort x0 s).ws = s.ws := by
  intros; simp [startPort]

@[simp] theorem stopPort_frame :
    ∀ x0 s, (stopPort x0 s).pending = s.pending ∧ (stopPort x0 s).time = s.time ∧ (stopPort x0 s).boxDie = s.boxDie ∧ (stopPort x0 s).fuses = s.fuses ∧ (stopPort x0 s).dram = s.dram ∧ (stopPort x0 s).ws = s.ws := by
  intros; simp [stopPort]

@[simp] theorem applyEnable_frame :
    ∀ x0 s, (applyEnable x0 s).pending = s.pending ∧ (applyEnable x0 s).time = s.time ∧ (applyEnable x0 s).boxDie = s.boxDie ∧ (applyEnable x0 s).fuses = s.fuses ∧ (applyEnable x0 s).dram = s.dram ∧ (applyEnable x0 s).ws = s.ws := by
  intros; simp [applyEnable]

@[simp] theorem deliverSf_frame :
    ∀ x0 x1 s, (deliverSf x0 x1 s).pending = s.pending ∧ (deliverSf x0 x1 s).time = s.time ∧ (deliverSf x0 x1 s).boxDie = s.boxDie ∧ (deliverSf x0 x1 s).fuses = s.fuses ∧ (deliverSf x0 x1 s).dram = s.dram ∧ (deliverSf x0 x1 s).ws = s.ws := by
  intros; fun_induction deliverSf <;> simp_all

@[simp] theorem deliver_frame :
    ∀ x0 s, (deliver x0 s).pending = s.pending ∧ (deliver x0 s).time = s.time ∧ (deliver x0 s).boxDie = s.boxDie ∧ (deliver x0 s).fuses = s.fuses ∧ (deliver x0 s).dram = s.dram ∧ (deliver x0 s).ws = s.ws := by
  intros; simp [deliver]

@[simp] theorem laneSticky_frame :
    ∀ x0 x1 s, (laneSticky x0 x1 s).pending = s.pending ∧ (laneSticky x0 x1 s).time = s.time ∧ (laneSticky x0 x1 s).boxDie = s.boxDie ∧ (laneSticky x0 x1 s).fuses = s.fuses ∧ (laneSticky x0 x1 s).dram = s.dram ∧ (laneSticky x0 x1 s).ws = s.ws := by
  intros; simp [laneSticky]

@[simp] theorem becomeBad_frame_pending :
    ∀ x0 s, (becomeBad x0 s).pending = s.pending := by
  intros; simp [becomeBad]

@[simp] theorem becomeBad_frame_time :
    ∀ x0 s, (becomeBad x0 s).time = s.time := by
  intros; simp [becomeBad]

@[simp] theorem becomeBad_frame_boxDie :
    ∀ x0 s, (becomeBad x0 s).boxDie = s.boxDie := by
  intros; simp [becomeBad]

@[simp] theorem becomeBad_frame_fuses :
    ∀ x0 s, (becomeBad x0 s).fuses = s.fuses := by
  intros; simp [becomeBad]

@[simp] theorem becomeBad_wf_dram :
    ∀ x0 s, Memory.wf s.dram = true → Memory.wf (becomeBad x0 s).dram = true := by
  intros; unfold becomeBad; (repeat' split) <;> simp +contextual [*]

@[simp] theorem becomeBad_wf_ws :
    ∀ x0 s, Memory.wf s.ws = true → Memory.wf (becomeBad x0 s).ws = true := by
  intros; unfold becomeBad; (repeat' split) <;> simp +contextual [*]

@[simp] theorem checkDirection_frame :
    ∀ x0 s, (checkDirection x0 s).pending = s.pending ∧ (checkDirection x0 s).time = s.time ∧ (checkDirection x0 s).boxDie = s.boxDie ∧ (checkDirection x0 s).fuses = s.fuses ∧ (checkDirection x0 s).dram = s.dram ∧ (checkDirection x0 s).ws = s.ws := by
  intros; simp [checkDirection]

@[simp] theorem dropLock_frame_pending :
    ∀ x0 x1 x2 s, (dropLock x0 x1 x2 s).pending = s.pending := by
  intros; simp [dropLock]

@[simp] theorem dropLock_frame_time :
    ∀ x0 x1 x2 s, (dropLock x0 x1 x2 s).time = s.time := by
  intros; simp [dropLock]

@[simp] theorem dropLock_frame_boxDie :
    ∀ x0 x1 x2 s, (dropLock x0 x1 x2 s).boxDie = s.boxDie := by
  intros; simp [dropLock]

@[simp] theorem dropLock_frame_fuses :
    ∀ x0 x1 x2 s, (dropLock x0 x1 x2 s).fuses = s.fuses := by
  intros; simp [dropLock]

@[simp] theorem dropLock_wf_dram :
    ∀ x0 x1 x2 s, Memory.wf s.dram = true → Memory.wf (dropLock x0 x1 x2 s).dram = true := by
  intros; unfold dropLock; simp only []; (repeat' split) <;> simp +contextual [*]

@[simp] theorem dropLock_wf_ws :
    ∀ x0 x1 x2 s, Memory.wf s.ws = true → Memory.wf (dropLock x0 x1 x2 s).ws = true := by
  intros; unfold dropLock; simp only []; (repeat' split) <;> simp +contextual [*]

@[simp] theorem takeInfo_frame :
    ∀ x0 x1 s, (takeInfo x0 x1 s).pending = s.pending ∧ (takeInfo x0 x1 s).time = s.time ∧ (takeInfo x0 x1 s).boxDie = s.boxDie ∧ (takeInfo x0 x1 s).fuses = s.fuses ∧ (takeInfo x0 x1 s).dram = s.dram ∧ (takeInfo x0 x1 s).ws = s.ws := by
  intros; simp [takeInfo]

@[simp] theorem noteM0_frame :
    ∀ x0 x1 x2 x3 x4 s, (noteM0 x0 x1 x2 x3 x4 s).pending = s.pending ∧ (noteM0 x0 x1 x2 x3 x4 s).time = s.time ∧ (noteM0 x0 x1 x2 x3 x4 s).boxDie = s.boxDie ∧ (noteM0 x0 x1 x2 x3 x4 s).fuses = s.fuses ∧ (noteM0 x0 x1 x2 x3 x4 s).dram = s.dram ∧ (noteM0 x0 x1 x2 x3 x4 s).ws = s.ws := by
  intros; simp [noteM0]

@[simp] theorem joinSf_frame :
    ∀ x0 x1 x2 x3 x4 x5 s, (joinSf x0 x1 x2 x3 x4 x5 s).pending = s.pending ∧ (joinSf x0 x1 x2 x3 x4 x5 s).time = s.time ∧ (joinSf x0 x1 x2 x3 x4 x5 s).boxDie = s.boxDie ∧ (joinSf x0 x1 x2 x3 x4 x5 s).fuses = s.fuses ∧ (joinSf x0 x1 x2 x3 x4 x5 s).dram = s.dram ∧ (joinSf x0 x1 x2 x3 x4 x5 s).ws = s.ws := by
  intros; simp [joinSf]

@[simp] theorem countWords_frame :
    ∀ x0 x1 x2 x3 s, (countWords x0 x1 x2 x3 s).pending = s.pending ∧ (countWords x0 x1 x2 x3 s).time = s.time ∧ (countWords x0 x1 x2 x3 s).boxDie = s.boxDie ∧ (countWords x0 x1 x2 x3 s).fuses = s.fuses ∧ (countWords x0 x1 x2 x3 s).dram = s.dram ∧ (countWords x0 x1 x2 x3 s).ws = s.ws := by
  intros; simp [countWords]

@[simp] theorem judgeLane_frame_pending :
    ∀ x0 x1 x2 s, (judgeLane x0 x1 x2 s).pending = s.pending := by
  intros; unfold judgeLane; (repeat' split) <;> simp

@[simp] theorem judgeLane_frame_time :
    ∀ x0 x1 x2 s, (judgeLane x0 x1 x2 s).time = s.time := by
  intros; unfold judgeLane; (repeat' split) <;> simp

@[simp] theorem judgeLane_frame_boxDie :
    ∀ x0 x1 x2 s, (judgeLane x0 x1 x2 s).boxDie = s.boxDie := by
  intros; unfold judgeLane; (repeat' split) <;> simp

@[simp] theorem judgeLane_frame_fuses :
    ∀ x0 x1 x2 s, (judgeLane x0 x1 x2 s).fuses = s.fuses := by
  intros; unfold judgeLane; (repeat' split) <;> simp

@[simp] theorem judgeLane_wf_dram :
    ∀ x0 x1 x2 s, Memory.wf s.dram = true → Memory.wf (judgeLane x0 x1 x2 s).dram = true := by
  intros; unfold judgeLane; simp only []; (repeat' split) <;> simp +contextual [*]

@[simp] theorem judgeLane_wf_ws :
    ∀ x0 x1 x2 s, Memory.wf s.ws = true → Memory.wf (judgeLane x0 x1 x2 s).ws = true := by
  intros; unfold judgeLane; simp only []; (repeat' split) <;> simp +contextual [*]

@[simp] theorem dropIdle_frame :
    ∀ x0 x1 s, (dropIdle x0 x1 s).pending = s.pending ∧ (dropIdle x0 x1 s).time = s.time ∧ (dropIdle x0 x1 s).boxDie = s.boxDie ∧ (dropIdle x0 x1 s).fuses = s.fuses ∧ (dropIdle x0 x1 s).dram = s.dram ∧ (dropIdle x0 x1 s).ws = s.ws := by
  intros; simp [dropIdle]

@[simp] theorem takeSuperframe_frame : ∀ x0 x1 s, (takeSuperframe x0 x1 s).pending = s.pending ∧ (takeSuperframe x0 x1 s).time = s.time ∧ (takeSuperframe x0 x1 s).boxDie = s.boxDie ∧ (takeSuperframe x0 x1 s).fuses = s.fuses := by
  intro l rx s
  simp only [takeSuperframe, dropIdle_frame, deliver_frame, judgeLane_frame_pending, judgeLane_frame_time, judgeLane_frame_boxDie, judgeLane_frame_fuses, countWords_frame, joinSf_frame]
  cases (readLine (s.lane.lanes[l.val].entry.getLsbD 25) rx.line).info <;> simp

@[simp] theorem takeSuperframe_wf_dram : ∀ x0 x1 s, Memory.wf s.dram = true → Memory.wf (takeSuperframe x0 x1 s).dram = true := by
  intro l rx s hw
  simp only [takeSuperframe, dropIdle_frame, deliver_frame]
  refine judgeLane_wf_dram _ _ _ _ ?_
  simp only [countWords_frame, joinSf_frame]
  cases (readLine (s.lane.lanes[l.val].entry.getLsbD 25) rx.line).info <;> simp [hw]

@[simp] theorem takeSuperframe_wf_ws : ∀ x0 x1 s, Memory.wf s.ws = true → Memory.wf (takeSuperframe x0 x1 s).ws = true := by
  intro l rx s hw
  simp only [takeSuperframe, dropIdle_frame, deliver_frame]
  refine judgeLane_wf_ws _ _ _ _ ?_
  simp only [countWords_frame, joinSf_frame]
  cases (readLine (s.lane.lanes[l.val].entry.getLsbD 25) rx.line).info <;> simp [hw]

@[simp] theorem sendSuperframe_frame :
    ∀ x0 x1 s, (sendSuperframe x0 x1 s).pending = s.pending ∧ (sendSuperframe x0 x1 s).time = s.time ∧ (sendSuperframe x0 x1 s).boxDie = s.boxDie ∧ (sendSuperframe x0 x1 s).fuses = s.fuses ∧ (sendSuperframe x0 x1 s).dram = s.dram ∧ (sendSuperframe x0 x1 s).ws = s.ws := by
  intros; simp [sendSuperframe]

@[simp] theorem sendWake_frame :
    ∀ x0 x1 s, (sendWake x0 x1 s).pending = s.pending ∧ (sendWake x0 x1 s).time = s.time ∧ (sendWake x0 x1 s).boxDie = s.boxDie ∧ (sendWake x0 x1 s).fuses = s.fuses ∧ (sendWake x0 x1 s).dram = s.dram ∧ (sendWake x0 x1 s).ws = s.ws := by
  intros; simp [sendWake]

end Sys2Proof.Machine
end

