-- ==== Sys2Proof/Laws/FrameStages.lean ====
section
/-! SUPPORT. The frame of the harness commands and the work of the stages: the queue, the clock, the box office die, the fuses and the two memories are as before, and
where a memory may change it keeps its canonical form. -/

set_option linter.unusedSimpArgs false

namespace Sys2Proof.Machine

/-! ### Harness -/

@[simp] theorem prjFlags_frame :
    ∀ x0 s, (prjFlags x0 s).pending = s.pending ∧ (prjFlags x0 s).time = s.time ∧ (prjFlags x0 s).boxDie = s.boxDie ∧ (prjFlags x0 s).fuses = s.fuses ∧ (prjFlags x0 s).dram = s.dram ∧ (prjFlags x0 s).ws = s.ws := by
  intros; simp [prjFlags]

@[simp] theorem seedForward_frame_pending :
    ∀ x0 x1 s, (seedForward x0 x1 s).pending = s.pending := by
  intros; unfold seedForward; (repeat' split) <;> simp

@[simp] theorem seedForward_frame_time :
    ∀ x0 x1 s, (seedForward x0 x1 s).time = s.time := by
  intros; unfold seedForward; (repeat' split) <;> simp

@[simp] theorem seedForward_frame_boxDie :
    ∀ x0 x1 s, (seedForward x0 x1 s).boxDie = s.boxDie := by
  intros; unfold seedForward; (repeat' split) <;> simp

@[simp] theorem seedForward_frame_fuses :
    ∀ x0 x1 s, (seedForward x0 x1 s).fuses = s.fuses := by
  intros; unfold seedForward; (repeat' split) <;> simp

@[simp] theorem seedForward_wf_dram :
    ∀ x0 x1 s, Memory.wf s.dram = true → Memory.wf (seedForward x0 x1 s).dram = true := by
  intros; unfold seedForward; simp only []; (repeat' split) <;> simp +contextual [*]

@[simp] theorem seedForward_frame_ws :
    ∀ x0 x1 s, (seedForward x0 x1 s).ws = s.ws := by
  intros; unfold seedForward; (repeat' split) <;> simp

theorem execContrib_frame_pending :
    ∀ x0 x1 x2 s t, execContrib x0 x1 x2 s = .next t → (t).pending = s.pending := by
  intros; rename_i h; simp only [execContrib] at h; (repeat' split at h) <;> (simp only [Host.Outcome.next.injEq, reduceCtorEq] at h) <;> (subst h; simp)

theorem execContrib_frame_time :
    ∀ x0 x1 x2 s t, execContrib x0 x1 x2 s = .next t → (t).time = s.time := by
  intros; rename_i h; simp only [execContrib] at h; (repeat' split at h) <;> (simp only [Host.Outcome.next.injEq, reduceCtorEq] at h) <;> (subst h; simp)

theorem execContrib_frame_boxDie :
    ∀ x0 x1 x2 s t, execContrib x0 x1 x2 s = .next t → (t).boxDie = s.boxDie := by
  intros; rename_i h; simp only [execContrib] at h; (repeat' split at h) <;> (simp only [Host.Outcome.next.injEq, reduceCtorEq] at h) <;> (subst h; simp)

theorem execContrib_frame_fuses :
    ∀ x0 x1 x2 s t, execContrib x0 x1 x2 s = .next t → (t).fuses = s.fuses := by
  intros; rename_i h; simp only [execContrib] at h; (repeat' split at h) <;> (simp only [Host.Outcome.next.injEq, reduceCtorEq] at h) <;> (subst h; simp)

theorem execContrib_wf_dram :
    ∀ x0 x1 x2 s t, Memory.wf s.dram = true → execContrib x0 x1 x2 s = .next t → Memory.wf (t).dram = true := by
  intros; rename_i hw h; simp only [execContrib] at h; (repeat' split at h) <;> (simp only [Host.Outcome.next.injEq, reduceCtorEq] at h) <;> (subst h; simp +contextual [hw])

theorem execContrib_wf_ws :
    ∀ x0 x1 x2 s t, Memory.wf s.ws = true → execContrib x0 x1 x2 s = .next t → Memory.wf (t).ws = true := by
  intros; rename_i hw h; simp only [execContrib] at h; (repeat' split at h) <;> (simp only [Host.Outcome.next.injEq, reduceCtorEq] at h) <;> (subst h; simp +contextual [hw])

theorem execPartial_frame_pending :
    ∀ x0 x1 x2 s t, execPartial x0 x1 x2 s = .next t → (t).pending = s.pending := by
  intros; rename_i h; simp only [execPartial] at h; (repeat' split at h) <;> (simp only [Host.Outcome.next.injEq, reduceCtorEq] at h) <;> (subst h; simp)

theorem execPartial_frame_time :
    ∀ x0 x1 x2 s t, execPartial x0 x1 x2 s = .next t → (t).time = s.time := by
  intros; rename_i h; simp only [execPartial] at h; (repeat' split at h) <;> (simp only [Host.Outcome.next.injEq, reduceCtorEq] at h) <;> (subst h; simp)

theorem execPartial_frame_boxDie :
    ∀ x0 x1 x2 s t, execPartial x0 x1 x2 s = .next t → (t).boxDie = s.boxDie := by
  intros; rename_i h; simp only [execPartial] at h; (repeat' split at h) <;> (simp only [Host.Outcome.next.injEq, reduceCtorEq] at h) <;> (subst h; simp)

theorem execPartial_frame_fuses :
    ∀ x0 x1 x2 s t, execPartial x0 x1 x2 s = .next t → (t).fuses = s.fuses := by
  intros; rename_i h; simp only [execPartial] at h; (repeat' split at h) <;> (simp only [Host.Outcome.next.injEq, reduceCtorEq] at h) <;> (subst h; simp)

theorem execPartial_wf_dram :
    ∀ x0 x1 x2 s t, Memory.wf s.dram = true → execPartial x0 x1 x2 s = .next t → Memory.wf (t).dram = true := by
  intros; rename_i hw h; simp only [execPartial] at h; (repeat' split at h) <;> (simp only [Host.Outcome.next.injEq, reduceCtorEq] at h) <;> (subst h; simp +contextual [hw])

theorem execPartial_wf_ws :
    ∀ x0 x1 x2 s t, Memory.wf s.ws = true → execPartial x0 x1 x2 s = .next t → Memory.wf (t).ws = true := by
  intros; rename_i hw h; simp only [execPartial] at h; (repeat' split at h) <;> (simp only [Host.Outcome.next.injEq, reduceCtorEq] at h) <;> (subst h; simp +contextual [hw])

theorem execIntakeResume_frame_pending :
    ∀ x0 x1 s t, execIntakeResume x0 x1 s = .next t → (t).pending = s.pending := by
  intros; rename_i h; simp only [execIntakeResume] at h; (repeat' split at h) <;> (simp only [Host.Outcome.next.injEq, reduceCtorEq] at h) <;> (subst h; simp)

theorem execIntakeResume_frame_time :
    ∀ x0 x1 s t, execIntakeResume x0 x1 s = .next t → (t).time = s.time := by
  intros; rename_i h; simp only [execIntakeResume] at h; (repeat' split at h) <;> (simp only [Host.Outcome.next.injEq, reduceCtorEq] at h) <;> (subst h; simp)

theorem execIntakeResume_frame_boxDie :
    ∀ x0 x1 s t, execIntakeResume x0 x1 s = .next t → (t).boxDie = s.boxDie := by
  intros; rename_i h; simp only [execIntakeResume] at h; (repeat' split at h) <;> (simp only [Host.Outcome.next.injEq, reduceCtorEq] at h) <;> (subst h; simp)

theorem execIntakeResume_frame_fuses :
    ∀ x0 x1 s t, execIntakeResume x0 x1 s = .next t → (t).fuses = s.fuses := by
  intros; rename_i h; simp only [execIntakeResume] at h; (repeat' split at h) <;> (simp only [Host.Outcome.next.injEq, reduceCtorEq] at h) <;> (subst h; simp)

theorem execIntakeResume_wf_dram :
    ∀ x0 x1 s t, Memory.wf s.dram = true → execIntakeResume x0 x1 s = .next t → Memory.wf (t).dram = true := by
  intros; rename_i hw h; simp only [execIntakeResume] at h; (repeat' split at h) <;> (simp only [Host.Outcome.next.injEq, reduceCtorEq] at h) <;> (subst h; simp +contextual [hw])

theorem execIntakeResume_wf_ws :
    ∀ x0 x1 s t, Memory.wf s.ws = true → execIntakeResume x0 x1 s = .next t → Memory.wf (t).ws = true := by
  intros; rename_i hw h; simp only [execIntakeResume] at h; (repeat' split at h) <;> (simp only [Host.Outcome.next.injEq, reduceCtorEq] at h) <;> (subst h; simp +contextual [hw])

theorem execSpillDone_frame_pending :
    ∀ x0 x1 s t, execSpillDone x0 x1 s = .next t → (t).pending = s.pending := by
  intros; rename_i h; simp only [execSpillDone] at h; (repeat' split at h) <;> (simp only [Host.Outcome.next.injEq, reduceCtorEq] at h) <;> (subst h; simp)

theorem execSpillDone_frame_time :
    ∀ x0 x1 s t, execSpillDone x0 x1 s = .next t → (t).time = s.time := by
  intros; rename_i h; simp only [execSpillDone] at h; (repeat' split at h) <;> (simp only [Host.Outcome.next.injEq, reduceCtorEq] at h) <;> (subst h; simp)

theorem execSpillDone_frame_boxDie :
    ∀ x0 x1 s t, execSpillDone x0 x1 s = .next t → (t).boxDie = s.boxDie := by
  intros; rename_i h; simp only [execSpillDone] at h; (repeat' split at h) <;> (simp only [Host.Outcome.next.injEq, reduceCtorEq] at h) <;> (subst h; simp)

theorem execSpillDone_frame_fuses :
    ∀ x0 x1 s t, execSpillDone x0 x1 s = .next t → (t).fuses = s.fuses := by
  intros; rename_i h; simp only [execSpillDone] at h; (repeat' split at h) <;> (simp only [Host.Outcome.next.injEq, reduceCtorEq] at h) <;> (subst h; simp)

theorem execSpillDone_wf_dram :
    ∀ x0 x1 s t, Memory.wf s.dram = true → execSpillDone x0 x1 s = .next t → Memory.wf (t).dram = true := by
  intros; rename_i hw h; simp only [execSpillDone] at h; (repeat' split at h) <;> (simp only [Host.Outcome.next.injEq, reduceCtorEq] at h) <;> (subst h; simp +contextual [hw])

theorem execSpillDone_wf_ws :
    ∀ x0 x1 s t, Memory.wf s.ws = true → execSpillDone x0 x1 s = .next t → Memory.wf (t).ws = true := by
  intros; rename_i hw h; simp only [execSpillDone] at h; (repeat' split at h) <;> (simp only [Host.Outcome.next.injEq, reduceCtorEq] at h) <;> (subst h; simp +contextual [hw])

theorem execReloadDone_frame_pending :
    ∀ x0 x1 s t, execReloadDone x0 x1 s = .next t → (t).pending = s.pending := by
  intros; rename_i h; simp only [execReloadDone] at h; (repeat' split at h) <;> (simp only [Host.Outcome.next.injEq, reduceCtorEq] at h) <;> (subst h; simp)

theorem execReloadDone_frame_time :
    ∀ x0 x1 s t, execReloadDone x0 x1 s = .next t → (t).time = s.time := by
  intros; rename_i h; simp only [execReloadDone] at h; (repeat' split at h) <;> (simp only [Host.Outcome.next.injEq, reduceCtorEq] at h) <;> (subst h; simp)

theorem execReloadDone_frame_boxDie :
    ∀ x0 x1 s t, execReloadDone x0 x1 s = .next t → (t).boxDie = s.boxDie := by
  intros; rename_i h; simp only [execReloadDone] at h; (repeat' split at h) <;> (simp only [Host.Outcome.next.injEq, reduceCtorEq] at h) <;> (subst h; simp)

theorem execReloadDone_frame_fuses :
    ∀ x0 x1 s t, execReloadDone x0 x1 s = .next t → (t).fuses = s.fuses := by
  intros; rename_i h; simp only [execReloadDone] at h; (repeat' split at h) <;> (simp only [Host.Outcome.next.injEq, reduceCtorEq] at h) <;> (subst h; simp)

theorem execReloadDone_wf_dram :
    ∀ x0 x1 s t, Memory.wf s.dram = true → execReloadDone x0 x1 s = .next t → Memory.wf (t).dram = true := by
  intros; rename_i hw h; simp only [execReloadDone] at h; (repeat' split at h) <;> (simp only [Host.Outcome.next.injEq, reduceCtorEq] at h) <;> (subst h; simp +contextual [hw])

theorem execReloadDone_wf_ws :
    ∀ x0 x1 s t, Memory.wf s.ws = true → execReloadDone x0 x1 s = .next t → Memory.wf (t).ws = true := by
  intros; rename_i hw h; simp only [execReloadDone] at h; (repeat' split at h) <;> (simp only [Host.Outcome.next.injEq, reduceCtorEq] at h) <;> (subst h; simp +contextual [hw])

theorem execScaleWindowFill_frame_pending :
    ∀ x0 x1 x2 s t, execScaleWindowFill x0 x1 x2 s = .next t → (t).pending = s.pending := by
  intros; rename_i h; simp only [execScaleWindowFill] at h; (repeat' split at h) <;> (simp only [Host.Outcome.next.injEq, reduceCtorEq] at h) <;> (subst h; simp)

theorem execScaleWindowFill_frame_time :
    ∀ x0 x1 x2 s t, execScaleWindowFill x0 x1 x2 s = .next t → (t).time = s.time := by
  intros; rename_i h; simp only [execScaleWindowFill] at h; (repeat' split at h) <;> (simp only [Host.Outcome.next.injEq, reduceCtorEq] at h) <;> (subst h; simp)

theorem execScaleWindowFill_frame_boxDie :
    ∀ x0 x1 x2 s t, execScaleWindowFill x0 x1 x2 s = .next t → (t).boxDie = s.boxDie := by
  intros; rename_i h; simp only [execScaleWindowFill] at h; (repeat' split at h) <;> (simp only [Host.Outcome.next.injEq, reduceCtorEq] at h) <;> (subst h; simp)

theorem execScaleWindowFill_frame_fuses :
    ∀ x0 x1 x2 s t, execScaleWindowFill x0 x1 x2 s = .next t → (t).fuses = s.fuses := by
  intros; rename_i h; simp only [execScaleWindowFill] at h; (repeat' split at h) <;> (simp only [Host.Outcome.next.injEq, reduceCtorEq] at h) <;> (subst h; simp)

theorem execScaleWindowFill_wf_dram :
    ∀ x0 x1 x2 s t, Memory.wf s.dram = true → execScaleWindowFill x0 x1 x2 s = .next t → Memory.wf (t).dram = true := by
  intros; rename_i hw h; simp only [execScaleWindowFill] at h; (repeat' split at h) <;> (simp only [Host.Outcome.next.injEq, reduceCtorEq] at h) <;> (subst h; simp +contextual [hw])

theorem execScaleWindowFill_wf_ws :
    ∀ x0 x1 x2 s t, Memory.wf s.ws = true → execScaleWindowFill x0 x1 x2 s = .next t → Memory.wf (t).ws = true := by
  intros; rename_i hw h; simp only [execScaleWindowFill] at h; (repeat' split at h) <;> (simp only [Host.Outcome.next.injEq, reduceCtorEq] at h) <;> (subst h; simp +contextual [hw])

theorem execSlotRelease_frame_pending :
    ∀ x0 x1 x2 s t, execSlotRelease x0 x1 x2 s = .next t → (t).pending = s.pending := by
  intros; rename_i h; simp only [execSlotRelease] at h; (repeat' split at h) <;> (simp only [Host.Outcome.next.injEq, reduceCtorEq] at h) <;> (subst h; simp)

theorem execSlotRelease_frame_time :
    ∀ x0 x1 x2 s t, execSlotRelease x0 x1 x2 s = .next t → (t).time = s.time := by
  intros; rename_i h; simp only [execSlotRelease] at h; (repeat' split at h) <;> (simp only [Host.Outcome.next.injEq, reduceCtorEq] at h) <;> (subst h; simp)

theorem execSlotRelease_frame_boxDie :
    ∀ x0 x1 x2 s t, execSlotRelease x0 x1 x2 s = .next t → (t).boxDie = s.boxDie := by
  intros; rename_i h; simp only [execSlotRelease] at h; (repeat' split at h) <;> (simp only [Host.Outcome.next.injEq, reduceCtorEq] at h) <;> (subst h; simp)

theorem execSlotRelease_frame_fuses :
    ∀ x0 x1 x2 s t, execSlotRelease x0 x1 x2 s = .next t → (t).fuses = s.fuses := by
  intros; rename_i h; simp only [execSlotRelease] at h; (repeat' split at h) <;> (simp only [Host.Outcome.next.injEq, reduceCtorEq] at h) <;> (subst h; simp)

theorem execSlotRelease_wf_dram :
    ∀ x0 x1 x2 s t, Memory.wf s.dram = true → execSlotRelease x0 x1 x2 s = .next t → Memory.wf (t).dram = true := by
  intros; rename_i hw h; simp only [execSlotRelease] at h; (repeat' split at h) <;> (simp only [Host.Outcome.next.injEq, reduceCtorEq] at h) <;> (subst h; simp +contextual [hw])

theorem execSlotRelease_wf_ws :
    ∀ x0 x1 x2 s t, Memory.wf s.ws = true → execSlotRelease x0 x1 x2 s = .next t → Memory.wf (t).ws = true := by
  intros; rename_i hw h; simp only [execSlotRelease] at h; (repeat' split at h) <;> (simp only [Host.Outcome.next.injEq, reduceCtorEq] at h) <;> (subst h; simp +contextual [hw])

theorem execWindow_frame :
    ∀ x0 x1 s t, execWindow x0 x1 s = .next t → (t).pending = s.pending ∧ (t).time = s.time ∧ (t).boxDie = s.boxDie ∧ (t).fuses = s.fuses ∧ (t).dram = s.dram ∧ (t).ws = s.ws := by
  intros; rename_i h; simp only [execWindow] at h; (repeat' split at h) <;> cases h <;> simp

/-! ### Stages -/

@[simp] theorem runUpdate_frame : ∀ x0 x1 x2 x3 x4 x5 s, (runUpdate x0 x1 x2 x3 x4 x5 s).pending = s.pending ∧ (runUpdate x0 x1 x2 x3 x4 x5 s).time = s.time ∧ (runUpdate x0 x1 x2 x3 x4 x5 s).boxDie = s.boxDie ∧ (runUpdate x0 x1 x2 x3 x4 x5 s).fuses = s.fuses := by
  intros; unfold runUpdate; simp

@[simp] theorem runUpdate_wf_dram : ∀ x0 x1 x2 x3 x4 x5 s, Memory.wf s.dram = true → Memory.wf (runUpdate x0 x1 x2 x3 x4 x5 s).dram = true := by
  intro h u cf gr errs e s hw
  have := slotError_wf_dram h u.x.seg e _ (advanceAge_wf_dram u.sh.hid u.x.step u.cue u.p _ (readErrors_wf_dram (stateAddr u.r (256 * u.x.seg)) (8 * u.x.seglen) errs s hw))
  unfold runUpdate; simp [this]

@[simp] theorem runUpdate_wf_ws : ∀ x0 x1 x2 x3 x4 x5 s, Memory.wf s.ws = true → Memory.wf (runUpdate x0 x1 x2 x3 x4 x5 s).ws = true := by
  intro h u cf gr errs e s hw
  have := slotError_wf_ws h u.x.seg e _ (readErrors_wf_ws (stateAddr u.r (256 * u.x.seg)) (8 * u.x.seglen) errs s hw)
  unfold runUpdate; simp_all

theorem execGroomIssue_frame_pending :
    ∀ x0 x1 x2 x3 s t, execGroomIssue x0 x1 x2 x3 s = .next t → (t).pending = s.pending := by
  intros; rename_i h; simp only [execGroomIssue] at h; (repeat' split at h) <;> (simp only [Host.Outcome.next.injEq, reduceCtorEq] at h) <;> (subst h; simp)

theorem execGroomIssue_frame_time :
    ∀ x0 x1 x2 x3 s t, execGroomIssue x0 x1 x2 x3 s = .next t → (t).time = s.time := by
  intros; rename_i h; simp only [execGroomIssue] at h; (repeat' split at h) <;> (simp only [Host.Outcome.next.injEq, reduceCtorEq] at h) <;> (subst h; simp)

theorem execGroomIssue_frame_boxDie :
    ∀ x0 x1 x2 x3 s t, execGroomIssue x0 x1 x2 x3 s = .next t → (t).boxDie = s.boxDie := by
  intros; rename_i h; simp only [execGroomIssue] at h; (repeat' split at h) <;> (simp only [Host.Outcome.next.injEq, reduceCtorEq] at h) <;> (subst h; simp)

theorem execGroomIssue_frame_fuses :
    ∀ x0 x1 x2 x3 s t, execGroomIssue x0 x1 x2 x3 s = .next t → (t).fuses = s.fuses := by
  intros; rename_i h; simp only [execGroomIssue] at h; (repeat' split at h) <;> (simp only [Host.Outcome.next.injEq, reduceCtorEq] at h) <;> (subst h; simp)

theorem execGroomIssue_wf_ws :
    ∀ x0 x1 x2 x3 s t, Memory.wf s.ws = true → execGroomIssue x0 x1 x2 x3 s = .next t → Memory.wf (t).ws = true := by
  intros; rename_i hw h; simp only [execGroomIssue] at h; (repeat' split at h) <;> (simp only [Host.Outcome.next.injEq, reduceCtorEq] at h) <;> (subst h; simp +contextual [hw])

theorem execGroomIssue_wf_dram :
    ∀ x0 x1 x2 x3 s t, Memory.wf s.dram = true → execGroomIssue x0 x1 x2 x3 s = .next t → Memory.wf (t).dram = true := by
  intros; rename_i hw h; simp only [execGroomIssue] at h; (repeat' split at h) <;> (simp only [Host.Outcome.next.injEq, reduceCtorEq] at h) <;> (subst h; simp +contextual [hw])

theorem execGroomWritesDone_frame_pending :
    ∀ x0 x1 s t, execGroomWritesDone x0 x1 s = .next t → (t).pending = s.pending := by
  intros; rename_i h; simp only [execGroomWritesDone] at h; (repeat' split at h) <;> cases h <;> simp

theorem execGroomWritesDone_frame_time :
    ∀ x0 x1 s t, execGroomWritesDone x0 x1 s = .next t → (t).time = s.time := by
  intros; rename_i h; simp only [execGroomWritesDone] at h; (repeat' split at h) <;> cases h <;> simp

theorem execGroomWritesDone_frame_boxDie :
    ∀ x0 x1 s t, execGroomWritesDone x0 x1 s = .next t → (t).boxDie = s.boxDie := by
  intros; rename_i h; simp only [execGroomWritesDone] at h; (repeat' split at h) <;> cases h <;> simp

theorem execGroomWritesDone_frame_fuses :
    ∀ x0 x1 s t, execGroomWritesDone x0 x1 s = .next t → (t).fuses = s.fuses := by
  intros; rename_i h; simp only [execGroomWritesDone] at h; (repeat' split at h) <;> cases h <;> simp

theorem execGroomWritesDone_wf_dram :
    ∀ x0 x1 s t, Memory.wf s.dram = true → execGroomWritesDone x0 x1 s = .next t → Memory.wf (t).dram = true := by
  intros; rename_i hw h; simp only [execGroomWritesDone] at h; (repeat' split at h) <;> (simp only [Host.Outcome.next.injEq, reduceCtorEq] at h) <;> (subst h; simp +contextual [hw])

theorem execGroomWritesDone_frame_ws :
    ∀ x0 x1 s t, execGroomWritesDone x0 x1 s = .next t → (t).ws = s.ws := by
  intros; rename_i h; simp only [execGroomWritesDone] at h; (repeat' split at h) <;> cases h <;> simp

@[simp] theorem endJob_frame :
    ∀ x0 s, (endJob x0 s).pending = s.pending ∧ (endJob x0 s).time = s.time ∧ (endJob x0 s).boxDie = s.boxDie ∧ (endJob x0 s).fuses = s.fuses ∧ (endJob x0 s).dram = s.dram ∧ (endJob x0 s).ws = s.ws := by
  intros; unfold endJob; (repeat' split) <;> simp

theorem execMulticast_frame_pending :
    ∀ x0 x1 s t, execMulticast x0 x1 s = .next t → (t).pending = s.pending := by
  intros; rename_i h; simp only [execMulticast] at h; (repeat' split at h) <;> cases h <;> simp

theorem execMulticast_frame_time :
    ∀ x0 x1 s t, execMulticast x0 x1 s = .next t → (t).time = s.time := by
  intros; rename_i h; simp only [execMulticast] at h; (repeat' split at h) <;> cases h <;> simp

theorem execMulticast_frame_boxDie :
    ∀ x0 x1 s t, execMulticast x0 x1 s = .next t → (t).boxDie = s.boxDie := by
  intros; rename_i h; simp only [execMulticast] at h; (repeat' split at h) <;> cases h <;> simp

theorem execMulticast_frame_fuses :
    ∀ x0 x1 s t, execMulticast x0 x1 s = .next t → (t).fuses = s.fuses := by
  intros; rename_i h; simp only [execMulticast] at h; (repeat' split at h) <;> cases h <;> simp

theorem execMulticast_wf_dram :
    ∀ x0 x1 s t, Memory.wf s.dram = true → execMulticast x0 x1 s = .next t → Memory.wf (t).dram = true := by
  intros; rename_i hw h; simp only [execMulticast] at h; (repeat' split at h) <;> (simp only [Host.Outcome.next.injEq, reduceCtorEq] at h) <;> (subst h; simp +contextual [hw])

theorem execMulticast_wf_ws :
    ∀ x0 x1 s t, Memory.wf s.ws = true → execMulticast x0 x1 s = .next t → Memory.wf (t).ws = true := by
  intros; rename_i hw h; simp only [execMulticast] at h; (repeat' split at h) <;> (simp only [Host.Outcome.next.injEq, reduceCtorEq] at h) <;> (subst h; simp +contextual [hw])

@[simp] theorem execDigestDone_inputDigest_frame_pending :
    ∀ x0 x1 x2 x3 s, (execDigestDone.inputDigest x0 x1 x2 x3 s).pending = s.pending := by
  intros; simp only [execDigestDone.inputDigest]; (repeat' split) <;> simp

@[simp] theorem execDigestDone_inputDigest_frame_time :
    ∀ x0 x1 x2 x3 s, (execDigestDone.inputDigest x0 x1 x2 x3 s).time = s.time := by
  intros; simp only [execDigestDone.inputDigest]; (repeat' split) <;> simp

@[simp] theorem execDigestDone_inputDigest_frame_boxDie :
    ∀ x0 x1 x2 x3 s, (execDigestDone.inputDigest x0 x1 x2 x3 s).boxDie = s.boxDie := by
  intros; simp only [execDigestDone.inputDigest]; (repeat' split) <;> simp

@[simp] theorem execDigestDone_inputDigest_frame_fuses :
    ∀ x0 x1 x2 x3 s, (execDigestDone.inputDigest x0 x1 x2 x3 s).fuses = s.fuses := by
  intros; simp only [execDigestDone.inputDigest]; (repeat' split) <;> simp

@[simp] theorem execDigestDone_inputDigest_wf_dram :
    ∀ x0 x1 x2 x3 s, Memory.wf s.dram = true → Memory.wf (execDigestDone.inputDigest x0 x1 x2 x3 s).dram = true := by
  intros; unfold execDigestDone.inputDigest; simp only []; (repeat' split) <;> simp +contextual [*]

@[simp] theorem execDigestDone_inputDigest_wf_ws :
    ∀ x0 x1 x2 x3 s, Memory.wf s.ws = true → Memory.wf (execDigestDone.inputDigest x0 x1 x2 x3 s).ws = true := by
  intros; unfold execDigestDone.inputDigest; simp only []; (repeat' split) <;> simp +contextual [*]

theorem execDigestDone_frame_pending :
    ∀ x0 x1 x2 s t, execDigestDone x0 x1 x2 s = .next t → (t).pending = s.pending := by
  intros; rename_i h; simp only [execDigestDone] at h; (repeat' split at h) <;> (simp only [Host.Outcome.next.injEq, reduceCtorEq] at h) <;> (subst h; simp)

theorem execDigestDone_frame_time :
    ∀ x0 x1 x2 s t, execDigestDone x0 x1 x2 s = .next t → (t).time = s.time := by
  intros; rename_i h; simp only [execDigestDone] at h; (repeat' split at h) <;> (simp only [Host.Outcome.next.injEq, reduceCtorEq] at h) <;> (subst h; simp)

theorem execDigestDone_frame_boxDie :
    ∀ x0 x1 x2 s t, execDigestDone x0 x1 x2 s = .next t → (t).boxDie = s.boxDie := by
  intros; rename_i h; simp only [execDigestDone] at h; (repeat' split at h) <;> (simp only [Host.Outcome.next.injEq, reduceCtorEq] at h) <;> (subst h; simp)

theorem execDigestDone_frame_fuses :
    ∀ x0 x1 x2 s t, execDigestDone x0 x1 x2 s = .next t → (t).fuses = s.fuses := by
  intros; rename_i h; simp only [execDigestDone] at h; (repeat' split at h) <;> (simp only [Host.Outcome.next.injEq, reduceCtorEq] at h) <;> (subst h; simp)

theorem execDigestDone_wf_dram :
    ∀ x0 x1 x2 s t, Memory.wf s.dram = true → execDigestDone x0 x1 x2 s = .next t → Memory.wf (t).dram = true := by
  intros; rename_i hw h; simp only [execDigestDone] at h; (repeat' split at h) <;> (simp only [Host.Outcome.next.injEq, reduceCtorEq] at h) <;> (subst h; simp +contextual [hw])

theorem execDigestDone_wf_ws :
    ∀ x0 x1 x2 s t, Memory.wf s.ws = true → execDigestDone x0 x1 x2 s = .next t → Memory.wf (t).ws = true := by
  intros; rename_i hw h; simp only [execDigestDone] at h; (repeat' split at h) <;> (simp only [Host.Outcome.next.injEq, reduceCtorEq] at h) <;> (subst h; simp +contextual [hw])

theorem execHeadDigestFold_frame :
    ∀ x0 x1 x2 s t, execHeadDigestFold x0 x1 x2 s = .next t → (t).pending = s.pending ∧ (t).time = s.time ∧ (t).boxDie = s.boxDie ∧ (t).fuses = s.fuses ∧ (t).dram = s.dram ∧ (t).ws = s.ws := by
  intros; rename_i h; simp only [execHeadDigestFold] at h; (repeat' split at h) <;> cases h <;> simp

@[simp] theorem takeScales_frame_pending :
    ∀ x0 x1 x2 x3 s, (takeScales x0 x1 x2 x3 s).pending = s.pending := by
  intros; unfold takeScales; (repeat' split) <;> simp

@[simp] theorem takeScales_frame_time :
    ∀ x0 x1 x2 x3 s, (takeScales x0 x1 x2 x3 s).time = s.time := by
  intros; unfold takeScales; (repeat' split) <;> simp

@[simp] theorem takeScales_frame_boxDie :
    ∀ x0 x1 x2 x3 s, (takeScales x0 x1 x2 x3 s).boxDie = s.boxDie := by
  intros; unfold takeScales; (repeat' split) <;> simp

@[simp] theorem takeScales_frame_fuses :
    ∀ x0 x1 x2 x3 s, (takeScales x0 x1 x2 x3 s).fuses = s.fuses := by
  intros; unfold takeScales; (repeat' split) <;> simp

@[simp] theorem takeScales_wf_dram :
    ∀ x0 x1 x2 x3 s, Memory.wf s.dram = true → Memory.wf (takeScales x0 x1 x2 x3 s).dram = true := by
  intros; unfold takeScales; (repeat' split) <;> simp +contextual [*]

@[simp] theorem takeScales_frame_ws :
    ∀ x0 x1 x2 x3 s, (takeScales x0 x1 x2 x3 s).ws = s.ws := by
  intros; unfold takeScales; (repeat' split) <;> simp

@[simp] theorem takeUpper_frame :
    ∀ x0 x1 x2 x3 s, (takeUpper x0 x1 x2 x3 s).pending = s.pending ∧ (takeUpper x0 x1 x2 x3 s).time = s.time ∧ (takeUpper x0 x1 x2 x3 s).boxDie = s.boxDie ∧ (takeUpper x0 x1 x2 x3 s).fuses = s.fuses ∧ (takeUpper x0 x1 x2 x3 s).dram = s.dram ∧ (takeUpper x0 x1 x2 x3 s).ws = s.ws := by
  intros; simp [takeUpper]

theorem execMcast_frame_pending :
    ∀ x0 x1 s t, execMcast x0 x1 s = .next t → (t).pending = s.pending := by
  intros; rename_i h; simp only [execMcast] at h; (repeat' split at h) <;> cases h <;> simp

theorem execMcast_frame_time :
    ∀ x0 x1 s t, execMcast x0 x1 s = .next t → (t).time = s.time := by
  intros; rename_i h; simp only [execMcast] at h; (repeat' split at h) <;> cases h <;> simp

theorem execMcast_frame_boxDie :
    ∀ x0 x1 s t, execMcast x0 x1 s = .next t → (t).boxDie = s.boxDie := by
  intros; rename_i h; simp only [execMcast] at h; (repeat' split at h) <;> cases h <;> simp

theorem execMcast_frame_fuses :
    ∀ x0 x1 s t, execMcast x0 x1 s = .next t → (t).fuses = s.fuses := by
  intros; rename_i h; simp only [execMcast] at h; (repeat' split at h) <;> cases h <;> simp

theorem execMcast_wf_dram :
    ∀ x0 x1 s t, Memory.wf s.dram = true → execMcast x0 x1 s = .next t → Memory.wf (t).dram = true := by
  intros; rename_i hw h; simp only [execMcast] at h; (repeat' split at h) <;> (simp only [Host.Outcome.next.injEq, reduceCtorEq] at h) <;> (subst h; simp +contextual [hw])

theorem execMcast_wf_ws :
    ∀ x0 x1 s t, Memory.wf s.ws = true → execMcast x0 x1 s = .next t → Memory.wf (t).ws = true := by
  intros; rename_i hw h; simp only [execMcast] at h; (repeat' split at h) <;> (simp only [Host.Outcome.next.injEq, reduceCtorEq] at h) <;> (subst h; simp +contextual [hw])

theorem execBroadcastRead_frame_pending :
    ∀ x0 x1 x2 s t, execBroadcastRead x0 x1 x2 s = .next t → (t).pending = s.pending := by
  intros; rename_i h; simp only [execBroadcastRead] at h; (repeat' split at h) <;> cases h <;> simp

theorem execBroadcastRead_frame_time :
    ∀ x0 x1 x2 s t, execBroadcastRead x0 x1 x2 s = .next t → (t).time = s.time := by
  intros; rename_i h; simp only [execBroadcastRead] at h; (repeat' split at h) <;> cases h <;> simp

theorem execBroadcastRead_frame_boxDie :
    ∀ x0 x1 x2 s t, execBroadcastRead x0 x1 x2 s = .next t → (t).boxDie = s.boxDie := by
  intros; rename_i h; simp only [execBroadcastRead] at h; (repeat' split at h) <;> cases h <;> simp

theorem execBroadcastRead_frame_fuses :
    ∀ x0 x1 x2 s t, execBroadcastRead x0 x1 x2 s = .next t → (t).fuses = s.fuses := by
  intros; rename_i h; simp only [execBroadcastRead] at h; (repeat' split at h) <;> cases h <;> simp

theorem execBroadcastRead_wf_dram :
    ∀ x0 x1 x2 s t, Memory.wf s.dram = true → execBroadcastRead x0 x1 x2 s = .next t → Memory.wf (t).dram = true := by
  intros; rename_i hw h; simp only [execBroadcastRead] at h; (repeat' split at h) <;> (simp only [Host.Outcome.next.injEq, reduceCtorEq] at h) <;> (subst h; simp +contextual [hw])

theorem execBroadcastRead_wf_ws :
    ∀ x0 x1 x2 s t, Memory.wf s.ws = true → execBroadcastRead x0 x1 x2 s = .next t → Memory.wf (t).ws = true := by
  intros; rename_i hw h; simp only [execBroadcastRead] at h; (repeat' split at h) <;> (simp only [Host.Outcome.next.injEq, reduceCtorEq] at h) <;> (subst h; simp +contextual [hw])

@[simp] theorem startMove_frame :
    ∀ x0 x1 s, (startMove x0 x1 s).pending = s.pending ∧ (startMove x0 x1 s).time = s.time ∧ (startMove x0 x1 s).boxDie = s.boxDie ∧ (startMove x0 x1 s).fuses = s.fuses ∧ (startMove x0 x1 s).dram = s.dram ∧ (startMove x0 x1 s).ws = s.ws := by
  intros; simp [startMove]

theorem execLoad_frame_pending :
    ∀ x0 x1 x2 s t, execLoad x0 x1 x2 s = .next t → (t).pending = s.pending := by
  intros; rename_i h; simp only [execLoad] at h; (repeat' split at h) <;> (simp only [Host.Outcome.next.injEq, reduceCtorEq] at h) <;> (subst h; simp)

theorem execLoad_frame_time :
    ∀ x0 x1 x2 s t, execLoad x0 x1 x2 s = .next t → (t).time = s.time := by
  intros; rename_i h; simp only [execLoad] at h; (repeat' split at h) <;> (simp only [Host.Outcome.next.injEq, reduceCtorEq] at h) <;> (subst h; simp)

theorem execLoad_frame_boxDie :
    ∀ x0 x1 x2 s t, execLoad x0 x1 x2 s = .next t → (t).boxDie = s.boxDie := by
  intros; rename_i h; simp only [execLoad] at h; (repeat' split at h) <;> (simp only [Host.Outcome.next.injEq, reduceCtorEq] at h) <;> (subst h; simp)

theorem execLoad_frame_fuses :
    ∀ x0 x1 x2 s t, execLoad x0 x1 x2 s = .next t → (t).fuses = s.fuses := by
  intros; rename_i h; simp only [execLoad] at h; (repeat' split at h) <;> (simp only [Host.Outcome.next.injEq, reduceCtorEq] at h) <;> (subst h; simp)

theorem execLoad_wf_dram :
    ∀ x0 x1 x2 s t, Memory.wf s.dram = true → execLoad x0 x1 x2 s = .next t → Memory.wf (t).dram = true := by
  intros; rename_i hw h; simp only [execLoad] at h; (repeat' split at h) <;> (simp only [Host.Outcome.next.injEq, reduceCtorEq] at h) <;> (subst h; simp +contextual [hw])

theorem execLoad_wf_ws :
    ∀ x0 x1 x2 s t, Memory.wf s.ws = true → execLoad x0 x1 x2 s = .next t → Memory.wf (t).ws = true := by
  intros; rename_i hw h; simp only [execLoad] at h; (repeat' split at h) <;> (simp only [Host.Outcome.next.injEq, reduceCtorEq] at h) <;> (subst h; simp +contextual [hw])

theorem execStore_frame_pending :
    ∀ x0 x1 s t, execStore x0 x1 s = .next t → (t).pending = s.pending := by
  intros; rename_i h; simp only [execStore] at h; (repeat' split at h) <;> cases h <;> simp

theorem execStore_frame_time :
    ∀ x0 x1 s t, execStore x0 x1 s = .next t → (t).time = s.time := by
  intros; rename_i h; simp only [execStore] at h; (repeat' split at h) <;> cases h <;> simp

theorem execStore_frame_boxDie :
    ∀ x0 x1 s t, execStore x0 x1 s = .next t → (t).boxDie = s.boxDie := by
  intros; rename_i h; simp only [execStore] at h; (repeat' split at h) <;> cases h <;> simp

theorem execStore_frame_fuses :
    ∀ x0 x1 s t, execStore x0 x1 s = .next t → (t).fuses = s.fuses := by
  intros; rename_i h; simp only [execStore] at h; (repeat' split at h) <;> cases h <;> simp

theorem execStore_wf_dram :
    ∀ x0 x1 s t, Memory.wf s.dram = true → execStore x0 x1 s = .next t → Memory.wf (t).dram = true := by
  intros; rename_i hw h; simp only [execStore] at h; (repeat' split at h) <;> (simp only [Host.Outcome.next.injEq, reduceCtorEq] at h) <;> (subst h; simp +contextual [hw])

theorem execStore_frame_ws :
    ∀ x0 x1 s t, execStore x0 x1 s = .next t → (t).ws = s.ws := by
  intros; rename_i h; simp only [execStore] at h; (repeat' split at h) <;> cases h <;> simp

@[simp] theorem zeroMoments_frame_pending :
    ∀ x0 x1 s, (zeroMoments x0 x1 s).pending = s.pending := by
  intros; simp [zeroMoments]

@[simp] theorem zeroMoments_frame_time :
    ∀ x0 x1 s, (zeroMoments x0 x1 s).time = s.time := by
  intros; simp [zeroMoments]

@[simp] theorem zeroMoments_frame_boxDie :
    ∀ x0 x1 s, (zeroMoments x0 x1 s).boxDie = s.boxDie := by
  intros; simp [zeroMoments]

@[simp] theorem zeroMoments_frame_fuses :
    ∀ x0 x1 s, (zeroMoments x0 x1 s).fuses = s.fuses := by
  intros; simp [zeroMoments]

@[simp] theorem zeroMoments_wf_dram :
    ∀ x0 x1 s, Memory.wf s.dram = true → Memory.wf (zeroMoments x0 x1 s).dram = true := by
  intros; simp +contextual [zeroMoments, *]

@[simp] theorem zeroMoments_frame_ws :
    ∀ x0 x1 s, (zeroMoments x0 x1 s).ws = s.ws := by
  intros; simp [zeroMoments]

theorem execZeroMoments_frame : ∀ x0 x1 x2 s t, execZeroMoments x0 x1 x2 s = .next t → t.pending = s.pending ∧ t.time = s.time ∧ t.boxDie = s.boxDie ∧ t.fuses = s.fuses := by
  intros; rename_i h; simp only [execZeroMoments] at h; (repeat' split at h) <;> simp only [Host.Outcome.next.injEq] at h <;> subst h <;> simp

theorem execZeroMoments_wf_dram : ∀ x0 x1 x2 s t, Memory.wf s.dram = true → execZeroMoments x0 x1 x2 s = .next t → Memory.wf t.dram = true := by
  intros; rename_i hw h; unfold execZeroMoments at h; (repeat' split at h) <;> simp only [Host.Outcome.next.injEq] at h <;> subst h <;> first
    | exact hw
    | (simp only [startMove_frame]; exact modShard_wf_dram _ _ _ (zeroMoments_wf_dram _ _ _ (readErrors_wf_dram _ _ _ _ hw)))

theorem execZeroMoments_wf_ws : ∀ x0 x1 x2 s t, Memory.wf s.ws = true → execZeroMoments x0 x1 x2 s = .next t → Memory.wf t.ws = true := by
  intros; rename_i hw h; unfold execZeroMoments at h; (repeat' split at h) <;> simp only [Host.Outcome.next.injEq] at h <;> subst h <;> first
    | exact hw
    | (simp; exact readErrors_wf_ws _ _ _ _ hw)

theorem execMoveDone_frame :
    ∀ x0 x1 s t, execMoveDone x0 x1 s = .next t → (t).pending = s.pending ∧ (t).time = s.time ∧ (t).boxDie = s.boxDie ∧ (t).fuses = s.fuses ∧ (t).dram = s.dram ∧ (t).ws = s.ws := by
  intros; rename_i h; simp only [execMoveDone] at h; (repeat' split at h) <;> cases h <;> simp

theorem execPatrolScrub_frame_pending :
    ∀ x0 x1 s t, execPatrolScrub x0 x1 s = .next t → (t).pending = s.pending := by
  intros; rename_i h; simp only [execPatrolScrub] at h; (repeat' split at h) <;> cases h <;> simp

theorem execPatrolScrub_frame_time :
    ∀ x0 x1 s t, execPatrolScrub x0 x1 s = .next t → (t).time = s.time := by
  intros; rename_i h; simp only [execPatrolScrub] at h; (repeat' split at h) <;> cases h <;> simp

theorem execPatrolScrub_frame_boxDie :
    ∀ x0 x1 s t, execPatrolScrub x0 x1 s = .next t → (t).boxDie = s.boxDie := by
  intros; rename_i h; simp only [execPatrolScrub] at h; (repeat' split at h) <;> cases h <;> simp

theorem execPatrolScrub_frame_fuses :
    ∀ x0 x1 s t, execPatrolScrub x0 x1 s = .next t → (t).fuses = s.fuses := by
  intros; rename_i h; simp only [execPatrolScrub] at h; (repeat' split at h) <;> cases h <;> simp

theorem execPatrolScrub_wf_dram :
    ∀ x0 x1 s t, Memory.wf s.dram = true → execPatrolScrub x0 x1 s = .next t → Memory.wf (t).dram = true := by
  intros; rename_i hw h; simp only [execPatrolScrub] at h; (repeat' split at h) <;> (simp only [Host.Outcome.next.injEq, reduceCtorEq] at h) <;> (subst h; simp +contextual [hw])

theorem execPatrolScrub_wf_ws :
    ∀ x0 x1 s t, Memory.wf s.ws = true → execPatrolScrub x0 x1 s = .next t → Memory.wf (t).ws = true := by
  intros; rename_i hw h; simp only [execPatrolScrub] at h; (repeat' split at h) <;> (simp only [Host.Outcome.next.injEq, reduceCtorEq] at h) <;> (subst h; simp +contextual [hw])

/-! ### Project -/

@[simp] theorem modBand_frame :
    ∀ x0 x1 x2 x3 s, (modBand x0 x1 x2 x3 s).pending = s.pending ∧ (modBand x0 x1 x2 x3 s).time = s.time ∧ (modBand x0 x1 x2 x3 s).boxDie = s.boxDie ∧ (modBand x0 x1 x2 x3 s).fuses = s.fuses ∧ (modBand x0 x1 x2 x3 s).dram = s.dram ∧ (modBand x0 x1 x2 x3 s).ws = s.ws := by
  intros; simp [modBand]

theorem execBandForm_frame_pending :
    ∀ x0 x1 x2 x3 s t, execBandForm x0 x1 x2 x3 s = .next t → (t).pending = s.pending := by
  intros; rename_i h; simp only [execBandForm] at h; (repeat' split at h) <;> (simp only [Host.Outcome.next.injEq, reduceCtorEq] at h) <;> (subst h; simp)

theorem execBandForm_frame_time :
    ∀ x0 x1 x2 x3 s t, execBandForm x0 x1 x2 x3 s = .next t → (t).time = s.time := by
  intros; rename_i h; simp only [execBandForm] at h; (repeat' split at h) <;> (simp only [Host.Outcome.next.injEq, reduceCtorEq] at h) <;> (subst h; simp)

theorem execBandForm_frame_boxDie :
    ∀ x0 x1 x2 x3 s t, execBandForm x0 x1 x2 x3 s = .next t → (t).boxDie = s.boxDie := by
  intros; rename_i h; simp only [execBandForm] at h; (repeat' split at h) <;> (simp only [Host.Outcome.next.injEq, reduceCtorEq] at h) <;> (subst h; simp)

theorem execBandForm_frame_fuses :
    ∀ x0 x1 x2 x3 s t, execBandForm x0 x1 x2 x3 s = .next t → (t).fuses = s.fuses := by
  intros; rename_i h; simp only [execBandForm] at h; (repeat' split at h) <;> (simp only [Host.Outcome.next.injEq, reduceCtorEq] at h) <;> (subst h; simp)

theorem execBandForm_wf_dram :
    ∀ x0 x1 x2 x3 s t, Memory.wf s.dram = true → execBandForm x0 x1 x2 x3 s = .next t → Memory.wf (t).dram = true := by
  intros; rename_i hw h; simp only [execBandForm] at h; (repeat' split at h) <;> (simp only [Host.Outcome.next.injEq, reduceCtorEq] at h) <;> (subst h; simp +contextual [hw])

theorem execBandForm_wf_ws :
    ∀ x0 x1 x2 x3 s t, Memory.wf s.ws = true → execBandForm x0 x1 x2 x3 s = .next t → Memory.wf (t).ws = true := by
  intros; rename_i hw h; simp only [execBandForm] at h; (repeat' split at h) <;> (simp only [Host.Outcome.next.injEq, reduceCtorEq] at h) <;> (subst h; simp +contextual [hw])

@[simp] theorem releaseReady_frame_pending :
    ∀ x0 x1 s, (releaseReady x0 x1 s).pending = s.pending := by
  intros; simp [releaseReady]

@[simp] theorem releaseReady_frame_time :
    ∀ x0 x1 s, (releaseReady x0 x1 s).time = s.time := by
  intros; simp [releaseReady]

@[simp] theorem releaseReady_frame_boxDie :
    ∀ x0 x1 s, (releaseReady x0 x1 s).boxDie = s.boxDie := by
  intros; simp [releaseReady]

@[simp] theorem releaseReady_frame_fuses :
    ∀ x0 x1 s, (releaseReady x0 x1 s).fuses = s.fuses := by
  intros; simp [releaseReady]

@[simp] theorem releaseReady_wf_dram :
    ∀ x0 x1 s, Memory.wf s.dram = true → Memory.wf (releaseReady x0 x1 s).dram = true := by
  intros; unfold releaseReady; (repeat' split) <;> simp +contextual [*]

@[simp] theorem releaseReady_frame_ws :
    ∀ x0 x1 s, (releaseReady x0 x1 s).ws = s.ws := by
  intros; simp [releaseReady]

@[simp] theorem expandZ4_frame :
    ∀ x0 x1 x2 x3 s, (expandZ4 x0 x1 x2 x3 s).pending = s.pending ∧ (expandZ4 x0 x1 x2 x3 s).time = s.time ∧ (expandZ4 x0 x1 x2 x3 s).boxDie = s.boxDie ∧ (expandZ4 x0 x1 x2 x3 s).fuses = s.fuses ∧ (expandZ4 x0 x1 x2 x3 s).dram = s.dram ∧ (expandZ4 x0 x1 x2 x3 s).ws = s.ws := by
  intros; simp [expandZ4]

theorem execPassIssue_frame_pending :
    ∀ x0 x1 x2 x3 x4 s t, execPassIssue x0 x1 x2 x3 x4 s = .next t → (t).pending = s.pending := by
  intros; rename_i h; simp only [execPassIssue] at h; (repeat' split at h) <;> cases h <;> simp

theorem execPassIssue_frame_time :
    ∀ x0 x1 x2 x3 x4 s t, execPassIssue x0 x1 x2 x3 x4 s = .next t → (t).time = s.time := by
  intros; rename_i h; simp only [execPassIssue] at h; (repeat' split at h) <;> cases h <;> simp

theorem execPassIssue_frame_boxDie :
    ∀ x0 x1 x2 x3 x4 s t, execPassIssue x0 x1 x2 x3 x4 s = .next t → (t).boxDie = s.boxDie := by
  intros; rename_i h; simp only [execPassIssue] at h; (repeat' split at h) <;> cases h <;> simp

theorem execPassIssue_frame_fuses :
    ∀ x0 x1 x2 x3 x4 s t, execPassIssue x0 x1 x2 x3 x4 s = .next t → (t).fuses = s.fuses := by
  intros; rename_i h; simp only [execPassIssue] at h; (repeat' split at h) <;> cases h <;> simp

theorem execPassIssue_wf_dram :
    ∀ x0 x1 x2 x3 x4 s t, Memory.wf s.dram = true → execPassIssue x0 x1 x2 x3 x4 s = .next t → Memory.wf (t).dram = true := by
  intros; rename_i hw h; simp only [execPassIssue] at h; (repeat' split at h) <;> (simp only [Host.Outcome.next.injEq, reduceCtorEq] at h) <;> (subst h; simp +contextual [hw])

theorem execPassIssue_wf_ws :
    ∀ x0 x1 x2 x3 x4 s t, Memory.wf s.ws = true → execPassIssue x0 x1 x2 x3 x4 s = .next t → Memory.wf (t).ws = true := by
  intros; rename_i hw h; simp only [execPassIssue] at h; (repeat' split at h) <;> (simp only [Host.Outcome.next.injEq, reduceCtorEq] at h) <;> (subst h; simp +contextual [hw])

theorem execPassDone_frame_pending :
    ∀ x0 x1 s t, execPassDone x0 x1 s = .next t → (t).pending = s.pending := by
  intros; rename_i h; simp only [execPassDone] at h; (repeat' split at h) <;> cases h <;> simp

theorem execPassDone_frame_time :
    ∀ x0 x1 s t, execPassDone x0 x1 s = .next t → (t).time = s.time := by
  intros; rename_i h; simp only [execPassDone] at h; (repeat' split at h) <;> cases h <;> simp

theorem execPassDone_frame_boxDie :
    ∀ x0 x1 s t, execPassDone x0 x1 s = .next t → (t).boxDie = s.boxDie := by
  intros; rename_i h; simp only [execPassDone] at h; (repeat' split at h) <;> cases h <;> simp

theorem execPassDone_frame_fuses :
    ∀ x0 x1 s t, execPassDone x0 x1 s = .next t → (t).fuses = s.fuses := by
  intros; rename_i h; simp only [execPassDone] at h; (repeat' split at h) <;> cases h <;> simp

theorem execPassDone_wf_dram :
    ∀ x0 x1 s t, Memory.wf s.dram = true → execPassDone x0 x1 s = .next t → Memory.wf (t).dram = true := by
  intros; rename_i hw h; simp only [execPassDone] at h; (repeat' split at h) <;> (simp only [Host.Outcome.next.injEq, reduceCtorEq] at h) <;> (subst h; simp +contextual [hw])

theorem execPassDone_wf_ws :
    ∀ x0 x1 s t, Memory.wf s.ws = true → execPassDone x0 x1 s = .next t → Memory.wf (t).ws = true := by
  intros; rename_i hw h; simp only [execPassDone] at h; (repeat' split at h) <;> (simp only [Host.Outcome.next.injEq, reduceCtorEq] at h) <;> (subst h; simp +contextual [hw])

theorem execResidualWrite_frame_pending :
    ∀ x0 x1 s t, execResidualWrite x0 x1 s = .next t → (t).pending = s.pending := by
  intros; rename_i h; simp only [execResidualWrite] at h; (repeat' split at h) <;> cases h <;> simp

theorem execResidualWrite_frame_time :
    ∀ x0 x1 s t, execResidualWrite x0 x1 s = .next t → (t).time = s.time := by
  intros; rename_i h; simp only [execResidualWrite] at h; (repeat' split at h) <;> cases h <;> simp

theorem execResidualWrite_frame_boxDie :
    ∀ x0 x1 s t, execResidualWrite x0 x1 s = .next t → (t).boxDie = s.boxDie := by
  intros; rename_i h; simp only [execResidualWrite] at h; (repeat' split at h) <;> cases h <;> simp

theorem execResidualWrite_frame_fuses :
    ∀ x0 x1 s t, execResidualWrite x0 x1 s = .next t → (t).fuses = s.fuses := by
  intros; rename_i h; simp only [execResidualWrite] at h; (repeat' split at h) <;> cases h <;> simp

theorem execResidualWrite_wf_dram :
    ∀ x0 x1 s t, Memory.wf s.dram = true → execResidualWrite x0 x1 s = .next t → Memory.wf (t).dram = true := by
  intros; rename_i hw h; simp only [execResidualWrite] at h; (repeat' split at h) <;> (simp only [Host.Outcome.next.injEq, reduceCtorEq] at h) <;> (subst h; simp +contextual [hw])

theorem execResidualWrite_frame_ws :
    ∀ x0 x1 s t, execResidualWrite x0 x1 s = .next t → (t).ws = s.ws := by
  intros; rename_i h; simp only [execResidualWrite] at h; (repeat' split at h) <;> cases h <;> simp

/-! ### CmdOps -/

@[simp] theorem endOpen_frame :
    ∀ x0 s, (endOpen x0 s).pending = s.pending ∧ (endOpen x0 s).time = s.time ∧ (endOpen x0 s).boxDie = s.boxDie ∧ (endOpen x0 s).fuses = s.fuses ∧ (endOpen x0 s).dram = s.dram ∧ (endOpen x0 s).ws = s.ws := by
  intros; simp [endOpen]

/-! ### Wardrobe -/

@[simp] theorem wordError_frame_pending :
    ∀ x0 s, (wordError x0 s).pending = s.pending := by
  intros; unfold wordError; (repeat' split) <;> simp

@[simp] theorem wordError_frame_time :
    ∀ x0 s, (wordError x0 s).time = s.time := by
  intros; unfold wordError; (repeat' split) <;> simp

@[simp] theorem wordError_frame_boxDie :
    ∀ x0 s, (wordError x0 s).boxDie = s.boxDie := by
  intros; unfold wordError; (repeat' split) <;> simp

@[simp] theorem wordError_frame_fuses :
    ∀ x0 s, (wordError x0 s).fuses = s.fuses := by
  intros; unfold wordError; (repeat' split) <;> simp

@[simp] theorem wordError_wf_dram :
    ∀ x0 s, Memory.wf s.dram = true → Memory.wf (wordError x0 s).dram = true := by
  intros; unfold wordError; (repeat' split) <;> simp +contextual [*]

@[simp] theorem wordError_wf_ws :
    ∀ x0 s, Memory.wf s.ws = true → Memory.wf (wordError x0 s).ws = true := by
  intros; unfold wordError; (repeat' split) <;> simp +contextual [*]

@[simp] theorem convertGroup_frame_pending :
    ∀ x0 x1 x2 x3 x4 x5 x6 x7 s, (convertGroup x0 x1 x2 x3 x4 x5 x6 x7 s).pending = s.pending := by
  intros; simp [convertGroup]

@[simp] theorem convertGroup_frame_time :
    ∀ x0 x1 x2 x3 x4 x5 x6 x7 s, (convertGroup x0 x1 x2 x3 x4 x5 x6 x7 s).time = s.time := by
  intros; simp [convertGroup]

@[simp] theorem convertGroup_frame_boxDie :
    ∀ x0 x1 x2 x3 x4 x5 x6 x7 s, (convertGroup x0 x1 x2 x3 x4 x5 x6 x7 s).boxDie = s.boxDie := by
  intros; simp [convertGroup]

@[simp] theorem convertGroup_frame_fuses :
    ∀ x0 x1 x2 x3 x4 x5 x6 x7 s, (convertGroup x0 x1 x2 x3 x4 x5 x6 x7 s).fuses = s.fuses := by
  intros; simp [convertGroup]

@[simp] theorem convertGroup_frame_dram :
    ∀ x0 x1 x2 x3 x4 x5 x6 x7 s, (convertGroup x0 x1 x2 x3 x4 x5 x6 x7 s).dram = s.dram := by
  intros; simp [convertGroup]

@[simp] theorem convertGroup_wf_ws :
    ∀ x0 x1 x2 x3 x4 x5 x6 x7 s, Memory.wf s.ws = true → Memory.wf (convertGroup x0 x1 x2 x3 x4 x5 x6 x7 s).ws = true := by
  intros; unfold convertGroup; (repeat' split) <;> simp +contextual [*]

@[simp] theorem castJob_frame_pending :
    ∀ x0 x1 x2 x3 x4 x5 x6 s, (castJob x0 x1 x2 x3 x4 x5 x6 s).pending = s.pending := by
  intros; simp [castJob]

@[simp] theorem castJob_frame_time :
    ∀ x0 x1 x2 x3 x4 x5 x6 s, (castJob x0 x1 x2 x3 x4 x5 x6 s).time = s.time := by
  intros; simp [castJob]

@[simp] theorem castJob_frame_boxDie :
    ∀ x0 x1 x2 x3 x4 x5 x6 s, (castJob x0 x1 x2 x3 x4 x5 x6 s).boxDie = s.boxDie := by
  intros; simp [castJob]

@[simp] theorem castJob_frame_fuses :
    ∀ x0 x1 x2 x3 x4 x5 x6 s, (castJob x0 x1 x2 x3 x4 x5 x6 s).fuses = s.fuses := by
  intros; simp [castJob]

@[simp] theorem castJob_wf_dram :
    ∀ x0 x1 x2 x3 x4 x5 x6 s, Memory.wf s.dram = true → Memory.wf (castJob x0 x1 x2 x3 x4 x5 x6 s).dram = true := by
  intros; simp +contextual [castJob, *]

@[simp] theorem castJob_frame_ws :
    ∀ x0 x1 x2 x3 x4 x5 x6 s, (castJob x0 x1 x2 x3 x4 x5 x6 s).ws = s.ws := by
  intros; simp [castJob]

@[simp] theorem castBroadcast_frame_pending :
    ∀ x0 x1 x2 x3 x4 s, (castBroadcast x0 x1 x2 x3 x4 s).pending = s.pending := by
  intros; simp [castBroadcast]

@[simp] theorem castBroadcast_frame_time :
    ∀ x0 x1 x2 x3 x4 s, (castBroadcast x0 x1 x2 x3 x4 s).time = s.time := by
  intros; simp [castBroadcast]

@[simp] theorem castBroadcast_frame_boxDie :
    ∀ x0 x1 x2 x3 x4 s, (castBroadcast x0 x1 x2 x3 x4 s).boxDie = s.boxDie := by
  intros; simp [castBroadcast]

@[simp] theorem castBroadcast_frame_fuses :
    ∀ x0 x1 x2 x3 x4 s, (castBroadcast x0 x1 x2 x3 x4 s).fuses = s.fuses := by
  intros; simp [castBroadcast]

@[simp] theorem castBroadcast_wf_dram :
    ∀ x0 x1 x2 x3 x4 s, Memory.wf s.dram = true → Memory.wf (castBroadcast x0 x1 x2 x3 x4 s).dram = true := by
  intros; simp +contextual [castBroadcast, *]

@[simp] theorem castBroadcast_wf_ws :
    ∀ x0 x1 x2 x3 x4 s, Memory.wf s.ws = true → Memory.wf (castBroadcast x0 x1 x2 x3 x4 s).ws = true := by
  intros; simp +contextual [castBroadcast, *]

@[simp] theorem castOwn_frame_pending :
    ∀ x0 x1 x2 x3 x4 x5 s, (castOwn x0 x1 x2 x3 x4 x5 s).pending = s.pending := by
  intros; simp only [castOwn]; (repeat' split) <;> simp

@[simp] theorem castOwn_frame_time :
    ∀ x0 x1 x2 x3 x4 x5 s, (castOwn x0 x1 x2 x3 x4 x5 s).time = s.time := by
  intros; simp only [castOwn]; (repeat' split) <;> simp

@[simp] theorem castOwn_frame_boxDie :
    ∀ x0 x1 x2 x3 x4 x5 s, (castOwn x0 x1 x2 x3 x4 x5 s).boxDie = s.boxDie := by
  intros; simp only [castOwn]; (repeat' split) <;> simp

@[simp] theorem castOwn_frame_fuses :
    ∀ x0 x1 x2 x3 x4 x5 s, (castOwn x0 x1 x2 x3 x4 x5 s).fuses = s.fuses := by
  intros; simp only [castOwn]; (repeat' split) <;> simp

@[simp] theorem castOwn_wf_dram :
    ∀ x0 x1 x2 x3 x4 x5 s, Memory.wf s.dram = true → Memory.wf (castOwn x0 x1 x2 x3 x4 x5 s).dram = true := by
  intros; unfold castOwn; simp only []; (repeat' split) <;> simp +contextual [*]

@[simp] theorem castOwn_wf_ws :
    ∀ x0 x1 x2 x3 x4 x5 s, Memory.wf s.ws = true → Memory.wf (castOwn x0 x1 x2 x3 x4 x5 s).ws = true := by
  intros; unfold castOwn; simp only []; (repeat' split) <;> simp +contextual [*]

theorem execCastIssue_frame_pending :
    ∀ x0 x1 x2 s t, execCastIssue x0 x1 x2 s = .next t → (t).pending = s.pending := by
  intros; rename_i h; unfold execCastIssue at h; simp only [] at h; (repeat' split at h) <;> first | exact castBroadcast_frame _ _ _ _ _ _ h | (simp only [Host.Outcome.next.injEq, reduceCtorEq] at h; subst h; simp)

theorem execCastIssue_frame_time :
    ∀ x0 x1 x2 s t, execCastIssue x0 x1 x2 s = .next t → (t).time = s.time := by
  intros; rename_i h; unfold execCastIssue at h; simp only [] at h; (repeat' split at h) <;> first | exact castBroadcast_frame _ _ _ _ _ _ h | (simp only [Host.Outcome.next.injEq, reduceCtorEq] at h; subst h; simp)

theorem execCastIssue_frame_boxDie :
    ∀ x0 x1 x2 s t, execCastIssue x0 x1 x2 s = .next t → (t).boxDie = s.boxDie := by
  intros; rename_i h; unfold execCastIssue at h; simp only [] at h; (repeat' split at h) <;> first | exact castBroadcast_frame _ _ _ _ _ _ h | (simp only [Host.Outcome.next.injEq, reduceCtorEq] at h; subst h; simp)

theorem execCastIssue_frame_fuses :
    ∀ x0 x1 x2 s t, execCastIssue x0 x1 x2 s = .next t → (t).fuses = s.fuses := by
  intros; rename_i h; unfold execCastIssue at h; simp only [] at h; (repeat' split at h) <;> first | exact castBroadcast_frame _ _ _ _ _ _ h | (simp only [Host.Outcome.next.injEq, reduceCtorEq] at h; subst h; simp)

theorem execCastIssue_wf_dram :
    ∀ x0 x1 x2 s t, Memory.wf s.dram = true → execCastIssue x0 x1 x2 s = .next t → Memory.wf (t).dram = true := by
  intros; rename_i hw h; simp only [execCastIssue] at h; (repeat' split at h) <;> (simp only [Host.Outcome.next.injEq, reduceCtorEq] at h) <;> (subst h; simp +contextual [hw])

theorem execCastIssue_wf_ws :
    ∀ x0 x1 x2 s t, Memory.wf s.ws = true → execCastIssue x0 x1 x2 s = .next t → Memory.wf (t).ws = true := by
  intros; rename_i hw h; simp only [execCastIssue] at h; (repeat' split at h) <;> (simp only [Host.Outcome.next.injEq, reduceCtorEq] at h) <;> (subst h; simp +contextual [hw])

theorem execConvert_frame_pending :
    ∀ x0 x1 x2 s t, execConvert x0 x1 x2 s = .next t → (t).pending = s.pending := by
  intros; rename_i h; simp only [execConvert] at h; (repeat' split at h) <;> (simp only [Host.Outcome.next.injEq, reduceCtorEq] at h) <;> (subst h; simp)

theorem execConvert_frame_time :
    ∀ x0 x1 x2 s t, execConvert x0 x1 x2 s = .next t → (t).time = s.time := by
  intros; rename_i h; simp only [execConvert] at h; (repeat' split at h) <;> (simp only [Host.Outcome.next.injEq, reduceCtorEq] at h) <;> (subst h; simp)

theorem execConvert_frame_boxDie :
    ∀ x0 x1 x2 s t, execConvert x0 x1 x2 s = .next t → (t).boxDie = s.boxDie := by
  intros; rename_i h; simp only [execConvert] at h; (repeat' split at h) <;> (simp only [Host.Outcome.next.injEq, reduceCtorEq] at h) <;> (subst h; simp)

theorem execConvert_frame_fuses :
    ∀ x0 x1 x2 s t, execConvert x0 x1 x2 s = .next t → (t).fuses = s.fuses := by
  intros; rename_i h; simp only [execConvert] at h; (repeat' split at h) <;> (simp only [Host.Outcome.next.injEq, reduceCtorEq] at h) <;> (subst h; simp)

theorem execConvert_wf_dram :
    ∀ x0 x1 x2 s t, Memory.wf s.dram = true → execConvert x0 x1 x2 s = .next t → Memory.wf (t).dram = true := by
  intros; rename_i hw h; simp only [execConvert] at h; (repeat' split at h) <;> (simp only [Host.Outcome.next.injEq, reduceCtorEq] at h) <;> (subst h; simp +contextual [hw])

theorem execConvert_wf_ws :
    ∀ x0 x1 x2 s t, Memory.wf s.ws = true → execConvert x0 x1 x2 s = .next t → Memory.wf (t).ws = true := by
  intros; rename_i hw h; simp only [execConvert] at h; (repeat' split at h) <;> (simp only [Host.Outcome.next.injEq, reduceCtorEq] at h) <;> (subst h; simp +contextual [hw])

theorem execConvertDone_frame :
    ∀ x0 x1 s t, execConvertDone x0 x1 s = .next t → (t).pending = s.pending ∧ (t).time = s.time ∧ (t).boxDie = s.boxDie ∧ (t).fuses = s.fuses ∧ (t).dram = s.dram ∧ (t).ws = s.ws := by
  intros; rename_i h; simp only [execConvertDone] at h; (repeat' split at h) <;> (simp only [Host.Outcome.next.injEq, reduceCtorEq] at h) <;> (subst h; simp)

@[simp] theorem markStaged_frame :
    ∀ x0 x1 x2 x3 x4 x5 s, (markStaged x0 x1 x2 x3 x4 x5 s).pending = s.pending ∧ (markStaged x0 x1 x2 x3 x4 x5 s).time = s.time ∧ (markStaged x0 x1 x2 x3 x4 x5 s).boxDie = s.boxDie ∧ (markStaged x0 x1 x2 x3 x4 x5 s).fuses = s.fuses ∧ (markStaged x0 x1 x2 x3 x4 x5 s).dram = s.dram ∧ (markStaged x0 x1 x2 x3 x4 x5 s).ws = s.ws := by
  intros; simp [markStaged]

@[simp] theorem prjCast_frame :
    ∀ x0 x1 x2 s, (prjCast x0 x1 x2 s).pending = s.pending ∧ (prjCast x0 x1 x2 s).time = s.time ∧ (prjCast x0 x1 x2 s).boxDie = s.boxDie ∧ (prjCast x0 x1 x2 s).fuses = s.fuses ∧ (prjCast x0 x1 x2 s).dram = s.dram ∧ (prjCast x0 x1 x2 s).ws = s.ws := by
  intros; simp [prjCast]

@[simp] theorem stageDirect_frame :
    ∀ x0 x1 x2 x3 x4 x5 x6 s, (stageDirect x0 x1 x2 x3 x4 x5 x6 s).pending = s.pending ∧ (stageDirect x0 x1 x2 x3 x4 x5 x6 s).time = s.time ∧ (stageDirect x0 x1 x2 x3 x4 x5 x6 s).boxDie = s.boxDie ∧ (stageDirect x0 x1 x2 x3 x4 x5 x6 s).fuses = s.fuses ∧ (stageDirect x0 x1 x2 x3 x4 x5 x6 s).dram = s.dram ∧ (stageDirect x0 x1 x2 x3 x4 x5 x6 s).ws = s.ws := by
  intros; simp [stageDirect]

@[simp] theorem stageBand_frame :
    ∀ x0 x1 x2 x3 x4 x5 x6 x7 s, (stageBand x0 x1 x2 x3 x4 x5 x6 x7 s).pending = s.pending ∧ (stageBand x0 x1 x2 x3 x4 x5 x6 x7 s).time = s.time ∧ (stageBand x0 x1 x2 x3 x4 x5 x6 x7 s).boxDie = s.boxDie ∧ (stageBand x0 x1 x2 x3 x4 x5 x6 x7 s).fuses = s.fuses ∧ (stageBand x0 x1 x2 x3 x4 x5 x6 x7 s).dram = s.dram ∧ (stageBand x0 x1 x2 x3 x4 x5 x6 x7 s).ws = s.ws := by
  intros; simp [stageBand]

theorem execBandStage_frame_pending :
    ∀ x0 x1 x2 s t, execBandStage x0 x1 x2 s = .next t → (t).pending = s.pending := by
  intros; rename_i h; simp only [execBandStage] at h; (repeat' split at h) <;> (simp only [Host.Outcome.next.injEq, reduceCtorEq] at h) <;> (subst h; simp)

theorem execBandStage_frame_time :
    ∀ x0 x1 x2 s t, execBandStage x0 x1 x2 s = .next t → (t).time = s.time := by
  intros; rename_i h; simp only [execBandStage] at h; (repeat' split at h) <;> (simp only [Host.Outcome.next.injEq, reduceCtorEq] at h) <;> (subst h; simp)

theorem execBandStage_frame_boxDie :
    ∀ x0 x1 x2 s t, execBandStage x0 x1 x2 s = .next t → (t).boxDie = s.boxDie := by
  intros; rename_i h; simp only [execBandStage] at h; (repeat' split at h) <;> (simp only [Host.Outcome.next.injEq, reduceCtorEq] at h) <;> (subst h; simp)

theorem execBandStage_frame_fuses :
    ∀ x0 x1 x2 s t, execBandStage x0 x1 x2 s = .next t → (t).fuses = s.fuses := by
  intros; rename_i h; simp only [execBandStage] at h; (repeat' split at h) <;> (simp only [Host.Outcome.next.injEq, reduceCtorEq] at h) <;> (subst h; simp)

theorem execBandStage_wf_dram :
    ∀ x0 x1 x2 s t, Memory.wf s.dram = true → execBandStage x0 x1 x2 s = .next t → Memory.wf (t).dram = true := by
  intros; rename_i hw h; simp only [execBandStage] at h; (repeat' split at h) <;> (simp only [Host.Outcome.next.injEq, reduceCtorEq] at h) <;> (subst h; simp +contextual [hw])

theorem execBandStage_wf_ws :
    ∀ x0 x1 x2 s t, Memory.wf s.ws = true → execBandStage x0 x1 x2 s = .next t → Memory.wf (t).ws = true := by
  intros; rename_i hw h; simp only [execBandStage] at h; (repeat' split at h) <;> (simp only [Host.Outcome.next.injEq, reduceCtorEq] at h) <;> (subst h; simp +contextual [hw])

@[simp] theorem sendCastSeg_frame_pending :
    ∀ x0 x1 x2 x3 s, (sendCastSeg x0 x1 x2 x3 s).pending = s.pending := by
  intros; unfold sendCastSeg; (repeat' split) <;> simp

@[simp] theorem sendCastSeg_frame_time :
    ∀ x0 x1 x2 x3 s, (sendCastSeg x0 x1 x2 x3 s).time = s.time := by
  intros; unfold sendCastSeg; (repeat' split) <;> simp

@[simp] theorem sendCastSeg_frame_boxDie :
    ∀ x0 x1 x2 x3 s, (sendCastSeg x0 x1 x2 x3 s).boxDie = s.boxDie := by
  intros; unfold sendCastSeg; (repeat' split) <;> simp

@[simp] theorem sendCastSeg_frame_fuses :
    ∀ x0 x1 x2 x3 s, (sendCastSeg x0 x1 x2 x3 s).fuses = s.fuses := by
  intros; unfold sendCastSeg; (repeat' split) <;> simp

@[simp] theorem sendCastSeg_wf_dram :
    ∀ x0 x1 x2 x3 s, Memory.wf s.dram = true → Memory.wf (sendCastSeg x0 x1 x2 x3 s).dram = true := by
  intros; unfold sendCastSeg; (repeat' split) <;> simp +contextual [*]

@[simp] theorem sendCastSeg_wf_ws :
    ∀ x0 x1 x2 x3 s, Memory.wf s.ws = true → Memory.wf (sendCastSeg x0 x1 x2 x3 s).ws = true := by
  intros; unfold sendCastSeg; (repeat' split) <;> simp +contextual [*]

@[simp] theorem sendBlocks_frame_pending :
    ∀ x0 x1 x2 x3 x4 s x6, (sendBlocks x0 x1 x2 x3 x4 s x6).pending = s.pending := by
  intros; unfold sendBlocks; (repeat' split) <;> simp

@[simp] theorem sendBlocks_frame_time :
    ∀ x0 x1 x2 x3 x4 s x6, (sendBlocks x0 x1 x2 x3 x4 s x6).time = s.time := by
  intros; unfold sendBlocks; (repeat' split) <;> simp

@[simp] theorem sendBlocks_frame_boxDie :
    ∀ x0 x1 x2 x3 x4 s x6, (sendBlocks x0 x1 x2 x3 x4 s x6).boxDie = s.boxDie := by
  intros; unfold sendBlocks; (repeat' split) <;> simp

@[simp] theorem sendBlocks_frame_fuses :
    ∀ x0 x1 x2 x3 x4 s x6, (sendBlocks x0 x1 x2 x3 x4 s x6).fuses = s.fuses := by
  intros; unfold sendBlocks; (repeat' split) <;> simp

@[simp] theorem sendBlocks_wf_dram :
    ∀ x0 x1 x2 x3 x4 s x6, Memory.wf s.dram = true → Memory.wf (sendBlocks x0 x1 x2 x3 x4 s x6).dram = true := by
  intros; unfold sendBlocks; simp only []; (repeat' split) <;> simp +contextual [*]

@[simp] theorem sendBlocks_wf_ws :
    ∀ x0 x1 x2 x3 x4 s x6, Memory.wf s.ws = true → Memory.wf (sendBlocks x0 x1 x2 x3 x4 s x6).ws = true := by
  intros; unfold sendBlocks; simp only []; (repeat' split) <;> simp +contextual [*]

theorem execBandSend_frame_pending :
    ∀ x0 x1 x2 s t, execBandSend x0 x1 x2 s = .next t → (t).pending = s.pending := by
  intros; rename_i h; simp only [execBandSend] at h; (repeat' split at h) <;> (simp only [Host.Outcome.next.injEq, reduceCtorEq] at h) <;> (subst h; simp)

theorem execBandSend_frame_time :
    ∀ x0 x1 x2 s t, execBandSend x0 x1 x2 s = .next t → (t).time = s.time := by
  intros; rename_i h; simp only [execBandSend] at h; (repeat' split at h) <;> (simp only [Host.Outcome.next.injEq, reduceCtorEq] at h) <;> (subst h; simp)

theorem execBandSend_frame_boxDie :
    ∀ x0 x1 x2 s t, execBandSend x0 x1 x2 s = .next t → (t).boxDie = s.boxDie := by
  intros; rename_i h; simp only [execBandSend] at h; (repeat' split at h) <;> (simp only [Host.Outcome.next.injEq, reduceCtorEq] at h) <;> (subst h; simp)

theorem execBandSend_frame_fuses :
    ∀ x0 x1 x2 s t, execBandSend x0 x1 x2 s = .next t → (t).fuses = s.fuses := by
  intros; rename_i h; simp only [execBandSend] at h; (repeat' split at h) <;> (simp only [Host.Outcome.next.injEq, reduceCtorEq] at h) <;> (subst h; simp)

theorem execBandSend_wf_dram :
    ∀ x0 x1 x2 s t, Memory.wf s.dram = true → execBandSend x0 x1 x2 s = .next t → Memory.wf (t).dram = true := by
  intros; rename_i hw h; simp only [execBandSend] at h; (repeat' split at h) <;> (simp only [Host.Outcome.next.injEq, reduceCtorEq] at h) <;> (subst h; simp +contextual [hw])

theorem execBandSend_wf_ws :
    ∀ x0 x1 x2 s t, Memory.wf s.ws = true → execBandSend x0 x1 x2 s = .next t → Memory.wf (t).ws = true := by
  intros; rename_i hw h; simp only [execBandSend] at h; (repeat' split at h) <;> (simp only [Host.Outcome.next.injEq, reduceCtorEq] at h) <;> (subst h; simp +contextual [hw])

@[simp] theorem outSeg_frame_pending :
    ∀ x0 x1 x2 x3 x4 s x6, (outSeg x0 x1 x2 x3 x4 s x6).pending = s.pending := by
  intros; simp [outSeg]

@[simp] theorem outSeg_frame_time :
    ∀ x0 x1 x2 x3 x4 s x6, (outSeg x0 x1 x2 x3 x4 s x6).time = s.time := by
  intros; simp [outSeg]

@[simp] theorem outSeg_frame_boxDie :
    ∀ x0 x1 x2 x3 x4 s x6, (outSeg x0 x1 x2 x3 x4 s x6).boxDie = s.boxDie := by
  intros; simp [outSeg]

@[simp] theorem outSeg_frame_fuses :
    ∀ x0 x1 x2 x3 x4 s x6, (outSeg x0 x1 x2 x3 x4 s x6).fuses = s.fuses := by
  intros; simp [outSeg]

@[simp] theorem outSeg_wf_dram :
    ∀ x0 x1 x2 x3 x4 s x6, Memory.wf s.dram = true → Memory.wf (outSeg x0 x1 x2 x3 x4 s x6).dram = true := by
  intros; simp +contextual [outSeg, *]

@[simp] theorem outSeg_frame_ws :
    ∀ x0 x1 x2 x3 x4 s x6, (outSeg x0 x1 x2 x3 x4 s x6).ws = s.ws := by
  intros; simp [outSeg]

theorem execBandOut_frame_pending :
    ∀ x0 x1 x2 s t, execBandOut x0 x1 x2 s = .next t → (t).pending = s.pending := by
  intros; rename_i h; simp only [execBandOut] at h; (repeat' split at h) <;> (simp only [Host.Outcome.next.injEq, reduceCtorEq] at h) <;> (subst h; simp)

theorem execBandOut_frame_time :
    ∀ x0 x1 x2 s t, execBandOut x0 x1 x2 s = .next t → (t).time = s.time := by
  intros; rename_i h; simp only [execBandOut] at h; (repeat' split at h) <;> (simp only [Host.Outcome.next.injEq, reduceCtorEq] at h) <;> (subst h; simp)

theorem execBandOut_frame_boxDie :
    ∀ x0 x1 x2 s t, execBandOut x0 x1 x2 s = .next t → (t).boxDie = s.boxDie := by
  intros; rename_i h; simp only [execBandOut] at h; (repeat' split at h) <;> (simp only [Host.Outcome.next.injEq, reduceCtorEq] at h) <;> (subst h; simp)

theorem execBandOut_frame_fuses :
    ∀ x0 x1 x2 s t, execBandOut x0 x1 x2 s = .next t → (t).fuses = s.fuses := by
  intros; rename_i h; simp only [execBandOut] at h; (repeat' split at h) <;> (simp only [Host.Outcome.next.injEq, reduceCtorEq] at h) <;> (subst h; simp)

theorem execBandOut_wf_dram :
    ∀ x0 x1 x2 s t, Memory.wf s.dram = true → execBandOut x0 x1 x2 s = .next t → Memory.wf (t).dram = true := by
  intros; rename_i hw h; simp only [execBandOut] at h; (repeat' split at h) <;> (simp only [Host.Outcome.next.injEq, reduceCtorEq] at h) <;> (subst h; simp +contextual [hw])

theorem execBandOut_wf_ws :
    ∀ x0 x1 x2 s t, Memory.wf s.ws = true → execBandOut x0 x1 x2 s = .next t → Memory.wf (t).ws = true := by
  intros; rename_i hw h; simp only [execBandOut] at h; (repeat' split at h) <;> (simp only [Host.Outcome.next.injEq, reduceCtorEq] at h) <;> (subst h; simp +contextual [hw])

end Sys2Proof.Machine
end

