-- ==== Sys2Proof/Laws/FrameHost.lean ====
section
/-! SUPPORT. The frame of datagrams, bulk transfers, firmware and the box office die: the queue, the clock, the box office die, the fuses and the two memories are as before, and
where a memory may change it keeps its canonical form. -/

set_option linter.unusedSimpArgs false

namespace Sys2Proof.Machine

/-! ### RegRead -/

@[simp] theorem passCycle_frame :
    ∀ s, (passCycle s).pending = s.pending ∧ (passCycle s).time = s.time ∧ (passCycle s).boxDie = s.boxDie ∧ (passCycle s).fuses = s.fuses ∧ (passCycle s).dram = s.dram ∧ (passCycle s).ws = s.ws := by
  intros; simp [passCycle]

@[simp] theorem takeCycle_frame :
    ∀ x0 x1 x2 s, (takeCycle x0 x1 x2 s).pending = s.pending ∧ (takeCycle x0 x1 x2 s).time = s.time ∧ (takeCycle x0 x1 x2 s).boxDie = s.boxDie ∧ (takeCycle x0 x1 x2 s).fuses = s.fuses ∧ (takeCycle x0 x1 x2 s).dram = s.dram ∧ (takeCycle x0 x1 x2 s).ws = s.ws := by
  intros; simp [takeCycle]

/-! ### DgramOps -/

@[simp] theorem dropDgram_frame :
    ∀ s, (dropDgram s).pending = s.pending ∧ (dropDgram s).time = s.time ∧ (dropDgram s).boxDie = s.boxDie ∧ (dropDgram s).fuses = s.fuses ∧ (dropDgram s).dram = s.dram ∧ (dropDgram s).ws = s.ws := by
  intros; simp [dropDgram]

@[simp] theorem overrunDgram_frame :
    ∀ s, (overrunDgram s).pending = s.pending ∧ (overrunDgram s).time = s.time ∧ (overrunDgram s).boxDie = s.boxDie ∧ (overrunDgram s).fuses = s.fuses ∧ (overrunDgram s).dram = s.dram ∧ (overrunDgram s).ws = s.ws := by
  intros; simp [overrunDgram]

@[simp] theorem noteDgram_frame :
    ∀ x0 s, (noteDgram x0 s).pending = s.pending ∧ (noteDgram x0 s).time = s.time ∧ (noteDgram x0 s).boxDie = s.boxDie ∧ (noteDgram x0 s).fuses = s.fuses ∧ (noteDgram x0 s).dram = s.dram ∧ (noteDgram x0 s).ws = s.ws := by
  intros; simp [noteDgram]

@[simp] theorem reply_frame :
    ∀ x0 x1 x2 x3 x4 x5 x6 x7 s, (reply x0 x1 x2 x3 x4 x5 x6 x7 s).pending = s.pending ∧ (reply x0 x1 x2 x3 x4 x5 x6 x7 s).time = s.time ∧ (reply x0 x1 x2 x3 x4 x5 x6 x7 s).boxDie = s.boxDie ∧ (reply x0 x1 x2 x3 x4 x5 x6 x7 s).fuses = s.fuses ∧ (reply x0 x1 x2 x3 x4 x5 x6 x7 s).dram = s.dram ∧ (reply x0 x1 x2 x3 x4 x5 x6 x7 s).ws = s.ws := by
  intros; simp [reply]

@[simp] theorem replyIn_frame :
    ∀ x0 x1 x2 x3 x4 s, (replyIn x0 x1 x2 x3 x4 s).pending = s.pending ∧ (replyIn x0 x1 x2 x3 x4 s).time = s.time ∧ (replyIn x0 x1 x2 x3 x4 s).boxDie = s.boxDie ∧ (replyIn x0 x1 x2 x3 x4 s).fuses = s.fuses ∧ (replyIn x0 x1 x2 x3 x4 s).dram = s.dram ∧ (replyIn x0 x1 x2 x3 x4 s).ws = s.ws := by
  intros; simp [replyIn]

@[simp] theorem closeSession_frame :
    ∀ x0 s, (closeSession x0 s).pending = s.pending ∧ (closeSession x0 s).time = s.time ∧ (closeSession x0 s).boxDie = s.boxDie ∧ (closeSession x0 s).fuses = s.fuses ∧ (closeSession x0 s).dram = s.dram ∧ (closeSession x0 s).ws = s.ws := by
  intros; simp [closeSession]

@[simp] theorem refuseOpen_frame :
    ∀ x0 x1 s, (refuseOpen x0 x1 s).pending = s.pending ∧ (refuseOpen x0 x1 s).time = s.time ∧ (refuseOpen x0 x1 s).boxDie = s.boxDie ∧ (refuseOpen x0 x1 s).fuses = s.fuses ∧ (refuseOpen x0 x1 s).dram = s.dram ∧ (refuseOpen x0 x1 s).ws = s.ws := by
  intros; simp [refuseOpen]

@[simp] theorem actOpen_frame :
    ∀ x0 s, (actOpen x0 s).pending = s.pending ∧ (actOpen x0 s).time = s.time ∧ (actOpen x0 s).boxDie = s.boxDie ∧ (actOpen x0 s).fuses = s.fuses ∧ (actOpen x0 s).dram = s.dram ∧ (actOpen x0 s).ws = s.ws := by
  intros; simp only [actOpen]; (repeat' split) <;> simp

@[simp] theorem failAuth_frame :
    ∀ x0 x1 s, (failAuth x0 x1 s).pending = s.pending ∧ (failAuth x0 x1 s).time = s.time ∧ (failAuth x0 x1 s).boxDie = s.boxDie ∧ (failAuth x0 x1 s).fuses = s.fuses ∧ (failAuth x0 x1 s).dram = s.dram ∧ (failAuth x0 x1 s).ws = s.ws := by
  intros; simp [failAuth]

@[simp] theorem actAuth_frame :
    ∀ x0 s, (actAuth x0 s).pending = s.pending ∧ (actAuth x0 s).time = s.time ∧ (actAuth x0 s).boxDie = s.boxDie ∧ (actAuth x0 s).fuses = s.fuses ∧ (actAuth x0 s).dram = s.dram ∧ (actAuth x0 s).ws = s.ws := by
  intros; unfold actAuth; (repeat' split) <;> simp

@[simp] theorem actClose_frame :
    ∀ x0 s, (actClose x0 s).pending = s.pending ∧ (actClose x0 s).time = s.time ∧ (actClose x0 s).boxDie = s.boxDie ∧ (actClose x0 s).fuses = s.fuses ∧ (actClose x0 s).dram = s.dram ∧ (actClose x0 s).ws = s.ws := by
  intros; simp [actClose]

@[simp] theorem actKeep_frame :
    ∀ x0 s, (actKeep x0 s).pending = s.pending ∧ (actKeep x0 s).time = s.time ∧ (actKeep x0 s).boxDie = s.boxDie ∧ (actKeep x0 s).fuses = s.fuses ∧ (actKeep x0 s).dram = s.dram ∧ (actKeep x0 s).ws = s.ws := by
  intros; simp [actKeep]

@[simp] theorem acceptPost_frame :
    ∀ x0 x1 x2 s, (acceptPost x0 x1 x2 s).pending = s.pending ∧ (acceptPost x0 x1 x2 s).time = s.time ∧ (acceptPost x0 x1 x2 s).boxDie = s.boxDie ∧ (acceptPost x0 x1 x2 s).fuses = s.fuses ∧ (acceptPost x0 x1 x2 s).dram = s.dram ∧ (acceptPost x0 x1 x2 s).ws = s.ws := by
  intros; simp [acceptPost]

@[simp] theorem replyMbx_frame :
    ∀ x0 x1 x2 x3 x4 s, (replyMbx x0 x1 x2 x3 x4 s).pending = s.pending ∧ (replyMbx x0 x1 x2 x3 x4 s).time = s.time ∧ (replyMbx x0 x1 x2 x3 x4 s).boxDie = s.boxDie ∧ (replyMbx x0 x1 x2 x3 x4 s).fuses = s.fuses ∧ (replyMbx x0 x1 x2 x3 x4 s).dram = s.dram ∧ (replyMbx x0 x1 x2 x3 x4 s).ws = s.ws := by
  intros; simp [replyMbx]

@[simp] theorem actPost_frame :
    ∀ x0 s, (actPost x0 s).pending = s.pending ∧ (actPost x0 s).time = s.time ∧ (actPost x0 s).boxDie = s.boxDie ∧ (actPost x0 s).fuses = s.fuses ∧ (actPost x0 s).dram = s.dram ∧ (actPost x0 s).ws = s.ws := by
  intros; unfold actPost; (repeat' split) <;> simp

@[simp] theorem actRead_frame :
    ∀ x0 s, (actRead x0 s).pending = s.pending ∧ (actRead x0 s).time = s.time ∧ (actRead x0 s).boxDie = s.boxDie ∧ (actRead x0 s).fuses = s.fuses ∧ (actRead x0 s).dram = s.dram ∧ (actRead x0 s).ws = s.ws := by
  intros; unfold actRead; (repeat' split) <;> simp

@[simp] theorem actEvack_frame :
    ∀ x0 s, (actEvack x0 s).pending = s.pending ∧ (actEvack x0 s).time = s.time ∧ (actEvack x0 s).boxDie = s.boxDie ∧ (actEvack x0 s).fuses = s.fuses ∧ (actEvack x0 s).dram = s.dram ∧ (actEvack x0 s).ws = s.ws := by
  intros; simp [actEvack]

/-! ### BulkOps -/

@[simp] theorem unloadSheet_frame :
    ∀ s, (unloadSheet s).pending = s.pending ∧ (unloadSheet s).time = s.time ∧ (unloadSheet s).boxDie = s.boxDie ∧ (unloadSheet s).fuses = s.fuses ∧ (unloadSheet s).dram = s.dram ∧ (unloadSheet s).ws = s.ws := by
  intros; simp [unloadSheet]

@[simp] theorem bulkStore_frame_pending :
    ∀ s x1, (bulkStore s x1).pending = s.pending := by
  intros; unfold bulkStore; (repeat' split) <;> simp

@[simp] theorem bulkStore_frame_time :
    ∀ s x1, (bulkStore s x1).time = s.time := by
  intros; unfold bulkStore; (repeat' split) <;> simp

@[simp] theorem bulkStore_frame_boxDie :
    ∀ s x1, (bulkStore s x1).boxDie = s.boxDie := by
  intros; unfold bulkStore; (repeat' split) <;> simp

@[simp] theorem bulkStore_frame_fuses :
    ∀ s x1, (bulkStore s x1).fuses = s.fuses := by
  intros; unfold bulkStore; (repeat' split) <;> simp

@[simp] theorem bulkStore_wf_dram :
    ∀ s x1, Memory.wf s.dram = true → Memory.wf (bulkStore s x1).dram = true := by
  intros; unfold bulkStore; (repeat' split) <;> simp +contextual [*]

@[simp] theorem bulkStore_frame_ws :
    ∀ s x1, (bulkStore s x1).ws = s.ws := by
  intros; unfold bulkStore; (repeat' split) <;> simp

@[simp] theorem actBulkW_frame_pending :
    ∀ x0 s, (actBulkW x0 s).pending = s.pending := by
  intros; simp only [actBulkW]; (repeat' split) <;> simp

@[simp] theorem actBulkW_frame_time :
    ∀ x0 s, (actBulkW x0 s).time = s.time := by
  intros; simp only [actBulkW]; (repeat' split) <;> simp

@[simp] theorem actBulkW_frame_boxDie :
    ∀ x0 s, (actBulkW x0 s).boxDie = s.boxDie := by
  intros; simp only [actBulkW]; (repeat' split) <;> simp

@[simp] theorem actBulkW_frame_fuses :
    ∀ x0 s, (actBulkW x0 s).fuses = s.fuses := by
  intros; simp only [actBulkW]; (repeat' split) <;> simp

@[simp] theorem actBulkW_wf_dram :
    ∀ x0 s, Memory.wf s.dram = true → Memory.wf (actBulkW x0 s).dram = true := by
  intros; unfold actBulkW; simp only []; (repeat' split) <;> simp +contextual [*]

@[simp] theorem actBulkW_frame_ws :
    ∀ x0 s, (actBulkW x0 s).ws = s.ws := by
  intros; simp only [actBulkW]; (repeat' split) <;> simp

@[simp] theorem bulkErrors_frame_pending :
    ∀ x0 x1 x2 s, (bulkErrors x0 x1 x2 s).pending = s.pending := by
  intros; unfold bulkErrors; (repeat' split) <;> simp

@[simp] theorem bulkErrors_frame_time :
    ∀ x0 x1 x2 s, (bulkErrors x0 x1 x2 s).time = s.time := by
  intros; unfold bulkErrors; (repeat' split) <;> simp

@[simp] theorem bulkErrors_frame_boxDie :
    ∀ x0 x1 x2 s, (bulkErrors x0 x1 x2 s).boxDie = s.boxDie := by
  intros; unfold bulkErrors; (repeat' split) <;> simp

@[simp] theorem bulkErrors_frame_fuses :
    ∀ x0 x1 x2 s, (bulkErrors x0 x1 x2 s).fuses = s.fuses := by
  intros; unfold bulkErrors; (repeat' split) <;> simp

@[simp] theorem bulkErrors_wf_dram :
    ∀ x0 x1 x2 s, Memory.wf s.dram = true → Memory.wf (bulkErrors x0 x1 x2 s).dram = true := by
  intros; unfold bulkErrors; (repeat' split) <;> simp +contextual [*]

@[simp] theorem bulkErrors_wf_ws :
    ∀ x0 x1 x2 s, Memory.wf s.ws = true → Memory.wf (bulkErrors x0 x1 x2 s).ws = true := by
  intros; unfold bulkErrors; (repeat' split) <;> simp +contextual [*]

@[simp] theorem actBulkR_frame_pending :
    ∀ x0 x1 s, (actBulkR x0 x1 s).pending = s.pending := by
  intros; simp only [actBulkR]; (repeat' split) <;> simp

@[simp] theorem actBulkR_frame_time :
    ∀ x0 x1 s, (actBulkR x0 x1 s).time = s.time := by
  intros; simp only [actBulkR]; (repeat' split) <;> simp

@[simp] theorem actBulkR_frame_boxDie :
    ∀ x0 x1 s, (actBulkR x0 x1 s).boxDie = s.boxDie := by
  intros; simp only [actBulkR]; (repeat' split) <;> simp

@[simp] theorem actBulkR_frame_fuses :
    ∀ x0 x1 s, (actBulkR x0 x1 s).fuses = s.fuses := by
  intros; simp only [actBulkR]; (repeat' split) <;> simp

@[simp] theorem actBulkR_wf_dram :
    ∀ x0 x1 s, Memory.wf s.dram = true → Memory.wf (actBulkR x0 x1 s).dram = true := by
  intros; unfold actBulkR; simp only []; (repeat' split) <;> simp +contextual [*]

@[simp] theorem actBulkR_wf_ws :
    ∀ x0 x1 s, Memory.wf s.ws = true → Memory.wf (actBulkR x0 x1 s).ws = true := by
  intros; unfold actBulkR; simp only []; (repeat' split) <;> simp +contextual [*]

/-! ### Firmware -/

theorem execPrompterRelease_frame :
    ∀ x0 x1 s t, execPrompterRelease x0 x1 s = .next t → (t).pending = s.pending ∧ (t).time = s.time ∧ (t).boxDie = s.boxDie ∧ (t).fuses = s.fuses ∧ (t).dram = s.dram ∧ (t).ws = s.ws := by
  intros; rename_i h; simp only [execPrompterRelease] at h; (repeat' split at h) <;> (simp only [Host.Outcome.next.injEq, reduceCtorEq] at h) <;> (subst h; simp)

@[simp] theorem writePage_frame_pending :
    ∀ x0 x1 s, (writePage x0 x1 s).pending = s.pending := by
  intros; simp [writePage]

@[simp] theorem writePage_frame_time :
    ∀ x0 x1 s, (writePage x0 x1 s).time = s.time := by
  intros; simp [writePage]

@[simp] theorem writePage_frame_boxDie :
    ∀ x0 x1 s, (writePage x0 x1 s).boxDie = s.boxDie := by
  intros; simp [writePage]

@[simp] theorem writePage_frame_fuses :
    ∀ x0 x1 s, (writePage x0 x1 s).fuses = s.fuses := by
  intros; simp [writePage]

@[simp] theorem writePage_wf_dram :
    ∀ x0 x1 s, Memory.wf s.dram = true → Memory.wf (writePage x0 x1 s).dram = true := by
  intros; simp +contextual [writePage, *]

@[simp] theorem writePage_frame_ws :
    ∀ x0 x1 s, (writePage x0 x1 s).ws = s.ws := by
  intros; simp [writePage]

theorem execIdent_frame_pending :
    ∀ x0 s t, execIdent x0 s = .next t → (t).pending = s.pending := by
  intros; rename_i h; simp only [execIdent] at h; (repeat' split at h) <;> cases h <;> simp

theorem execIdent_frame_time :
    ∀ x0 s t, execIdent x0 s = .next t → (t).time = s.time := by
  intros; rename_i h; simp only [execIdent] at h; (repeat' split at h) <;> cases h <;> simp

theorem execIdent_frame_boxDie :
    ∀ x0 s t, execIdent x0 s = .next t → (t).boxDie = s.boxDie := by
  intros; rename_i h; simp only [execIdent] at h; (repeat' split at h) <;> cases h <;> simp

theorem execIdent_frame_fuses :
    ∀ x0 s t, execIdent x0 s = .next t → (t).fuses = s.fuses := by
  intros; rename_i h; simp only [execIdent] at h; (repeat' split at h) <;> cases h <;> simp

theorem execIdent_wf_dram :
    ∀ x0 s t, Memory.wf s.dram = true → execIdent x0 s = .next t → Memory.wf (t).dram = true := by
  intros; rename_i hw h; simp only [execIdent] at h; (repeat' split at h) <;> (simp only [Host.Outcome.next.injEq, reduceCtorEq] at h) <;> (subst h; simp +contextual [hw])

theorem execIdent_frame_ws :
    ∀ x0 s t, execIdent x0 s = .next t → (t).ws = s.ws := by
  intros; rename_i h; simp only [execIdent] at h; (repeat' split at h) <;> cases h <;> simp

theorem execAttest_frame_pending :
    ∀ x0 s t, execAttest x0 s = .next t → (t).pending = s.pending := by
  intros; rename_i h; simp only [execAttest] at h; (repeat' split at h) <;> cases h <;> simp

theorem execAttest_frame_time :
    ∀ x0 s t, execAttest x0 s = .next t → (t).time = s.time := by
  intros; rename_i h; simp only [execAttest] at h; (repeat' split at h) <;> cases h <;> simp

theorem execAttest_frame_boxDie :
    ∀ x0 s t, execAttest x0 s = .next t → (t).boxDie = s.boxDie := by
  intros; rename_i h; simp only [execAttest] at h; (repeat' split at h) <;> cases h <;> simp

theorem execAttest_frame_fuses :
    ∀ x0 s t, execAttest x0 s = .next t → (t).fuses = s.fuses := by
  intros; rename_i h; simp only [execAttest] at h; (repeat' split at h) <;> cases h <;> simp

theorem execAttest_wf_dram :
    ∀ x0 s t, Memory.wf s.dram = true → execAttest x0 s = .next t → Memory.wf (t).dram = true := by
  intros; rename_i hw h; simp only [execAttest] at h; (repeat' split at h) <;> (simp only [Host.Outcome.next.injEq, reduceCtorEq] at h) <;> (subst h; simp +contextual [hw])

theorem execAttest_frame_ws :
    ∀ x0 s t, execAttest x0 s = .next t → (t).ws = s.ws := by
  intros; rename_i h; simp only [execAttest] at h; (repeat' split at h) <;> cases h <;> simp

@[simp] theorem refuseFw_frame :
    ∀ x0 x1 s, (refuseFw x0 x1 s).pending = s.pending ∧ (refuseFw x0 x1 s).time = s.time ∧ (refuseFw x0 x1 s).boxDie = s.boxDie ∧ (refuseFw x0 x1 s).fuses = s.fuses ∧ (refuseFw x0 x1 s).dram = s.dram ∧ (refuseFw x0 x1 s).ws = s.ws := by
  intros; simp [refuseFw]

@[simp] theorem refuseFuse_frame :
    ∀ x0 x1 x2 s, (refuseFuse x0 x1 x2 s).pending = s.pending ∧ (refuseFuse x0 x1 x2 s).time = s.time ∧ (refuseFuse x0 x1 x2 s).boxDie = s.boxDie ∧ (refuseFuse x0 x1 x2 s).fuses = s.fuses ∧ (refuseFuse x0 x1 x2 s).dram = s.dram ∧ (refuseFuse x0 x1 x2 s).ws = s.ws := by
  intros; simp [refuseFuse]

@[simp] theorem refuseStage_frame :
    ∀ x0 x1 s, (refuseStage x0 x1 s).pending = s.pending ∧ (refuseStage x0 x1 s).time = s.time ∧ (refuseStage x0 x1 s).boxDie = s.boxDie ∧ (refuseStage x0 x1 s).fuses = s.fuses ∧ (refuseStage x0 x1 s).dram = s.dram ∧ (refuseStage x0 x1 s).ws = s.ws := by
  intros; simp [refuseStage]

theorem execEndorse_frame_pending :
    ∀ x0 x1 s t, execEndorse x0 x1 s = .next t → (t).pending = s.pending := by
  intros; rename_i h; simp only [execEndorse, readThen] at h; (repeat' split at h) <;> (simp only [Host.Outcome.next.injEq, reduceCtorEq] at h) <;> (subst h; simp)

theorem execEndorse_frame_time :
    ∀ x0 x1 s t, execEndorse x0 x1 s = .next t → (t).time = s.time := by
  intros; rename_i h; simp only [execEndorse, readThen] at h; (repeat' split at h) <;> (simp only [Host.Outcome.next.injEq, reduceCtorEq] at h) <;> (subst h; simp)

theorem execEndorse_frame_boxDie :
    ∀ x0 x1 s t, execEndorse x0 x1 s = .next t → (t).boxDie = s.boxDie := by
  intros; rename_i h; simp only [execEndorse, readThen] at h; (repeat' split at h) <;> (simp only [Host.Outcome.next.injEq, reduceCtorEq] at h) <;> (subst h; simp)

theorem execEndorse_frame_fuses :
    ∀ x0 x1 s t, execEndorse x0 x1 s = .next t → (t).fuses = s.fuses := by
  intros; rename_i h; simp only [execEndorse, readThen] at h; (repeat' split at h) <;> (simp only [Host.Outcome.next.injEq, reduceCtorEq] at h) <;> (subst h; simp)

theorem execEndorse_wf_dram :
    ∀ x0 x1 s t, Memory.wf s.dram = true → execEndorse x0 x1 s = .next t → Memory.wf (t).dram = true := by
  intros; rename_i hw h; simp only [execEndorse, readThen] at h; (repeat' split at h) <;> (simp only [Host.Outcome.next.injEq, reduceCtorEq] at h) <;> (subst h; simp +contextual [hw])

theorem execEndorse_wf_ws :
    ∀ x0 x1 s t, Memory.wf s.ws = true → execEndorse x0 x1 s = .next t → Memory.wf (t).ws = true := by
  intros; rename_i hw h; simp only [execEndorse, readThen] at h; (repeat' split at h) <;> (simp only [Host.Outcome.next.injEq, reduceCtorEq] at h) <;> (subst h; simp +contextual [hw])

@[simp] theorem setSlot_frame :
    ∀ x0 x1 s, (setSlot x0 x1 s).pending = s.pending ∧ (setSlot x0 x1 s).time = s.time ∧ (setSlot x0 x1 s).boxDie = s.boxDie ∧ (setSlot x0 x1 s).fuses = s.fuses ∧ (setSlot x0 x1 s).dram = s.dram ∧ (setSlot x0 x1 s).ws = s.ws := by
  intros; simp [setSlot]

@[simp] theorem stageImage_frame :
    ∀ x0 x1 x2 x3 s, (stageImage x0 x1 x2 x3 s).pending = s.pending ∧ (stageImage x0 x1 x2 x3 s).time = s.time ∧ (stageImage x0 x1 x2 x3 s).boxDie = s.boxDie ∧ (stageImage x0 x1 x2 x3 s).fuses = s.fuses ∧ (stageImage x0 x1 x2 x3 s).dram = s.dram ∧ (stageImage x0 x1 x2 x3 s).ws = s.ws := by
  intros; simp only [stageImage]; (repeat' split) <;> simp

theorem execFwStage_frame_pending :
    ∀ x0 x1 x2 s t, execFwStage x0 x1 x2 s = .next t → (t).pending = s.pending := by
  intros; rename_i h; simp only [execFwStage, readThen] at h; (repeat' split at h) <;> (simp only [Host.Outcome.next.injEq, reduceCtorEq] at h) <;> (subst h; simp)

theorem execFwStage_frame_time :
    ∀ x0 x1 x2 s t, execFwStage x0 x1 x2 s = .next t → (t).time = s.time := by
  intros; rename_i h; simp only [execFwStage, readThen] at h; (repeat' split at h) <;> (simp only [Host.Outcome.next.injEq, reduceCtorEq] at h) <;> (subst h; simp)

theorem execFwStage_frame_boxDie :
    ∀ x0 x1 x2 s t, execFwStage x0 x1 x2 s = .next t → (t).boxDie = s.boxDie := by
  intros; rename_i h; simp only [execFwStage, readThen] at h; (repeat' split at h) <;> (simp only [Host.Outcome.next.injEq, reduceCtorEq] at h) <;> (subst h; simp)

theorem execFwStage_frame_fuses :
    ∀ x0 x1 x2 s t, execFwStage x0 x1 x2 s = .next t → (t).fuses = s.fuses := by
  intros; rename_i h; simp only [execFwStage, readThen] at h; (repeat' split at h) <;> (simp only [Host.Outcome.next.injEq, reduceCtorEq] at h) <;> (subst h; simp)

theorem execFwStage_wf_dram :
    ∀ x0 x1 x2 s t, Memory.wf s.dram = true → execFwStage x0 x1 x2 s = .next t → Memory.wf (t).dram = true := by
  intros; rename_i hw h; simp only [execFwStage, readThen] at h; (repeat' split at h) <;> (simp only [Host.Outcome.next.injEq, reduceCtorEq] at h) <;> (subst h; simp +contextual [hw])

theorem execFwStage_wf_ws :
    ∀ x0 x1 x2 s t, Memory.wf s.ws = true → execFwStage x0 x1 x2 s = .next t → Memory.wf (t).ws = true := by
  intros; rename_i hw h; simp only [execFwStage, readThen] at h; (repeat' split at h) <;> (simp only [Host.Outcome.next.injEq, reduceCtorEq] at h) <;> (subst h; simp +contextual [hw])

theorem execFwActivate_frame :
    ∀ x0 s t, execFwActivate x0 s = .next t → (t).pending = s.pending ∧ (t).time = s.time ∧ (t).boxDie = s.boxDie ∧ (t).fuses = s.fuses ∧ (t).dram = s.dram ∧ (t).ws = s.ws := by
  intros; rename_i h; simp only [execFwActivate] at h; (repeat' split at h) <;> cases h <;> simp

theorem execFwCommit_frame_pending :
    ∀ x0 x1 s t, execFwCommit x0 x1 s = .next t → (t).pending = s.pending := by
  intros; rename_i h; simp only [execFwCommit] at h; (repeat' split at h) <;> (simp only [Host.Outcome.next.injEq, reduceCtorEq] at h) <;> (subst h; simp)

theorem execFwCommit_frame_time :
    ∀ x0 x1 s t, execFwCommit x0 x1 s = .next t → (t).time = s.time := by
  intros; rename_i h; simp only [execFwCommit] at h; (repeat' split at h) <;> (simp only [Host.Outcome.next.injEq, reduceCtorEq] at h) <;> (subst h; simp)

theorem execFwCommit_frame_boxDie :
    ∀ x0 x1 s t, execFwCommit x0 x1 s = .next t → (t).boxDie = s.boxDie := by
  intros; rename_i h; simp only [execFwCommit] at h; (repeat' split at h) <;> (simp only [Host.Outcome.next.injEq, reduceCtorEq] at h) <;> (subst h; simp)

theorem execFwCommit_frame_dram :
    ∀ x0 x1 s t, execFwCommit x0 x1 s = .next t → (t).dram = s.dram := by
  intros; rename_i h; simp only [execFwCommit] at h; (repeat' split at h) <;> (simp only [Host.Outcome.next.injEq, reduceCtorEq] at h) <;> (subst h; simp)

theorem execFwCommit_frame_ws :
    ∀ x0 x1 s t, execFwCommit x0 x1 s = .next t → (t).ws = s.ws := by
  intros; rename_i h; simp only [execFwCommit] at h; (repeat' split at h) <;> (simp only [Host.Outcome.next.injEq, reduceCtorEq] at h) <;> (subst h; simp)

theorem execFwStatus_frame :
    ∀ x0 s t, execFwStatus x0 s = .next t → (t).pending = s.pending ∧ (t).time = s.time ∧ (t).boxDie = s.boxDie ∧ (t).fuses = s.fuses ∧ (t).dram = s.dram ∧ (t).ws = s.ws := by
  intros; rename_i h; simp only [execFwStatus] at h; (repeat' split at h) <;> cases h <;> simp

theorem execKeyRevoke_frame_pending :
    ∀ x0 s t, execKeyRevoke x0 s = .next t → (t).pending = s.pending := by
  intros; rename_i h; simp only [execKeyRevoke] at h; (repeat' split at h) <;> cases h <;> simp

theorem execKeyRevoke_frame_time :
    ∀ x0 s t, execKeyRevoke x0 s = .next t → (t).time = s.time := by
  intros; rename_i h; simp only [execKeyRevoke] at h; (repeat' split at h) <;> cases h <;> simp

theorem execKeyRevoke_frame_boxDie :
    ∀ x0 s t, execKeyRevoke x0 s = .next t → (t).boxDie = s.boxDie := by
  intros; rename_i h; simp only [execKeyRevoke] at h; (repeat' split at h) <;> cases h <;> simp

theorem execKeyRevoke_frame_dram :
    ∀ x0 s t, execKeyRevoke x0 s = .next t → (t).dram = s.dram := by
  intros; rename_i h; simp only [execKeyRevoke] at h; (repeat' split at h) <;> cases h <;> simp

theorem execKeyRevoke_frame_ws :
    ∀ x0 s t, execKeyRevoke x0 s = .next t → (t).ws = s.ws := by
  intros; rename_i h; simp only [execKeyRevoke] at h; (repeat' split at h) <;> cases h <;> simp

/-! ### BoxOffice -/

@[simp] theorem boxSticky_frame :
    ∀ x0 s, (boxSticky x0 s).pending = s.pending ∧ (boxSticky x0 s).time = s.time ∧ (boxSticky x0 s).boxDie = s.boxDie ∧ (boxSticky x0 s).fuses = s.fuses ∧ (boxSticky x0 s).dram = s.dram ∧ (boxSticky x0 s).ws = s.ws := by
  intros; simp [boxSticky]

@[simp] theorem takeBoard_frame :
    ∀ x0 s, (takeBoard x0 s).pending = s.pending ∧ (takeBoard x0 s).time = s.time ∧ (takeBoard x0 s).boxDie = s.boxDie ∧ (takeBoard x0 s).fuses = s.fuses ∧ (takeBoard x0 s).dram = s.dram ∧ (takeBoard x0 s).ws = s.ws := by
  intros; simp [takeBoard]

theorem execBoxReading_frame :
    ∀ x0 x1 s t, execBoxReading x0 x1 s = .next t → (t).pending = s.pending ∧ (t).time = s.time ∧ (t).boxDie = s.boxDie ∧ (t).fuses = s.fuses ∧ (t).dram = s.dram ∧ (t).ws = s.ws := by
  intros; rename_i h; simp only [execBoxReading] at h; (repeat' split at h) <;> cases h <;> simp

theorem execBoxRecord_frame :
    ∀ x0 x1 s t, execBoxRecord x0 x1 s = .next t → (t).pending = s.pending ∧ (t).time = s.time ∧ (t).boxDie = s.boxDie ∧ (t).fuses = s.fuses ∧ (t).dram = s.dram ∧ (t).ws = s.ws := by
  intros; rename_i h; simp only [execBoxRecord] at h; cases h; simp

theorem execBoxLost_frame_pending :
    ∀ s t, execBoxLost s = .next t → (t).pending = s.pending := by
  intros; rename_i h; simp only [execBoxLost] at h; (repeat' split at h) <;> cases h <;> simp

theorem execBoxLost_frame_time :
    ∀ s t, execBoxLost s = .next t → (t).time = s.time := by
  intros; rename_i h; simp only [execBoxLost] at h; (repeat' split at h) <;> cases h <;> simp

theorem execBoxLost_frame_boxDie :
    ∀ s t, execBoxLost s = .next t → (t).boxDie = s.boxDie := by
  intros; rename_i h; simp only [execBoxLost] at h; (repeat' split at h) <;> cases h <;> simp

theorem execBoxLost_frame_fuses :
    ∀ s t, execBoxLost s = .next t → (t).fuses = s.fuses := by
  intros; rename_i h; simp only [execBoxLost] at h; (repeat' split at h) <;> cases h <;> simp

theorem execBoxLost_wf_dram :
    ∀ s t, Memory.wf s.dram = true → execBoxLost s = .next t → Memory.wf (t).dram = true := by
  intros; rename_i hw h; simp only [execBoxLost] at h; (repeat' split at h) <;> (simp only [Host.Outcome.next.injEq, reduceCtorEq] at h) <;> (subst h; simp +contextual [hw])

theorem execBoxLost_wf_ws :
    ∀ s t, Memory.wf s.ws = true → execBoxLost s = .next t → Memory.wf (t).ws = true := by
  intros; rename_i hw h; simp only [execBoxLost] at h; (repeat' split at h) <;> (simp only [Host.Outcome.next.injEq, reduceCtorEq] at h) <;> (subst h; simp +contextual [hw])

theorem execReadingClose_frame_pending :
    ∀ x0 x1 x2 s t, execReadingClose x0 x1 x2 s = .next t → (t).pending = s.pending := by
  intros; rename_i h; simp only [execReadingClose] at h; (repeat' split at h) <;> cases h <;> simp

theorem execReadingClose_frame_time :
    ∀ x0 x1 x2 s t, execReadingClose x0 x1 x2 s = .next t → (t).time = s.time := by
  intros; rename_i h; simp only [execReadingClose] at h; (repeat' split at h) <;> cases h <;> simp

theorem execReadingClose_frame_fuses :
    ∀ x0 x1 x2 s t, execReadingClose x0 x1 x2 s = .next t → (t).fuses = s.fuses := by
  intros; rename_i h; simp only [execReadingClose] at h; (repeat' split at h) <;> cases h <;> simp

theorem execReadingClose_frame_dram :
    ∀ x0 x1 x2 s t, execReadingClose x0 x1 x2 s = .next t → (t).dram = s.dram := by
  intros; rename_i h; simp only [execReadingClose] at h; (repeat' split at h) <;> cases h <;> simp

theorem execReadingClose_frame_ws :
    ∀ x0 x1 x2 s t, execReadingClose x0 x1 x2 s = .next t → (t).ws = s.ws := by
  intros; rename_i h; simp only [execReadingClose] at h; (repeat' split at h) <;> cases h <;> simp

theorem execCheckpoint_frame_pending :
    ∀ s t, execCheckpoint s = .next t → (t).pending = s.pending := by
  intros; rename_i h; simp only [execCheckpoint] at h; (repeat' split at h) <;> cases h <;> simp

theorem execCheckpoint_frame_time :
    ∀ s t, execCheckpoint s = .next t → (t).time = s.time := by
  intros; rename_i h; simp only [execCheckpoint] at h; (repeat' split at h) <;> cases h <;> simp

theorem execCheckpoint_frame_fuses :
    ∀ s t, execCheckpoint s = .next t → (t).fuses = s.fuses := by
  intros; rename_i h; simp only [execCheckpoint] at h; (repeat' split at h) <;> cases h <;> simp

theorem execCheckpoint_frame_dram :
    ∀ s t, execCheckpoint s = .next t → (t).dram = s.dram := by
  intros; rename_i h; simp only [execCheckpoint] at h; (repeat' split at h) <;> cases h <;> simp

theorem execCheckpoint_frame_ws :
    ∀ s t, execCheckpoint s = .next t → (t).ws = s.ws := by
  intros; rename_i h; simp only [execCheckpoint] at h; (repeat' split at h) <;> cases h <;> simp

theorem execLogRecord_frame_pending :
    ∀ x0 s t, execLogRecord x0 s = .next t → (t).pending = s.pending := by
  intros; rename_i h; simp only [execLogRecord] at h; (repeat' split at h) <;> cases h <;> simp

theorem execLogRecord_frame_time :
    ∀ x0 s t, execLogRecord x0 s = .next t → (t).time = s.time := by
  intros; rename_i h; simp only [execLogRecord] at h; (repeat' split at h) <;> cases h <;> simp

theorem execLogRecord_frame_fuses :
    ∀ x0 s t, execLogRecord x0 s = .next t → (t).fuses = s.fuses := by
  intros; rename_i h; simp only [execLogRecord] at h; (repeat' split at h) <;> cases h <;> simp

theorem execLogRecord_frame_dram :
    ∀ x0 s t, execLogRecord x0 s = .next t → (t).dram = s.dram := by
  intros; rename_i h; simp only [execLogRecord] at h; (repeat' split at h) <;> cases h <;> simp

theorem execLogRecord_frame_ws :
    ∀ x0 s t, execLogRecord x0 s = .next t → (t).ws = s.ws := by
  intros; rename_i h; simp only [execLogRecord] at h; (repeat' split at h) <;> cases h <;> simp

theorem execBoxPowerUp_frame_pending :
    ∀ s t, execBoxPowerUp s = .next t → (t).pending = s.pending := by
  intros; rename_i h; simp only [execBoxPowerUp] at h; (repeat' split at h) <;> cases h <;> simp

theorem execBoxPowerUp_frame_time :
    ∀ s t, execBoxPowerUp s = .next t → (t).time = s.time := by
  intros; rename_i h; simp only [execBoxPowerUp] at h; (repeat' split at h) <;> cases h <;> simp

theorem execBoxPowerUp_frame_fuses :
    ∀ s t, execBoxPowerUp s = .next t → (t).fuses = s.fuses := by
  intros; rename_i h; simp only [execBoxPowerUp] at h; (repeat' split at h) <;> cases h <;> simp

theorem execBoxPowerUp_frame_dram :
    ∀ s t, execBoxPowerUp s = .next t → (t).dram = s.dram := by
  intros; rename_i h; simp only [execBoxPowerUp] at h; (repeat' split at h) <;> cases h <;> simp

theorem execBoxPowerUp_frame_ws :
    ∀ s t, execBoxPowerUp s = .next t → (t).ws = s.ws := by
  intros; rename_i h; simp only [execBoxPowerUp] at h; (repeat' split at h) <;> cases h <;> simp

theorem execSealChange_frame_pending :
    ∀ x0 s t, execSealChange x0 s = .next t → (t).pending = s.pending := by
  intros; rename_i h; simp only [execSealChange] at h; cases h; simp

theorem execSealChange_frame_time :
    ∀ x0 s t, execSealChange x0 s = .next t → (t).time = s.time := by
  intros; rename_i h; simp only [execSealChange] at h; cases h; simp

theorem execSealChange_frame_fuses :
    ∀ x0 s t, execSealChange x0 s = .next t → (t).fuses = s.fuses := by
  intros; rename_i h; simp only [execSealChange] at h; cases h; simp

theorem execSealChange_frame_dram :
    ∀ x0 s t, execSealChange x0 s = .next t → (t).dram = s.dram := by
  intros; rename_i h; simp only [execSealChange] at h; cases h; simp

theorem execSealChange_frame_ws :
    ∀ x0 s t, execSealChange x0 s = .next t → (t).ws = s.ws := by
  intros; rename_i h; simp only [execSealChange] at h; cases h; simp

@[simp] theorem portAnswer_frame :
    ∀ x0 s, (portAnswer x0 s).pending = s.pending ∧ (portAnswer x0 s).time = s.time ∧ (portAnswer x0 s).boxDie = s.boxDie ∧ (portAnswer x0 s).fuses = s.fuses ∧ (portAnswer x0 s).dram = s.dram ∧ (portAnswer x0 s).ws = s.ws := by
  intros; simp [portAnswer]

@[simp] theorem portRecord_frame :
    ∀ x0 s, (portRecord x0 s).pending = s.pending ∧ (portRecord x0 s).time = s.time ∧ (portRecord x0 s).boxDie = s.boxDie ∧ (portRecord x0 s).fuses = s.fuses ∧ (portRecord x0 s).dram = s.dram ∧ (portRecord x0 s).ws = s.ws := by
  intros; simp [portRecord]

theorem execReadLast_frame :
    ∀ s t, execReadLast s = .next t → (t).pending = s.pending ∧ (t).time = s.time ∧ (t).boxDie = s.boxDie ∧ (t).fuses = s.fuses ∧ (t).dram = s.dram ∧ (t).ws = s.ws := by
  intros; rename_i h; simp only [execReadLast] at h; cases h; simp

theorem execReadId_frame :
    ∀ s t, execReadId s = .next t → (t).pending = s.pending ∧ (t).time = s.time ∧ (t).boxDie = s.boxDie ∧ (t).fuses = s.fuses ∧ (t).dram = s.dram ∧ (t).ws = s.ws := by
  intros; rename_i h; simp only [execReadId] at h; cases h; simp

theorem execReadCkpt_frame :
    ∀ s t, execReadCkpt s = .next t → (t).pending = s.pending ∧ (t).time = s.time ∧ (t).boxDie = s.boxDie ∧ (t).fuses = s.fuses ∧ (t).dram = s.dram ∧ (t).ws = s.ws := by
  intros; rename_i h; simp only [execReadCkpt] at h; cases h; simp

theorem execReadLog_frame :
    ∀ x0 s t, execReadLog x0 s = .next t → (t).pending = s.pending ∧ (t).time = s.time ∧ (t).boxDie = s.boxDie ∧ (t).fuses = s.fuses ∧ (t).dram = s.dram ∧ (t).ws = s.ws := by
  intros; rename_i h; simp only [execReadLog] at h; cases h; simp

theorem execStatus_frame :
    ∀ s t, execStatus s = .next t → (t).pending = s.pending ∧ (t).time = s.time ∧ (t).boxDie = s.boxDie ∧ (t).fuses = s.fuses ∧ (t).dram = s.dram ∧ (t).ws = s.ws := by
  intros; rename_i h; simp only [execStatus] at h; cases h; simp

theorem execSetCap_frame_pending :
    ∀ x0 x1 s t, execSetCap x0 x1 s = .next t → (t).pending = s.pending := by
  intros; rename_i h; simp only [execSetCap] at h; (repeat' split at h) <;> cases h <;> simp

theorem execSetCap_frame_time :
    ∀ x0 x1 s t, execSetCap x0 x1 s = .next t → (t).time = s.time := by
  intros; rename_i h; simp only [execSetCap] at h; (repeat' split at h) <;> cases h <;> simp

theorem execSetCap_frame_fuses :
    ∀ x0 x1 s t, execSetCap x0 x1 s = .next t → (t).fuses = s.fuses := by
  intros; rename_i h; simp only [execSetCap] at h; (repeat' split at h) <;> cases h <;> simp

theorem execSetCap_frame_dram :
    ∀ x0 x1 s t, execSetCap x0 x1 s = .next t → (t).dram = s.dram := by
  intros; rename_i h; simp only [execSetCap] at h; (repeat' split at h) <;> cases h <;> simp

theorem execSetCap_frame_ws :
    ∀ x0 x1 s t, execSetCap x0 x1 s = .next t → (t).ws = s.ws := by
  intros; rename_i h; simp only [execSetCap] at h; (repeat' split at h) <;> cases h <;> simp

theorem execFwWrite_frame_pending :
    ∀ x0 x1 s t, execFwWrite x0 x1 s = .next t → (t).pending = s.pending := by
  intros; rename_i h; simp only [execFwWrite] at h; (repeat' split at h) <;> cases h <;> simp

theorem execFwWrite_frame_time :
    ∀ x0 x1 s t, execFwWrite x0 x1 s = .next t → (t).time = s.time := by
  intros; rename_i h; simp only [execFwWrite] at h; (repeat' split at h) <;> cases h <;> simp

theorem execFwWrite_frame_fuses :
    ∀ x0 x1 s t, execFwWrite x0 x1 s = .next t → (t).fuses = s.fuses := by
  intros; rename_i h; simp only [execFwWrite] at h; (repeat' split at h) <;> cases h <;> simp

theorem execFwWrite_frame_dram :
    ∀ x0 x1 s t, execFwWrite x0 x1 s = .next t → (t).dram = s.dram := by
  intros; rename_i h; simp only [execFwWrite] at h; (repeat' split at h) <;> cases h <;> simp

theorem execFwWrite_frame_ws :
    ∀ x0 x1 s t, execFwWrite x0 x1 s = .next t → (t).ws = s.ws := by
  intros; rename_i h; simp only [execFwWrite] at h; (repeat' split at h) <;> cases h <;> simp

theorem execBoxFwCommit_frame_pending :
    ∀ x0 s t, execBoxFwCommit x0 s = .next t → (t).pending = s.pending := by
  intros; rename_i h; simp only [execBoxFwCommit] at h; (repeat' split at h) <;> cases h <;> simp

theorem execBoxFwCommit_frame_time :
    ∀ x0 s t, execBoxFwCommit x0 s = .next t → (t).time = s.time := by
  intros; rename_i h; simp only [execBoxFwCommit] at h; (repeat' split at h) <;> cases h <;> simp

theorem execBoxFwCommit_frame_fuses :
    ∀ x0 s t, execBoxFwCommit x0 s = .next t → (t).fuses = s.fuses := by
  intros; rename_i h; simp only [execBoxFwCommit] at h; (repeat' split at h) <;> cases h <;> simp

theorem execBoxFwCommit_frame_dram :
    ∀ x0 s t, execBoxFwCommit x0 s = .next t → (t).dram = s.dram := by
  intros; rename_i h; simp only [execBoxFwCommit] at h; (repeat' split at h) <;> cases h <;> simp

theorem execBoxFwCommit_frame_ws :
    ∀ x0 s t, execBoxFwCommit x0 s = .next t → (t).ws = s.ws := by
  intros; rename_i h; simp only [execBoxFwCommit] at h; (repeat' split at h) <;> cases h <;> simp

theorem execBoxLast_frame :
    ∀ x0 s t, execBoxLast x0 s = .next t → (t).pending = s.pending ∧ (t).time = s.time ∧ (t).boxDie = s.boxDie ∧ (t).fuses = s.fuses ∧ (t).dram = s.dram ∧ (t).ws = s.ws := by
  intros; rename_i h; simp only [execBoxLast] at h; (repeat' split at h) <;> cases h <;> simp

theorem execBoxCopy_frame_pending :
    ∀ x0 s t, execBoxCopy x0 s = .next t → (t).pending = s.pending := by
  intros; rename_i h; simp only [execBoxCopy] at h; (repeat' split at h) <;> cases h <;> simp

theorem execBoxCopy_frame_time :
    ∀ x0 s t, execBoxCopy x0 s = .next t → (t).time = s.time := by
  intros; rename_i h; simp only [execBoxCopy] at h; (repeat' split at h) <;> cases h <;> simp

theorem execBoxCopy_frame_boxDie :
    ∀ x0 s t, execBoxCopy x0 s = .next t → (t).boxDie = s.boxDie := by
  intros; rename_i h; simp only [execBoxCopy] at h; (repeat' split at h) <;> cases h <;> simp

theorem execBoxCopy_frame_fuses :
    ∀ x0 s t, execBoxCopy x0 s = .next t → (t).fuses = s.fuses := by
  intros; rename_i h; simp only [execBoxCopy] at h; (repeat' split at h) <;> cases h <;> simp

theorem execBoxCopy_wf_dram :
    ∀ x0 s t, Memory.wf s.dram = true → execBoxCopy x0 s = .next t → Memory.wf (t).dram = true := by
  intros; rename_i hw h; simp only [execBoxCopy] at h; (repeat' split at h) <;> (simp only [Host.Outcome.next.injEq, reduceCtorEq] at h) <;> (subst h; simp +contextual [hw])

theorem execBoxCopy_frame_ws :
    ∀ x0 s t, execBoxCopy x0 s = .next t → (t).ws = s.ws := by
  intros; rename_i h; simp only [execBoxCopy] at h; (repeat' split at h) <;> cases h <;> simp

/-! ### Bringup -/

@[simp] theorem releaseBit_frame :
    ∀ x0 s, (releaseBit x0 s).pending = s.pending ∧ (releaseBit x0 s).time = s.time ∧ (releaseBit x0 s).boxDie = s.boxDie ∧ (releaseBit x0 s).fuses = s.fuses ∧ (releaseBit x0 s).dram = s.dram ∧ (releaseBit x0 s).ws = s.ws := by
  intros; simp [releaseBit]

@[simp] theorem wideSource_frame_pending :
    ∀ x0 x1 s, (wideSource x0 x1 s).pending = s.pending := by
  intros; simp [wideSource]

@[simp] theorem wideSource_frame_time :
    ∀ x0 x1 s, (wideSource x0 x1 s).time = s.time := by
  intros; simp [wideSource]

@[simp] theorem wideSource_frame_boxDie :
    ∀ x0 x1 s, (wideSource x0 x1 s).boxDie = s.boxDie := by
  intros; simp [wideSource]

@[simp] theorem wideSource_frame_fuses :
    ∀ x0 x1 s, (wideSource x0 x1 s).fuses = s.fuses := by
  intros; simp [wideSource]

@[simp] theorem wideSource_wf_dram :
    ∀ x0 x1 s, Memory.wf s.dram = true → Memory.wf (wideSource x0 x1 s).dram = true := by
  intros; unfold wideSource; (repeat' split) <;> simp +contextual [*]

@[simp] theorem wideSource_wf_ws :
    ∀ x0 x1 s, Memory.wf s.ws = true → Memory.wf (wideSource x0 x1 s).ws = true := by
  intros; unfold wideSource; (repeat' split) <;> simp +contextual [*]

@[simp] theorem warmSource_frame_pending :
    ∀ x0 x1 s, (warmSource x0 x1 s).pending = s.pending := by
  intros; simp [warmSource]

@[simp] theorem warmSource_frame_time :
    ∀ x0 x1 s, (warmSource x0 x1 s).time = s.time := by
  intros; simp [warmSource]

@[simp] theorem warmSource_frame_boxDie :
    ∀ x0 x1 s, (warmSource x0 x1 s).boxDie = s.boxDie := by
  intros; simp [warmSource]

@[simp] theorem warmSource_frame_fuses :
    ∀ x0 x1 s, (warmSource x0 x1 s).fuses = s.fuses := by
  intros; simp [warmSource]

@[simp] theorem warmSource_wf_dram :
    ∀ x0 x1 s, Memory.wf s.dram = true → Memory.wf (warmSource x0 x1 s).dram = true := by
  intros; unfold warmSource; (repeat' split) <;> simp +contextual [*]

@[simp] theorem warmSource_wf_ws :
    ∀ x0 x1 s, Memory.wf s.ws = true → Memory.wf (warmSource x0 x1 s).ws = true := by
  intros; unfold warmSource; (repeat' split) <;> simp +contextual [*]

theorem execStandbyPor_frame_pending :
    ∀ x0 s t, execStandbyPor x0 s = .next t → (t).pending = s.pending := by
  intros; rename_i h; simp only [execStandbyPor] at h; (repeat' split at h) <;> cases h <;> simp

theorem execStandbyPor_frame_time :
    ∀ x0 s t, execStandbyPor x0 s = .next t → (t).time = s.time := by
  intros; rename_i h; simp only [execStandbyPor] at h; (repeat' split at h) <;> cases h <;> simp

theorem execStandbyPor_frame_fuses :
    ∀ x0 s t, execStandbyPor x0 s = .next t → (t).fuses = s.fuses := by
  intros; rename_i h; simp only [execStandbyPor] at h; (repeat' split at h) <;> (simp only [Host.Outcome.next.injEq, reduceCtorEq] at h) <;> (subst h; simp)

theorem execStandbyPor_wf_dram :
    ∀ x0 s t, Memory.wf s.dram = true → execStandbyPor x0 s = .next t → Memory.wf (t).dram = true := by
  intros; rename_i hw h; simp only [execStandbyPor] at h; (repeat' split at h) <;> (simp only [Host.Outcome.next.injEq, reduceCtorEq] at h) <;> (subst h; simp +contextual [hw])

theorem execStandbyPor_wf_ws :
    ∀ x0 s t, Memory.wf s.ws = true → execStandbyPor x0 s = .next t → Memory.wf (t).ws = true := by
  intros; rename_i hw h; simp only [execStandbyPor] at h; (repeat' split at h) <;> (simp only [Host.Outcome.next.injEq, reduceCtorEq] at h) <;> (subst h; simp +contextual [hw])

@[simp] theorem railOut_frame :
    ∀ x0 s, (railOut x0 s).pending = s.pending ∧ (railOut x0 s).time = s.time ∧ (railOut x0 s).boxDie = s.boxDie ∧ (railOut x0 s).fuses = s.fuses ∧ (railOut x0 s).dram = s.dram ∧ (railOut x0 s).ws = s.ws := by
  intros; simp [railOut]

theorem execMainPor_frame_pending :
    ∀ x0 x1 s t, execMainPor x0 x1 s = .next t → (t).pending = s.pending := by
  intros; rename_i h; simp only [execMainPor] at h; (repeat' split at h) <;> (simp only [Host.Outcome.next.injEq, reduceCtorEq] at h) <;> (subst h; simp)

theorem execMainPor_frame_time :
    ∀ x0 x1 s t, execMainPor x0 x1 s = .next t → (t).time = s.time := by
  intros; rename_i h; simp only [execMainPor] at h; (repeat' split at h) <;> (simp only [Host.Outcome.next.injEq, reduceCtorEq] at h) <;> (subst h; simp)

theorem execMainPor_frame_fuses :
    ∀ x0 x1 s t, execMainPor x0 x1 s = .next t → (t).fuses = s.fuses := by
  intros; rename_i h; simp only [execMainPor] at h; (repeat' split at h) <;> (simp only [Host.Outcome.next.injEq, reduceCtorEq] at h) <;> (subst h; simp)

theorem execMainPor_wf_dram :
    ∀ x0 x1 s t, Memory.wf s.dram = true → execMainPor x0 x1 s = .next t → Memory.wf (t).dram = true := by
  intros; rename_i hw h; simp only [execMainPor] at h; (repeat' split at h) <;> (simp only [Host.Outcome.next.injEq, reduceCtorEq] at h) <;> (subst h; simp +contextual [hw])

theorem execMainPor_wf_ws :
    ∀ x0 x1 s t, Memory.wf s.ws = true → execMainPor x0 x1 s = .next t → Memory.wf (t).ws = true := by
  intros; rename_i hw h; simp only [execMainPor] at h; (repeat' split at h) <;> (simp only [Host.Outcome.next.injEq, reduceCtorEq] at h) <;> (subst h; simp +contextual [hw])

theorem execResetN_frame_pending :
    ∀ x0 s t, execResetN x0 s = .next t → (t).pending = s.pending := by
  intros; rename_i h; simp only [execResetN] at h; (repeat' split at h) <;> (simp only [Host.Outcome.next.injEq, reduceCtorEq] at h) <;> (subst h; simp)

theorem execResetN_frame_time :
    ∀ x0 s t, execResetN x0 s = .next t → (t).time = s.time := by
  intros; rename_i h; simp only [execResetN] at h; (repeat' split at h) <;> (simp only [Host.Outcome.next.injEq, reduceCtorEq] at h) <;> (subst h; simp)

theorem execResetN_frame_boxDie :
    ∀ x0 s t, execResetN x0 s = .next t → (t).boxDie = s.boxDie := by
  intros; rename_i h; simp only [execResetN] at h; (repeat' split at h) <;> (simp only [Host.Outcome.next.injEq, reduceCtorEq] at h) <;> (subst h; simp)

theorem execResetN_frame_fuses :
    ∀ x0 s t, execResetN x0 s = .next t → (t).fuses = s.fuses := by
  intros; rename_i h; simp only [execResetN] at h; (repeat' split at h) <;> (simp only [Host.Outcome.next.injEq, reduceCtorEq] at h) <;> (subst h; simp)

theorem execResetN_wf_dram :
    ∀ x0 s t, Memory.wf s.dram = true → execResetN x0 s = .next t → Memory.wf (t).dram = true := by
  intros; rename_i hw h; simp only [execResetN] at h; (repeat' split at h) <;> (simp only [Host.Outcome.next.injEq, reduceCtorEq] at h) <;> (subst h; simp +contextual [hw])

theorem execResetN_wf_ws :
    ∀ x0 s t, Memory.wf s.ws = true → execResetN x0 s = .next t → Memory.wf (t).ws = true := by
  intros; rename_i hw h; simp only [execResetN] at h; (repeat' split at h) <;> (simp only [Host.Outcome.next.injEq, reduceCtorEq] at h) <;> (subst h; simp +contextual [hw])

theorem execWarmN_frame_pending :
    ∀ x0 s t, execWarmN x0 s = .next t → (t).pending = s.pending := by
  intros; rename_i h; simp only [execWarmN] at h; (repeat' split at h) <;> (simp only [Host.Outcome.next.injEq, reduceCtorEq] at h) <;> (subst h; simp)

theorem execWarmN_frame_time :
    ∀ x0 s t, execWarmN x0 s = .next t → (t).time = s.time := by
  intros; rename_i h; simp only [execWarmN] at h; (repeat' split at h) <;> (simp only [Host.Outcome.next.injEq, reduceCtorEq] at h) <;> (subst h; simp)

theorem execWarmN_frame_boxDie :
    ∀ x0 s t, execWarmN x0 s = .next t → (t).boxDie = s.boxDie := by
  intros; rename_i h; simp only [execWarmN] at h; (repeat' split at h) <;> (simp only [Host.Outcome.next.injEq, reduceCtorEq] at h) <;> (subst h; simp)

theorem execWarmN_frame_fuses :
    ∀ x0 s t, execWarmN x0 s = .next t → (t).fuses = s.fuses := by
  intros; rename_i h; simp only [execWarmN] at h; (repeat' split at h) <;> (simp only [Host.Outcome.next.injEq, reduceCtorEq] at h) <;> (subst h; simp)

theorem execWarmN_wf_dram :
    ∀ x0 s t, Memory.wf s.dram = true → execWarmN x0 s = .next t → Memory.wf (t).dram = true := by
  intros; rename_i hw h; simp only [execWarmN] at h; (repeat' split at h) <;> (simp only [Host.Outcome.next.injEq, reduceCtorEq] at h) <;> (subst h; simp +contextual [hw])

theorem execWarmN_wf_ws :
    ∀ x0 s t, Memory.wf s.ws = true → execWarmN x0 s = .next t → Memory.wf (t).ws = true := by
  intros; rename_i hw h; simp only [execWarmN] at h; (repeat' split at h) <;> (simp only [Host.Outcome.next.injEq, reduceCtorEq] at h) <;> (subst h; simp +contextual [hw])

theorem execSoftwareResetEnd_frame :
    ∀ x0 s t, execSoftwareResetEnd x0 s = .next t → (t).pending = s.pending ∧ (t).time = s.time ∧ (t).boxDie = s.boxDie ∧ (t).fuses = s.fuses ∧ (t).dram = s.dram ∧ (t).ws = s.ws := by
  intros; rename_i h; simp only [execSoftwareResetEnd] at h; (repeat' split at h) <;> (simp only [Host.Outcome.next.injEq, reduceCtorEq] at h) <;> (subst h; simp)

theorem execWarmEntryEnd_frame_pending :
    ∀ s t, execWarmEntryEnd s = .next t → (t).pending = s.pending := by
  intros; rename_i h; simp only [execWarmEntryEnd] at h; (repeat' split at h) <;> (simp only [Host.Outcome.next.injEq, reduceCtorEq] at h) <;> (subst h; simp)

theorem execWarmEntryEnd_frame_time :
    ∀ s t, execWarmEntryEnd s = .next t → (t).time = s.time := by
  intros; rename_i h; simp only [execWarmEntryEnd] at h; (repeat' split at h) <;> (simp only [Host.Outcome.next.injEq, reduceCtorEq] at h) <;> (subst h; simp)

theorem execWarmEntryEnd_frame_boxDie :
    ∀ s t, execWarmEntryEnd s = .next t → (t).boxDie = s.boxDie := by
  intros; rename_i h; simp only [execWarmEntryEnd] at h; (repeat' split at h) <;> (simp only [Host.Outcome.next.injEq, reduceCtorEq] at h) <;> (subst h; simp)

theorem execWarmEntryEnd_frame_fuses :
    ∀ s t, execWarmEntryEnd s = .next t → (t).fuses = s.fuses := by
  intros; rename_i h; simp only [execWarmEntryEnd] at h; (repeat' split at h) <;> (simp only [Host.Outcome.next.injEq, reduceCtorEq] at h) <;> (subst h; simp)

theorem execWarmEntryEnd_wf_dram :
    ∀ s t, Memory.wf s.dram = true → execWarmEntryEnd s = .next t → Memory.wf (t).dram = true := by
  intros; rename_i hw h; simp only [execWarmEntryEnd] at h; (repeat' split at h) <;> (simp only [Host.Outcome.next.injEq, reduceCtorEq] at h) <;> (subst h; simp +contextual [hw])

theorem execWarmEntryEnd_wf_ws :
    ∀ s t, Memory.wf s.ws = true → execWarmEntryEnd s = .next t → Memory.wf (t).ws = true := by
  intros; rename_i hw h; simp only [execWarmEntryEnd] at h; (repeat' split at h) <;> (simp only [Host.Outcome.next.injEq, reduceCtorEq] at h) <;> (subst h; simp +contextual [hw])

theorem execWarmEntryTimeout_frame_pending :
    ∀ s t, execWarmEntryTimeout s = .next t → (t).pending = s.pending := by
  intros; rename_i h; simp only [execWarmEntryTimeout] at h; (repeat' split at h) <;> (simp only [Host.Outcome.next.injEq, reduceCtorEq] at h) <;> (subst h; simp)

theorem execWarmEntryTimeout_frame_time :
    ∀ s t, execWarmEntryTimeout s = .next t → (t).time = s.time := by
  intros; rename_i h; simp only [execWarmEntryTimeout] at h; (repeat' split at h) <;> (simp only [Host.Outcome.next.injEq, reduceCtorEq] at h) <;> (subst h; simp)

theorem execWarmEntryTimeout_frame_boxDie :
    ∀ s t, execWarmEntryTimeout s = .next t → (t).boxDie = s.boxDie := by
  intros; rename_i h; simp only [execWarmEntryTimeout] at h; (repeat' split at h) <;> (simp only [Host.Outcome.next.injEq, reduceCtorEq] at h) <;> (subst h; simp)

theorem execWarmEntryTimeout_frame_fuses :
    ∀ s t, execWarmEntryTimeout s = .next t → (t).fuses = s.fuses := by
  intros; rename_i h; simp only [execWarmEntryTimeout] at h; (repeat' split at h) <;> (simp only [Host.Outcome.next.injEq, reduceCtorEq] at h) <;> (subst h; simp)

theorem execWarmEntryTimeout_wf_dram :
    ∀ s t, Memory.wf s.dram = true → execWarmEntryTimeout s = .next t → Memory.wf (t).dram = true := by
  intros; rename_i hw h; simp only [execWarmEntryTimeout] at h; (repeat' split at h) <;> (simp only [Host.Outcome.next.injEq, reduceCtorEq] at h) <;> (subst h; simp +contextual [hw])

theorem execWarmEntryTimeout_wf_ws :
    ∀ s t, Memory.wf s.ws = true → execWarmEntryTimeout s = .next t → Memory.wf (t).ws = true := by
  intros; rename_i hw h; simp only [execWarmEntryTimeout] at h; (repeat' split at h) <;> (simp only [Host.Outcome.next.injEq, reduceCtorEq] at h) <;> (subst h; simp +contextual [hw])

@[simp] theorem strapRead_frame :
    ∀ x0 s, (strapRead x0 s).pending = s.pending ∧ (strapRead x0 s).time = s.time ∧ (strapRead x0 s).boxDie = s.boxDie ∧ (strapRead x0 s).fuses = s.fuses ∧ (strapRead x0 s).dram = s.dram ∧ (strapRead x0 s).ws = s.ws := by
  intros; simp only [strapRead]; (repeat' split) <;> simp

@[simp] theorem laneHold_frame :
    ∀ s, (laneHold s).pending = s.pending ∧ (laneHold s).time = s.time ∧ (laneHold s).boxDie = s.boxDie ∧ (laneHold s).fuses = s.fuses ∧ (laneHold s).dram = s.dram ∧ (laneHold s).ws = s.ws := by
  intros; simp [laneHold]

@[simp] theorem startTable_frame :
    ∀ s, (startTable s).pending = s.pending ∧ (startTable s).time = s.time ∧ (startTable s).boxDie = s.boxDie ∧ (startTable s).fuses = s.fuses ∧ (startTable s).dram = s.dram ∧ (startTable s).ws = s.ws := by
  intros; unfold startTable; split <;> simp

theorem execResetExit_frame :
    ∀ x0 s t, execResetExit x0 s = .next t → (t).pending = s.pending ∧ (t).time = s.time ∧ (t).boxDie = s.boxDie ∧ (t).fuses = s.fuses ∧ (t).dram = s.dram ∧ (t).ws = s.ws := by
  intros; rename_i h; simp only [execResetExit] at h; (repeat' split at h) <;> (simp only [Host.Outcome.next.injEq, reduceCtorEq] at h) <;> (subst h; simp)

@[simp] theorem startPorts_frame :
    ∀ s, (startPorts s).pending = s.pending ∧ (startPorts s).time = s.time ∧ (startPorts s).boxDie = s.boxDie ∧ (startPorts s).fuses = s.fuses ∧ (startPorts s).dram = s.dram ∧ (startPorts s).ws = s.ws := by
  intros; simp [startPorts]

theorem execOndieReady_frame :
    ∀ s t, execOndieReady s = .next t → (t).pending = s.pending ∧ (t).time = s.time ∧ (t).boxDie = s.boxDie ∧ (t).fuses = s.fuses ∧ (t).dram = s.dram ∧ (t).ws = s.ws := by
  intros; rename_i h; simp only [execOndieReady] at h; (repeat' split at h) <;> (simp only [Host.Outcome.next.injEq, reduceCtorEq] at h) <;> (subst h; simp)

theorem execRefLock_frame :
    ∀ s t, execRefLock s = .next t → (t).pending = s.pending ∧ (t).time = s.time ∧ (t).boxDie = s.boxDie ∧ (t).fuses = s.fuses ∧ (t).dram = s.dram ∧ (t).ws = s.ws := by
  intros; rename_i h; simp only [execRefLock] at h; (repeat' split at h) <;> (simp only [Host.Outcome.next.injEq, reduceCtorEq] at h) <;> (subst h; simp)

theorem execRefclkLate_frame :
    ∀ s t, execRefclkLate s = .next t → (t).pending = s.pending ∧ (t).time = s.time ∧ (t).boxDie = s.boxDie ∧ (t).fuses = s.fuses ∧ (t).dram = s.dram ∧ (t).ws = s.ws := by
  intros; rename_i h; simp only [execRefclkLate] at h; (repeat' split at h) <;> (simp only [Host.Outcome.next.injEq, reduceCtorEq] at h) <;> (subst h; simp)

theorem execLpddr6Trained_frame :
    ∀ s t, execLpddr6Trained s = .next t → (t).pending = s.pending ∧ (t).time = s.time ∧ (t).boxDie = s.boxDie ∧ (t).fuses = s.fuses ∧ (t).dram = s.dram ∧ (t).ws = s.ws := by
  intros; rename_i h; simp only [execLpddr6Trained] at h; (repeat' split at h) <;> (simp only [Host.Outcome.next.injEq, reduceCtorEq] at h) <;> (subst h; simp)

@[simp] theorem setEntries_frame :
    ∀ x0 s, (setEntries x0 s).pending = s.pending ∧ (setEntries x0 s).time = s.time ∧ (setEntries x0 s).boxDie = s.boxDie ∧ (setEntries x0 s).fuses = s.fuses ∧ (setEntries x0 s).dram = s.dram ∧ (setEntries x0 s).ws = s.ws := by
  intros; simp [setEntries]

@[simp] theorem defaultTable_frame :
    ∀ s, (defaultTable s).pending = s.pending ∧ (defaultTable s).time = s.time ∧ (defaultTable s).boxDie = s.boxDie ∧ (defaultTable s).fuses = s.fuses ∧ (defaultTable s).dram = s.dram ∧ (defaultTable s).ws = s.ws := by
  intros; simp [defaultTable]

@[simp] theorem takeTable_frame_pending :
    ∀ x0 s, (takeTable x0 s).pending = s.pending := by
  intros; simp [takeTable]

@[simp] theorem takeTable_frame_time :
    ∀ x0 s, (takeTable x0 s).time = s.time := by
  intros; simp [takeTable]

@[simp] theorem takeTable_frame_boxDie :
    ∀ x0 s, (takeTable x0 s).boxDie = s.boxDie := by
  intros; simp [takeTable]

@[simp] theorem takeTable_frame_fuses :
    ∀ x0 s, (takeTable x0 s).fuses = s.fuses := by
  intros; simp [takeTable]

@[simp] theorem takeTable_wf_dram :
    ∀ x0 s, Memory.wf s.dram = true → Memory.wf (takeTable x0 s).dram = true := by
  intros; simp +contextual [takeTable, *]

@[simp] theorem takeTable_wf_ws :
    ∀ x0 s, Memory.wf s.ws = true → Memory.wf (takeTable x0 s).ws = true := by
  intros; simp +contextual [takeTable, *]

theorem execOptDone_frame_pending :
    ∀ x0 s t, execOptDone x0 s = .next t → (t).pending = s.pending := by
  intros; rename_i h; simp only [execOptDone] at h; (repeat' split at h) <;> (simp only [Host.Outcome.next.injEq, reduceCtorEq] at h) <;> (subst h; simp)

theorem execOptDone_frame_time :
    ∀ x0 s t, execOptDone x0 s = .next t → (t).time = s.time := by
  intros; rename_i h; simp only [execOptDone] at h; (repeat' split at h) <;> (simp only [Host.Outcome.next.injEq, reduceCtorEq] at h) <;> (subst h; simp)

theorem execOptDone_frame_boxDie :
    ∀ x0 s t, execOptDone x0 s = .next t → (t).boxDie = s.boxDie := by
  intros; rename_i h; simp only [execOptDone] at h; (repeat' split at h) <;> (simp only [Host.Outcome.next.injEq, reduceCtorEq] at h) <;> (subst h; simp)

theorem execOptDone_frame_fuses :
    ∀ x0 s t, execOptDone x0 s = .next t → (t).fuses = s.fuses := by
  intros; rename_i h; simp only [execOptDone] at h; (repeat' split at h) <;> (simp only [Host.Outcome.next.injEq, reduceCtorEq] at h) <;> (subst h; simp)

theorem execOptDone_wf_dram :
    ∀ x0 s t, Memory.wf s.dram = true → execOptDone x0 s = .next t → Memory.wf (t).dram = true := by
  intros; rename_i hw h; simp only [execOptDone] at h; (repeat' split at h) <;> (simp only [Host.Outcome.next.injEq, reduceCtorEq] at h) <;> (subst h; simp +contextual [hw])

theorem execOptDone_wf_ws :
    ∀ x0 s t, Memory.wf s.ws = true → execOptDone x0 s = .next t → Memory.wf (t).ws = true := by
  intros; rename_i hw h; simp only [execOptDone] at h; (repeat' split at h) <;> (simp only [Host.Outcome.next.injEq, reduceCtorEq] at h) <;> (subst h; simp +contextual [hw])

theorem execMemReady_frame :
    ∀ s t, execMemReady s = .next t → (t).pending = s.pending ∧ (t).time = s.time ∧ (t).boxDie = s.boxDie ∧ (t).fuses = s.fuses ∧ (t).dram = s.dram ∧ (t).ws = s.ws := by
  intros; rename_i h; simp only [execMemReady] at h; (repeat' split at h) <;> (simp only [Host.Outcome.next.injEq, reduceCtorEq] at h) <;> (subst h; simp)

end Sys2Proof.Machine
end

