-- ==== Sys2Proof/Laws/FrameCmds.lean ====
section
/-! SUPPORT. The frame of the clock, cue, run and datagram commands: the queue, the clock, the box office die, the fuses and the two memories are as before, and
where a memory may change it keeps its canonical form. -/

set_option linter.unusedSimpArgs false

namespace Sys2Proof.Machine

/-! ### Clock -/

@[simp] theorem stgSticky_frame :
    ∀ x0 s, (stgSticky x0 s).pending = s.pending ∧ (stgSticky x0 s).time = s.time ∧ (stgSticky x0 s).boxDie = s.boxDie ∧ (stgSticky x0 s).fuses = s.fuses ∧ (stgSticky x0 s).dram = s.dram ∧ (stgSticky x0 s).ws = s.ws := by
  intros; simp [stgSticky]

@[simp] theorem dropSlew_frame :
    ∀ s, (dropSlew s).pending = s.pending ∧ (dropSlew s).time = s.time ∧ (dropSlew s).boxDie = s.boxDie ∧ (dropSlew s).fuses = s.fuses ∧ (dropSlew s).dram = s.dram ∧ (dropSlew s).ws = s.ws := by
  intros; simp [dropSlew]

@[simp] theorem epochLoad_frame :
    ∀ s, (epochLoad s).pending = s.pending ∧ (epochLoad s).time = s.time ∧ (epochLoad s).boxDie = s.boxDie ∧ (epochLoad s).fuses = s.fuses ∧ (epochLoad s).dram = s.dram ∧ (epochLoad s).ws = s.ws := by
  intros; simp [epochLoad]

@[simp] theorem captureEdge_frame :
    ∀ s, (captureEdge s).pending = s.pending ∧ (captureEdge s).time = s.time ∧ (captureEdge s).boxDie = s.boxDie ∧ (captureEdge s).fuses = s.fuses ∧ (captureEdge s).dram = s.dram ∧ (captureEdge s).ws = s.ws := by
  intros; simp [captureEdge]

@[simp] theorem clearArm_frame :
    ∀ s, (clearArm s).pending = s.pending ∧ (clearArm s).time = s.time ∧ (clearArm s).boxDie = s.boxDie ∧ (clearArm s).fuses = s.fuses ∧ (clearArm s).dram = s.dram ∧ (clearArm s).ws = s.ws := by
  intros; unfold clearArm; (repeat' split) <;> simp

theorem execTmarkEdge_frame :
    ∀ s t, execTmarkEdge s = .next t → (t).pending = s.pending ∧ (t).time = s.time ∧ (t).boxDie = s.boxDie ∧ (t).fuses = s.fuses ∧ (t).dram = s.dram ∧ (t).ws = s.ws := by
  intros; rename_i h; simp only [execTmarkEdge] at h; (repeat' split at h) <;> (simp only [Host.Outcome.next.injEq, reduceCtorEq] at h) <;> (subst h; simp)

theorem execGridPointJudged_frame_pending :
    ∀ s t, execGridPointJudged s = .next t → (t).pending = s.pending := by
  intros; rename_i h; simp only [execGridPointJudged] at h; (repeat' split at h) <;> (simp only [Host.Outcome.next.injEq, reduceCtorEq] at h) <;> (subst h; simp)

theorem execGridPointJudged_frame_time :
    ∀ s t, execGridPointJudged s = .next t → (t).time = s.time := by
  intros; rename_i h; simp only [execGridPointJudged] at h; (repeat' split at h) <;> (simp only [Host.Outcome.next.injEq, reduceCtorEq] at h) <;> (subst h; simp)

theorem execGridPointJudged_frame_boxDie :
    ∀ s t, execGridPointJudged s = .next t → (t).boxDie = s.boxDie := by
  intros; rename_i h; simp only [execGridPointJudged] at h; (repeat' split at h) <;> (simp only [Host.Outcome.next.injEq, reduceCtorEq] at h) <;> (subst h; simp)

theorem execGridPointJudged_frame_fuses :
    ∀ s t, execGridPointJudged s = .next t → (t).fuses = s.fuses := by
  intros; rename_i h; simp only [execGridPointJudged] at h; (repeat' split at h) <;> (simp only [Host.Outcome.next.injEq, reduceCtorEq] at h) <;> (subst h; simp)

theorem execGridPointJudged_wf_dram :
    ∀ s t, Memory.wf s.dram = true → execGridPointJudged s = .next t → Memory.wf (t).dram = true := by
  intros; rename_i hw h; simp only [execGridPointJudged] at h; (repeat' split at h) <;> (simp only [Host.Outcome.next.injEq, reduceCtorEq] at h) <;> (subst h; simp +contextual [hw])

theorem execGridPointJudged_wf_ws :
    ∀ s t, Memory.wf s.ws = true → execGridPointJudged s = .next t → Memory.wf (t).ws = true := by
  intros; rename_i hw h; simp only [execGridPointJudged] at h; (repeat' split at h) <;> (simp only [Host.Outcome.next.injEq, reduceCtorEq] at h) <;> (subst h; simp +contextual [hw])

theorem execSlewCorrection_frame_pending :
    ∀ s t, execSlewCorrection s = .next t → (t).pending = s.pending := by
  intros; rename_i h; simp only [execSlewCorrection] at h; (repeat' split at h) <;> (simp only [Host.Outcome.next.injEq, reduceCtorEq] at h) <;> (subst h; simp)

theorem execSlewCorrection_frame_boxDie :
    ∀ s t, execSlewCorrection s = .next t → (t).boxDie = s.boxDie := by
  intros; rename_i h; simp only [execSlewCorrection] at h; (repeat' split at h) <;> (simp only [Host.Outcome.next.injEq, reduceCtorEq] at h) <;> (subst h; simp)

theorem execSlewCorrection_frame_fuses :
    ∀ s t, execSlewCorrection s = .next t → (t).fuses = s.fuses := by
  intros; rename_i h; simp only [execSlewCorrection] at h; (repeat' split at h) <;> (simp only [Host.Outcome.next.injEq, reduceCtorEq] at h) <;> (subst h; simp)

theorem execSlewCorrection_frame_dram :
    ∀ s t, execSlewCorrection s = .next t → (t).dram = s.dram := by
  intros; rename_i h; simp only [execSlewCorrection] at h; (repeat' split at h) <;> (simp only [Host.Outcome.next.injEq, reduceCtorEq] at h) <;> (subst h; simp)

theorem execSlewCorrection_frame_ws :
    ∀ s t, execSlewCorrection s = .next t → (t).ws = s.ws := by
  intros; rename_i h; simp only [execSlewCorrection] at h; (repeat' split at h) <;> (simp only [Host.Outcome.next.injEq, reduceCtorEq] at h) <;> (subst h; simp)

theorem execHoldoverExpiry_frame :
    ∀ s t, execHoldoverExpiry s = .next t → (t).pending = s.pending ∧ (t).time = s.time ∧ (t).boxDie = s.boxDie ∧ (t).fuses = s.fuses ∧ (t).dram = s.dram ∧ (t).ws = s.ws := by
  intros; rename_i h; simp only [execHoldoverExpiry] at h; (repeat' split at h) <;> (simp only [Host.Outcome.next.injEq, reduceCtorEq] at h) <;> (subst h; simp)

theorem execNoticeTimeout_frame :
    ∀ s t, execNoticeTimeout s = .next t → (t).pending = s.pending ∧ (t).time = s.time ∧ (t).boxDie = s.boxDie ∧ (t).fuses = s.fuses ∧ (t).dram = s.dram ∧ (t).ws = s.ws := by
  intros; rename_i h; simp only [execNoticeTimeout] at h; (repeat' split at h) <;> (simp only [Host.Outcome.next.injEq, reduceCtorEq] at h) <;> (subst h; simp)

theorem execPllUnlock_frame_pending :
    ∀ s t, execPllUnlock s = .next t → (t).pending = s.pending := by
  intros; rename_i h; simp only [execPllUnlock] at h; (repeat' split at h) <;> (simp only [Host.Outcome.next.injEq, reduceCtorEq] at h) <;> (subst h; simp)

theorem execPllUnlock_frame_time :
    ∀ s t, execPllUnlock s = .next t → (t).time = s.time := by
  intros; rename_i h; simp only [execPllUnlock] at h; (repeat' split at h) <;> (simp only [Host.Outcome.next.injEq, reduceCtorEq] at h) <;> (subst h; simp)

theorem execPllUnlock_frame_boxDie :
    ∀ s t, execPllUnlock s = .next t → (t).boxDie = s.boxDie := by
  intros; rename_i h; simp only [execPllUnlock] at h; (repeat' split at h) <;> (simp only [Host.Outcome.next.injEq, reduceCtorEq] at h) <;> (subst h; simp)

theorem execPllUnlock_frame_fuses :
    ∀ s t, execPllUnlock s = .next t → (t).fuses = s.fuses := by
  intros; rename_i h; simp only [execPllUnlock] at h; (repeat' split at h) <;> (simp only [Host.Outcome.next.injEq, reduceCtorEq] at h) <;> (subst h; simp)

theorem execPllUnlock_wf_dram :
    ∀ s t, Memory.wf s.dram = true → execPllUnlock s = .next t → Memory.wf (t).dram = true := by
  intros; rename_i hw h; simp only [execPllUnlock] at h; (repeat' split at h) <;> (simp only [Host.Outcome.next.injEq, reduceCtorEq] at h) <;> (subst h; simp +contextual [hw])

theorem execPllUnlock_wf_ws :
    ∀ s t, Memory.wf s.ws = true → execPllUnlock s = .next t → Memory.wf (t).ws = true := by
  intros; rename_i hw h; simp only [execPllUnlock] at h; (repeat' split at h) <;> (simp only [Host.Outcome.next.injEq, reduceCtorEq] at h) <;> (subst h; simp +contextual [hw])

theorem execPllRelock_frame :
    ∀ s t, execPllRelock s = .next t → (t).pending = s.pending ∧ (t).time = s.time ∧ (t).boxDie = s.boxDie ∧ (t).fuses = s.fuses ∧ (t).dram = s.dram ∧ (t).ws = s.ws := by
  intros; rename_i h; simp only [execPllRelock] at h; (repeat' split at h) <;> (simp only [Host.Outcome.next.injEq, reduceCtorEq] at h) <;> (subst h; simp)

@[simp] theorem clockSend_frame :
    ∀ x0 x1 s, (clockSend x0 x1 s).pending = s.pending ∧ (clockSend x0 x1 s).time = s.time ∧ (clockSend x0 x1 s).boxDie = s.boxDie ∧ (clockSend x0 x1 s).fuses = s.fuses ∧ (clockSend x0 x1 s).dram = s.dram ∧ (clockSend x0 x1 s).ws = s.ws := by
  intros; simp [clockSend]

theorem execTimeExchangeStart_frame :
    ∀ s t, execTimeExchangeStart s = .next t → (t).pending = s.pending ∧ (t).time = s.time ∧ (t).boxDie = s.boxDie ∧ (t).fuses = s.fuses ∧ (t).dram = s.dram ∧ (t).ws = s.ws := by
  intros; rename_i h; simp only [execTimeExchangeStart] at h; (repeat' split at h) <;> (simp only [Host.Outcome.next.injEq, reduceCtorEq] at h) <;> (subst h; simp)

@[simp] theorem timeReply_frame :
    ∀ x0 x1 s, (timeReply x0 x1 s).pending = s.pending ∧ (timeReply x0 x1 s).time = s.time ∧ (timeReply x0 x1 s).boxDie = s.boxDie ∧ (timeReply x0 x1 s).fuses = s.fuses ∧ (timeReply x0 x1 s).dram = s.dram ∧ (timeReply x0 x1 s).ws = s.ws := by
  intros; simp [timeReply]

@[simp] theorem timeTake_frame :
    ∀ x0 x1 x2 x3 s, (timeTake x0 x1 x2 x3 s).pending = s.pending ∧ (timeTake x0 x1 x2 x3 s).time = s.time ∧ (timeTake x0 x1 x2 x3 s).boxDie = s.boxDie ∧ (timeTake x0 x1 x2 x3 s).fuses = s.fuses ∧ (timeTake x0 x1 x2 x3 s).dram = s.dram ∧ (timeTake x0 x1 x2 x3 s).ws = s.ws := by
  intros; simp only [timeTake]; (repeat' split) <;> simp

theorem execTime_frame :
    ∀ x0 x1 s t, execTime x0 x1 s = .next t → (t).pending = s.pending ∧ (t).time = s.time ∧ (t).boxDie = s.boxDie ∧ (t).fuses = s.fuses ∧ (t).dram = s.dram ∧ (t).ws = s.ws := by
  intros; rename_i h; simp only [execTime] at h; (repeat' split at h) <;> (simp only [Host.Outcome.next.injEq, reduceCtorEq] at h) <;> (subst h; simp)

theorem execNoticeSend_frame :
    ∀ s t, execNoticeSend s = .next t → (t).pending = s.pending ∧ (t).time = s.time ∧ (t).boxDie = s.boxDie ∧ (t).fuses = s.fuses ∧ (t).dram = s.dram ∧ (t).ws = s.ws := by
  intros; rename_i h; simp only [execNoticeSend] at h; (repeat' split at h) <;> (simp only [Host.Outcome.next.injEq, reduceCtorEq] at h) <;> (subst h; simp)

theorem execNotice_frame :
    ∀ x0 x1 s t, execNotice x0 x1 s = .next t → (t).pending = s.pending ∧ (t).time = s.time ∧ (t).boxDie = s.boxDie ∧ (t).fuses = s.fuses ∧ (t).dram = s.dram ∧ (t).ws = s.ws := by
  intros; rename_i h; simp only [execNotice] at h; (repeat' split at h) <;> (simp only [Host.Outcome.next.injEq, reduceCtorEq] at h) <;> (subst h; simp)

theorem execNoticeApply_frame :
    ∀ s t, execNoticeApply s = .next t → (t).pending = s.pending ∧ (t).time = s.time ∧ (t).boxDie = s.boxDie ∧ (t).fuses = s.fuses ∧ (t).dram = s.dram ∧ (t).ws = s.ws := by
  intros; rename_i h; simp only [execNoticeApply] at h; (repeat' split at h) <;> (simp only [Host.Outcome.next.injEq, reduceCtorEq] at h) <;> (subst h; simp)

/-! ### Cues -/

theorem execStepOpen_frame :
    ∀ s t, execStepOpen s = .next t → (t).pending = s.pending ∧ (t).time = s.time ∧ (t).boxDie = s.boxDie ∧ (t).fuses = s.fuses ∧ (t).dram = s.dram ∧ (t).ws = s.ws := by
  intros; rename_i h; simp only [execStepOpen] at h; (repeat' split at h) <;> (simp only [Host.Outcome.next.injEq, reduceCtorEq] at h) <;> (subst h; simp)

theorem execCueLaunch_frame :
    ∀ x0 x1 s t, execCueLaunch x0 x1 s = .next t → (t).pending = s.pending ∧ (t).time = s.time ∧ (t).boxDie = s.boxDie ∧ (t).fuses = s.fuses ∧ (t).dram = s.dram ∧ (t).ws = s.ws := by
  intros; rename_i h; simp only [execCueLaunch] at h; (repeat' split at h) <;> (simp only [Host.Outcome.next.injEq, reduceCtorEq] at h) <;> (subst h; simp)

@[simp] theorem makeLate_frame :
    ∀ x0 x1 s, (makeLate x0 x1 s).pending = s.pending ∧ (makeLate x0 x1 s).time = s.time ∧ (makeLate x0 x1 s).boxDie = s.boxDie ∧ (makeLate x0 x1 s).fuses = s.fuses ∧ (makeLate x0 x1 s).dram = s.dram ∧ (makeLate x0 x1 s).ws = s.ws := by
  intros; unfold makeLate; (repeat' split) <;> simp

theorem execDeadline_frame :
    ∀ x0 x1 s t, execDeadline x0 x1 s = .next t → (t).pending = s.pending ∧ (t).time = s.time ∧ (t).boxDie = s.boxDie ∧ (t).fuses = s.fuses ∧ (t).dram = s.dram ∧ (t).ws = s.ws := by
  intros; rename_i h; simp only [execDeadline] at h; (repeat' split at h) <;> (simp only [Host.Outcome.next.injEq, reduceCtorEq] at h) <;> (subst h; simp)

@[simp] theorem reform_frame_pending :
    ∀ x0 x1 x2 s, (reform x0 x1 x2 s).pending = s.pending := by
  intros; simp [reform]

@[simp] theorem reform_frame_time :
    ∀ x0 x1 x2 s, (reform x0 x1 x2 s).time = s.time := by
  intros; simp [reform]

@[simp] theorem reform_frame_boxDie :
    ∀ x0 x1 x2 s, (reform x0 x1 x2 s).boxDie = s.boxDie := by
  intros; simp [reform]

@[simp] theorem reform_frame_fuses :
    ∀ x0 x1 x2 s, (reform x0 x1 x2 s).fuses = s.fuses := by
  intros; simp [reform]

@[simp] theorem reform_wf_dram :
    ∀ x0 x1 x2 s, Memory.wf s.dram = true → Memory.wf (reform x0 x1 x2 s).dram = true := by
  intros; simp +contextual [reform, *]

@[simp] theorem reform_frame_ws :
    ∀ x0 x1 x2 s, (reform x0 x1 x2 s).ws = s.ws := by
  intros; simp [reform]

@[simp] theorem missMember_frame_pending :
    ∀ x0 x1 x2 x3 x4 x5 s, ((missMember x0 x1 x2 x3 x4 x5 s).1).pending = s.pending := by
  intros; simp only [missMember]; (repeat' split) <;> simp

@[simp] theorem missMember_frame_time :
    ∀ x0 x1 x2 x3 x4 x5 s, ((missMember x0 x1 x2 x3 x4 x5 s).1).time = s.time := by
  intros; simp only [missMember]; (repeat' split) <;> simp

@[simp] theorem missMember_frame_boxDie :
    ∀ x0 x1 x2 x3 x4 x5 s, ((missMember x0 x1 x2 x3 x4 x5 s).1).boxDie = s.boxDie := by
  intros; simp only [missMember]; (repeat' split) <;> simp

@[simp] theorem missMember_frame_fuses :
    ∀ x0 x1 x2 x3 x4 x5 s, ((missMember x0 x1 x2 x3 x4 x5 s).1).fuses = s.fuses := by
  intros; simp only [missMember]; (repeat' split) <;> simp

@[simp] theorem missMember_wf_dram :
    ∀ x0 x1 x2 x3 x4 x5 s, Memory.wf s.dram = true → Memory.wf ((missMember x0 x1 x2 x3 x4 x5 s).1).dram = true := by
  intros; unfold missMember; simp only []; (repeat' split) <;> simp +contextual [*]

@[simp] theorem missMember_frame_ws :
    ∀ x0 x1 x2 x3 x4 x5 s, ((missMember x0 x1 x2 x3 x4 x5 s).1).ws = s.ws := by
  intros; simp only [missMember]; (repeat' split) <;> simp

@[simp] theorem missAll_frame : ∀ x0 x1 x2 x3 x4 x5 s, ((missAll x0 x1 x2 x3 x4 x5 s).1).pending = s.pending ∧ ((missAll x0 x1 x2 x3 x4 x5 s).1).time = s.time ∧ ((missAll x0 x1 x2 x3 x4 x5 s).1).boxDie = s.boxDie ∧ ((missAll x0 x1 x2 x3 x4 x5 s).1).fuses = s.fuses ∧ ((missAll x0 x1 x2 x3 x4 x5 s).1).ws = s.ws := by
  intro a b c d e l; induction l with
  | nil => intros; simp [missAll]
  | cons m r ih => intro s; simp [missAll, ih]

@[simp] theorem missAll_wf_dram : ∀ x0 x1 x2 x3 x4 x5 s, Memory.wf s.dram = true → Memory.wf ((missAll x0 x1 x2 x3 x4 x5 s).1).dram = true := by
  intro a b c d e l; induction l with
  | nil => intro s hw; exact hw
  | cons m r ih => intro s hw; simp only [missAll]; exact ih _ (missMember_wf_dram _ _ _ _ _ _ _ hw)

@[simp] theorem applyLate_frame_pending :
    ∀ x0 x1 x2 x3 x4 x5 s, (applyLate x0 x1 x2 x3 x4 x5 s).pending = s.pending := by
  intros; simp [applyLate]

@[simp] theorem applyLate_frame_time :
    ∀ x0 x1 x2 x3 x4 x5 s, (applyLate x0 x1 x2 x3 x4 x5 s).time = s.time := by
  intros; simp [applyLate]

@[simp] theorem applyLate_frame_boxDie :
    ∀ x0 x1 x2 x3 x4 x5 s, (applyLate x0 x1 x2 x3 x4 x5 s).boxDie = s.boxDie := by
  intros; simp [applyLate]

@[simp] theorem applyLate_frame_fuses :
    ∀ x0 x1 x2 x3 x4 x5 s, (applyLate x0 x1 x2 x3 x4 x5 s).fuses = s.fuses := by
  intros; simp [applyLate]

@[simp] theorem applyLate_frame_ws :
    ∀ x0 x1 x2 x3 x4 x5 s, (applyLate x0 x1 x2 x3 x4 x5 s).ws = s.ws := by
  intros; simp [applyLate]

@[simp] theorem applyLate_wf_dram :
    ∀ x0 x1 x2 x3 x4 x5 s, Memory.wf s.dram = true → Memory.wf (applyLate x0 x1 x2 x3 x4 x5 s).dram = true := by
  intros; simp +contextual [applyLate, *]

@[simp] theorem actDone_frame :
    ∀ x0 s, (actDone x0 s).pending = s.pending ∧ (actDone x0 s).time = s.time ∧ (actDone x0 s).boxDie = s.boxDie ∧ (actDone x0 s).fuses = s.fuses ∧ (actDone x0 s).dram = s.dram ∧ (actDone x0 s).ws = s.ws := by
  intros; unfold actDone; (repeat' split) <;> simp

@[simp] theorem actClosed_frame :
    ∀ x0 x1 s, (actClosed x0 x1 s).pending = s.pending ∧ (actClosed x0 x1 s).time = s.time ∧ (actClosed x0 x1 s).boxDie = s.boxDie ∧ (actClosed x0 x1 s).fuses = s.fuses ∧ (actClosed x0 x1 s).dram = s.dram ∧ (actClosed x0 x1 s).ws = s.ws := by
  intros; simp only [actClosed]; (repeat' split) <;> simp

theorem execActionTick_frame_pending :
    ∀ x0 x1 s t, execActionTick x0 x1 s = .next t → (t).pending = s.pending := by
  intros; rename_i h; simp only [execActionTick] at h; (repeat' split at h) <;> (simp only [Host.Outcome.next.injEq, reduceCtorEq] at h) <;> (subst h; simp)

theorem execActionTick_frame_time :
    ∀ x0 x1 s t, execActionTick x0 x1 s = .next t → (t).time = s.time := by
  intros; rename_i h; simp only [execActionTick] at h; (repeat' split at h) <;> (simp only [Host.Outcome.next.injEq, reduceCtorEq] at h) <;> (subst h; simp)

theorem execActionTick_frame_boxDie :
    ∀ x0 x1 s t, execActionTick x0 x1 s = .next t → (t).boxDie = s.boxDie := by
  intros; rename_i h; simp only [execActionTick] at h; (repeat' split at h) <;> (simp only [Host.Outcome.next.injEq, reduceCtorEq] at h) <;> (subst h; simp)

theorem execActionTick_frame_fuses :
    ∀ x0 x1 s t, execActionTick x0 x1 s = .next t → (t).fuses = s.fuses := by
  intros; rename_i h; simp only [execActionTick] at h; (repeat' split at h) <;> (simp only [Host.Outcome.next.injEq, reduceCtorEq] at h) <;> (subst h; simp)

theorem execActionTick_frame_ws :
    ∀ x0 x1 s t, execActionTick x0 x1 s = .next t → (t).ws = s.ws := by
  intros; rename_i h; simp only [execActionTick] at h; (repeat' split at h) <;> (simp only [Host.Outcome.next.injEq, reduceCtorEq] at h) <;> (subst h; simp)

theorem execActionTick_wf_dram :
    ∀ x0 x1 s t, Memory.wf s.dram = true → execActionTick x0 x1 s = .next t → Memory.wf (t).dram = true := by
  intros; rename_i hw h; simp only [execActionTick] at h; (repeat' split at h) <;> (simp only [Host.Outcome.next.injEq, reduceCtorEq] at h) <;> (subst h; simp +contextual [hw])

theorem execCall_frame :
    ∀ x0 x1 s t, execCall x0 x1 s = .next t → (t).pending = s.pending ∧ (t).time = s.time ∧ (t).boxDie = s.boxDie ∧ (t).fuses = s.fuses ∧ (t).dram = s.dram ∧ (t).ws = s.ws := by
  intros; rename_i h; simp only [execCall] at h; (repeat' split at h) <;> (simp only [Host.Outcome.next.injEq, reduceCtorEq] at h) <;> (subst h; simp)

/-! ### RunCmds -/

@[simp] theorem initScales_frame_pending :
    ∀ s x1 x2, (initScales s x1 x2).pending = s.pending := by
  intros; simp [initScales]

@[simp] theorem initScales_frame_time :
    ∀ s x1 x2, (initScales s x1 x2).time = s.time := by
  intros; simp [initScales]

@[simp] theorem initScales_frame_boxDie :
    ∀ s x1 x2, (initScales s x1 x2).boxDie = s.boxDie := by
  intros; simp [initScales]

@[simp] theorem initScales_frame_fuses :
    ∀ s x1 x2, (initScales s x1 x2).fuses = s.fuses := by
  intros; simp [initScales]

@[simp] theorem initScales_wf_dram :
    ∀ s x1 x2, Memory.wf s.dram = true → Memory.wf (initScales s x1 x2).dram = true := by
  intros; unfold initScales; (repeat' split) <;> simp +contextual [*]

@[simp] theorem initScales_frame_ws :
    ∀ s x1 x2, (initScales s x1 x2).ws = s.ws := by
  intros; simp [initScales]

@[simp] theorem freshHarness_frame_pending :
    ∀ x0 x1 s, (freshHarness x0 x1 s).pending = s.pending := by
  intros; simp [freshHarness]

@[simp] theorem freshHarness_frame_time :
    ∀ x0 x1 s, (freshHarness x0 x1 s).time = s.time := by
  intros; simp [freshHarness]

@[simp] theorem freshHarness_frame_boxDie :
    ∀ x0 x1 s, (freshHarness x0 x1 s).boxDie = s.boxDie := by
  intros; simp [freshHarness]

@[simp] theorem freshHarness_frame_fuses :
    ∀ x0 x1 s, (freshHarness x0 x1 s).fuses = s.fuses := by
  intros; simp [freshHarness]

@[simp] theorem freshHarness_wf_dram :
    ∀ x0 x1 s, Memory.wf s.dram = true → Memory.wf (freshHarness x0 x1 s).dram = true := by
  intros; simp +contextual [freshHarness, *]

@[simp] theorem freshHarness_frame_ws :
    ∀ x0 x1 s, (freshHarness x0 x1 s).ws = s.ws := by
  intros; simp [freshHarness]

@[simp] theorem refuseSheet_frame :
    ∀ x0 x1 s, (refuseSheet x0 x1 s).pending = s.pending ∧ (refuseSheet x0 x1 s).time = s.time ∧ (refuseSheet x0 x1 s).boxDie = s.boxDie ∧ (refuseSheet x0 x1 s).fuses = s.fuses ∧ (refuseSheet x0 x1 s).dram = s.dram ∧ (refuseSheet x0 x1 s).ws = s.ws := by
  intros; simp [refuseSheet]

@[simp] theorem clearCueSel_frame :
    ∀ s, (clearCueSel s).pending = s.pending ∧ (clearCueSel s).time = s.time ∧ (clearCueSel s).boxDie = s.boxDie ∧ (clearCueSel s).fuses = s.fuses ∧ (clearCueSel s).dram = s.dram ∧ (clearCueSel s).ws = s.ws := by
  intros; simp [clearCueSel]

theorem execLoadSheet_frame_pending :
    ∀ x0 s t, execLoadSheet x0 s = .next t → (t).pending = s.pending := by
  intros; rename_i h; simp only [execLoadSheet, readThen, loadImage] at h; (repeat' split at h) <;> (simp only [Host.Outcome.next.injEq, reduceCtorEq] at h) <;> (subst h; simp)

theorem execLoadSheet_frame_time :
    ∀ x0 s t, execLoadSheet x0 s = .next t → (t).time = s.time := by
  intros; rename_i h; simp only [execLoadSheet, readThen, loadImage] at h; (repeat' split at h) <;> (simp only [Host.Outcome.next.injEq, reduceCtorEq] at h) <;> (subst h; simp)

theorem execLoadSheet_frame_boxDie :
    ∀ x0 s t, execLoadSheet x0 s = .next t → (t).boxDie = s.boxDie := by
  intros; rename_i h; simp only [execLoadSheet, readThen, loadImage] at h; (repeat' split at h) <;> (simp only [Host.Outcome.next.injEq, reduceCtorEq] at h) <;> (subst h; simp)

theorem execLoadSheet_frame_fuses :
    ∀ x0 s t, execLoadSheet x0 s = .next t → (t).fuses = s.fuses := by
  intros; rename_i h; simp only [execLoadSheet, readThen, loadImage] at h; (repeat' split at h) <;> (simp only [Host.Outcome.next.injEq, reduceCtorEq] at h) <;> (subst h; simp)

theorem execLoadSheet_wf_dram :
    ∀ x0 s t, Memory.wf s.dram = true → execLoadSheet x0 s = .next t → Memory.wf (t).dram = true := by
  intros; rename_i hw h; simp only [execLoadSheet, readThen, loadImage] at h; (repeat' split at h) <;> (simp only [Host.Outcome.next.injEq, reduceCtorEq] at h) <;> (subst h; simp +contextual [hw])

theorem execLoadSheet_wf_ws :
    ∀ x0 s t, Memory.wf s.ws = true → execLoadSheet x0 s = .next t → Memory.wf (t).ws = true := by
  intros; rename_i hw h; simp only [execLoadSheet, readThen, loadImage] at h; (repeat' split at h) <;> (simp only [Host.Outcome.next.injEq, reduceCtorEq] at h) <;> (subst h; simp +contextual [hw])

theorem execStartRun_frame_pending :
    ∀ x0 s t, execStartRun x0 s = .next t → (t).pending = s.pending := by
  intros; rename_i h; simp only [execStartRun, readThen, startImage] at h; (repeat' split at h) <;> (simp only [Host.Outcome.next.injEq, reduceCtorEq] at h) <;> (subst h; simp)

theorem execStartRun_frame_time :
    ∀ x0 s t, execStartRun x0 s = .next t → (t).time = s.time := by
  intros; rename_i h; simp only [execStartRun, readThen, startImage] at h; (repeat' split at h) <;> (simp only [Host.Outcome.next.injEq, reduceCtorEq] at h) <;> (subst h; simp)

theorem execStartRun_frame_boxDie :
    ∀ x0 s t, execStartRun x0 s = .next t → (t).boxDie = s.boxDie := by
  intros; rename_i h; simp only [execStartRun, readThen, startImage] at h; (repeat' split at h) <;> (simp only [Host.Outcome.next.injEq, reduceCtorEq] at h) <;> (subst h; simp)

theorem execStartRun_frame_fuses :
    ∀ x0 s t, execStartRun x0 s = .next t → (t).fuses = s.fuses := by
  intros; rename_i h; simp only [execStartRun, readThen, startImage] at h; (repeat' split at h) <;> (simp only [Host.Outcome.next.injEq, reduceCtorEq] at h) <;> (subst h; simp)

theorem execStartRun_wf_dram :
    ∀ x0 s t, Memory.wf s.dram = true → execStartRun x0 s = .next t → Memory.wf (t).dram = true := by
  intros; rename_i hw h; simp only [execStartRun, readThen, startImage] at h; (repeat' split at h) <;> (simp only [Host.Outcome.next.injEq, reduceCtorEq] at h) <;> (subst h; simp +contextual [hw])

theorem execStartRun_wf_ws :
    ∀ x0 s t, Memory.wf s.ws = true → execStartRun x0 s = .next t → Memory.wf (t).ws = true := by
  intros; rename_i hw h; simp only [execStartRun, readThen, startImage] at h; (repeat' split at h) <;> (simp only [Host.Outcome.next.injEq, reduceCtorEq] at h) <;> (subst h; simp +contextual [hw])

@[simp] theorem holdStop_frame :
    ∀ x0 s, (holdStop x0 s).pending = s.pending ∧ (holdStop x0 s).time = s.time ∧ (holdStop x0 s).boxDie = s.boxDie ∧ (holdStop x0 s).fuses = s.fuses ∧ (holdStop x0 s).dram = s.dram ∧ (holdStop x0 s).ws = s.ws := by
  intros; simp [holdStop]

@[simp] theorem stopIdle_frame :
    ∀ x0 s, (stopIdle x0 s).pending = s.pending ∧ (stopIdle x0 s).time = s.time ∧ (stopIdle x0 s).boxDie = s.boxDie ∧ (stopIdle x0 s).fuses = s.fuses ∧ (stopIdle x0 s).dram = s.dram ∧ (stopIdle x0 s).ws = s.ws := by
  intros; simp [stopIdle]

theorem execStop_frame :
    ∀ x0 s t, execStop x0 s = .next t → (t).pending = s.pending ∧ (t).time = s.time ∧ (t).boxDie = s.boxDie ∧ (t).fuses = s.fuses ∧ (t).dram = s.dram ∧ (t).ws = s.ws := by
  intros; rename_i h; simp only [execStop] at h; (repeat' split at h) <;> (simp only [Host.Outcome.next.injEq, reduceCtorEq] at h) <;> (subst h; simp)

theorem execStopRecovery_frame :
    ∀ x0 s t, execStopRecovery x0 s = .next t → (t).pending = s.pending ∧ (t).time = s.time ∧ (t).boxDie = s.boxDie ∧ (t).fuses = s.fuses ∧ (t).dram = s.dram ∧ (t).ws = s.ws := by
  intros; rename_i h; simp only [execStopRecovery] at h; (repeat' split at h) <;> (simp only [Host.Outcome.next.injEq, reduceCtorEq] at h) <;> (subst h; simp)

@[simp] theorem writeEntry_frame_pending :
    ∀ s x1, (writeEntry s x1).pending = s.pending := by
  intros; unfold writeEntry; (repeat' split) <;> simp

@[simp] theorem writeEntry_frame_time :
    ∀ s x1, (writeEntry s x1).time = s.time := by
  intros; unfold writeEntry; (repeat' split) <;> simp

@[simp] theorem writeEntry_frame_boxDie :
    ∀ s x1, (writeEntry s x1).boxDie = s.boxDie := by
  intros; unfold writeEntry; (repeat' split) <;> simp

@[simp] theorem writeEntry_frame_fuses :
    ∀ s x1, (writeEntry s x1).fuses = s.fuses := by
  intros; unfold writeEntry; (repeat' split) <;> simp

@[simp] theorem writeEntry_wf_dram :
    ∀ s x1, Memory.wf s.dram = true → Memory.wf (writeEntry s x1).dram = true := by
  intros; unfold writeEntry; (repeat' split) <;> simp +contextual [*]

@[simp] theorem writeEntry_frame_ws :
    ∀ s x1, (writeEntry s x1).ws = s.ws := by
  intros; unfold writeEntry; (repeat' split) <;> simp

@[simp] theorem writeEntries_frame_pending :
    ∀ s, (writeEntries s).pending = s.pending := by
  intros; simp [writeEntries]

@[simp] theorem writeEntries_frame_time :
    ∀ s, (writeEntries s).time = s.time := by
  intros; simp [writeEntries]

@[simp] theorem writeEntries_frame_boxDie :
    ∀ s, (writeEntries s).boxDie = s.boxDie := by
  intros; simp [writeEntries]

@[simp] theorem writeEntries_frame_fuses :
    ∀ s, (writeEntries s).fuses = s.fuses := by
  intros; simp [writeEntries]

@[simp] theorem writeEntries_wf_dram :
    ∀ s, Memory.wf s.dram = true → Memory.wf (writeEntries s).dram = true := by
  intros; simp +contextual [writeEntries, *]

@[simp] theorem writeEntries_frame_ws :
    ∀ s, (writeEntries s).ws = s.ws := by
  intros; simp [writeEntries]

theorem execDrainEnd_frame : ∀ s t, execDrainEnd s = .next t → t.pending = s.pending ∧ t.time = s.time ∧ t.boxDie = s.boxDie ∧ t.fuses = s.fuses ∧ t.ws = s.ws := by
  intros; rename_i h; simp only [execDrainEnd] at h; (repeat' split at h) <;> (simp only [Host.Outcome.next.injEq] at h) <;> (subst h; simp)

theorem execDrainEnd_wf_dram : ∀ s t, Memory.wf s.dram = true → execDrainEnd s = .next t → Memory.wf t.dram = true := by
  intros; rename_i hw h; unfold execDrainEnd at h; (repeat' split at h) <;> (simp only [Host.Outcome.next.injEq] at h) <;> (subst h) <;> try (simp [hw]; done)
  simp; exact writeEntries_wf_dram _ (foldl_wfd _ (fun s n hs => closeStep_wf_dram n s hs) _ _ hw)

theorem execReadmit_frame :
    ∀ x0 s t, execReadmit x0 s = .next t → (t).pending = s.pending ∧ (t).time = s.time ∧ (t).boxDie = s.boxDie ∧ (t).fuses = s.fuses ∧ (t).dram = s.dram ∧ (t).ws = s.ws := by
  intros; rename_i h; simp only [execReadmit] at h; (repeat' split at h) <;> (simp only [Host.Outcome.next.injEq, reduceCtorEq] at h) <;> (subst h; simp)

theorem execProgress_frame_pending :
    ∀ x0 s t, execProgress x0 s = .next t → (t).pending = s.pending := by
  intros; rename_i h; simp only [execProgress, readThen] at h; (repeat' split at h) <;> (simp only [Host.Outcome.next.injEq, reduceCtorEq] at h) <;> (subst h; simp)

theorem execProgress_frame_time :
    ∀ x0 s t, execProgress x0 s = .next t → (t).time = s.time := by
  intros; rename_i h; simp only [execProgress, readThen] at h; (repeat' split at h) <;> (simp only [Host.Outcome.next.injEq, reduceCtorEq] at h) <;> (subst h; simp)

theorem execProgress_frame_boxDie :
    ∀ x0 s t, execProgress x0 s = .next t → (t).boxDie = s.boxDie := by
  intros; rename_i h; simp only [execProgress, readThen] at h; (repeat' split at h) <;> (simp only [Host.Outcome.next.injEq, reduceCtorEq] at h) <;> (subst h; simp)

theorem execProgress_frame_fuses :
    ∀ x0 s t, execProgress x0 s = .next t → (t).fuses = s.fuses := by
  intros; rename_i h; simp only [execProgress, readThen] at h; (repeat' split at h) <;> (simp only [Host.Outcome.next.injEq, reduceCtorEq] at h) <;> (subst h; simp)

theorem execProgress_wf_dram :
    ∀ x0 s t, Memory.wf s.dram = true → execProgress x0 s = .next t → Memory.wf (t).dram = true := by
  intros; rename_i hw h; simp only [execProgress, readThen] at h; (repeat' split at h) <;> (simp only [Host.Outcome.next.injEq, reduceCtorEq] at h) <;> (subst h; simp +contextual [hw])

theorem execProgress_wf_ws :
    ∀ x0 s t, Memory.wf s.ws = true → execProgress x0 s = .next t → Memory.wf (t).ws = true := by
  intros; rename_i hw h; simp only [execProgress, readThen] at h; (repeat' split at h) <;> (simp only [Host.Outcome.next.injEq, reduceCtorEq] at h) <;> (subst h; simp +contextual [hw])

theorem execPbAck_frame_pending :
    ∀ x0 s t, execPbAck x0 s = .next t → (t).pending = s.pending := by
  intros; rename_i h; simp only [execPbAck] at h; (repeat' split at h) <;> (simp only [Host.Outcome.next.injEq, reduceCtorEq] at h) <;> (subst h; simp)

theorem execPbAck_frame_time :
    ∀ x0 s t, execPbAck x0 s = .next t → (t).time = s.time := by
  intros; rename_i h; simp only [execPbAck] at h; (repeat' split at h) <;> (simp only [Host.Outcome.next.injEq, reduceCtorEq] at h) <;> (subst h; simp)

theorem execPbAck_frame_boxDie :
    ∀ x0 s t, execPbAck x0 s = .next t → (t).boxDie = s.boxDie := by
  intros; rename_i h; simp only [execPbAck] at h; (repeat' split at h) <;> (simp only [Host.Outcome.next.injEq, reduceCtorEq] at h) <;> (subst h; simp)

theorem execPbAck_frame_fuses :
    ∀ x0 s t, execPbAck x0 s = .next t → (t).fuses = s.fuses := by
  intros; rename_i h; simp only [execPbAck] at h; (repeat' split at h) <;> (simp only [Host.Outcome.next.injEq, reduceCtorEq] at h) <;> (subst h; simp)

theorem execPbAck_wf_dram :
    ∀ x0 s t, Memory.wf s.dram = true → execPbAck x0 s = .next t → Memory.wf (t).dram = true := by
  intros; rename_i hw h; simp only [execPbAck] at h; (repeat' split at h) <;> (simp only [Host.Outcome.next.injEq, reduceCtorEq] at h) <;> (subst h; simp +contextual [hw])

theorem execPbAck_frame_ws :
    ∀ x0 s t, execPbAck x0 s = .next t → (t).ws = s.ws := by
  intros; rename_i h; simp only [execPbAck] at h; (repeat' split at h) <;> (simp only [Host.Outcome.next.injEq, reduceCtorEq] at h) <;> (subst h; simp)

/-! ### Dgrams -/

@[simp] theorem actDgram_frame_pending :
    ∀ x0 x1 s, (actDgram x0 x1 s).pending = s.pending := by
  intros; unfold actDgram; (repeat' split) <;> simp

@[simp] theorem actDgram_frame_time :
    ∀ x0 x1 s, (actDgram x0 x1 s).time = s.time := by
  intros; unfold actDgram; (repeat' split) <;> simp

@[simp] theorem actDgram_frame_boxDie :
    ∀ x0 x1 s, (actDgram x0 x1 s).boxDie = s.boxDie := by
  intros; unfold actDgram; (repeat' split) <;> simp

@[simp] theorem actDgram_frame_fuses :
    ∀ x0 x1 s, (actDgram x0 x1 s).fuses = s.fuses := by
  intros; unfold actDgram; (repeat' split) <;> simp

@[simp] theorem actDgram_wf_dram :
    ∀ x0 x1 s, Memory.wf s.dram = true → Memory.wf (actDgram x0 x1 s).dram = true := by
  intros; unfold actDgram; (repeat' split) <;> simp +contextual [*]

@[simp] theorem actDgram_wf_ws :
    ∀ x0 x1 s, Memory.wf s.ws = true → Memory.wf (actDgram x0 x1 s).ws = true := by
  intros; unfold actDgram; (repeat' split) <;> simp +contextual [*]

@[simp] theorem receive_frame_pending :
    ∀ x0 x1 x2 s, (receive x0 x1 x2 s).pending = s.pending := by
  intros; simp [receive]

@[simp] theorem receive_frame_time :
    ∀ x0 x1 x2 s, (receive x0 x1 x2 s).time = s.time := by
  intros; simp [receive]

@[simp] theorem receive_frame_boxDie :
    ∀ x0 x1 x2 s, (receive x0 x1 x2 s).boxDie = s.boxDie := by
  intros; simp [receive]

@[simp] theorem receive_frame_fuses :
    ∀ x0 x1 x2 s, (receive x0 x1 x2 s).fuses = s.fuses := by
  intros; simp [receive]

@[simp] theorem receive_wf_dram :
    ∀ x0 x1 x2 s, Memory.wf s.dram = true → Memory.wf (receive x0 x1 x2 s).dram = true := by
  intros; unfold receive; (repeat' split) <;> simp +contextual [*]

@[simp] theorem receive_wf_ws :
    ∀ x0 x1 x2 s, Memory.wf s.ws = true → Memory.wf (receive x0 x1 x2 s).ws = true := by
  intros; unfold receive; (repeat' split) <;> simp +contextual [*]

@[simp] theorem serveDgram_frame_pending :
    ∀ s, (serveDgram s).pending = s.pending := by
  intros; unfold serveDgram; (repeat' split) <;> simp

@[simp] theorem serveDgram_frame_time :
    ∀ s, (serveDgram s).time = s.time := by
  intros; unfold serveDgram; (repeat' split) <;> simp

@[simp] theorem serveDgram_frame_boxDie :
    ∀ s, (serveDgram s).boxDie = s.boxDie := by
  intros; unfold serveDgram; (repeat' split) <;> simp

@[simp] theorem serveDgram_frame_fuses :
    ∀ s, (serveDgram s).fuses = s.fuses := by
  intros; unfold serveDgram; (repeat' split) <;> simp

@[simp] theorem serveDgram_wf_dram :
    ∀ s, Memory.wf s.dram = true → Memory.wf (serveDgram s).dram = true := by
  intros; unfold serveDgram; simp only []; (repeat' split) <;> simp +contextual [*]

@[simp] theorem serveDgram_wf_ws :
    ∀ s, Memory.wf s.ws = true → Memory.wf (serveDgram s).ws = true := by
  intros; unfold serveDgram; simp only []; (repeat' split) <;> simp +contextual [*]

theorem execOpen_frame_pending :
    ∀ x0 s t, execOpen x0 s = .next t → (t).pending = s.pending := by
  intros; rename_i h; simp only [execOpen] at h; (repeat' split at h) <;> (simp only [Host.Outcome.next.injEq, reduceCtorEq] at h) <;> (subst h; simp)

theorem execOpen_frame_time :
    ∀ x0 s t, execOpen x0 s = .next t → (t).time = s.time := by
  intros; rename_i h; simp only [execOpen] at h; (repeat' split at h) <;> (simp only [Host.Outcome.next.injEq, reduceCtorEq] at h) <;> (subst h; simp)

theorem execOpen_frame_boxDie :
    ∀ x0 s t, execOpen x0 s = .next t → (t).boxDie = s.boxDie := by
  intros; rename_i h; simp only [execOpen] at h; (repeat' split at h) <;> (simp only [Host.Outcome.next.injEq, reduceCtorEq] at h) <;> (subst h; simp)

theorem execOpen_frame_fuses :
    ∀ x0 s t, execOpen x0 s = .next t → (t).fuses = s.fuses := by
  intros; rename_i h; simp only [execOpen] at h; (repeat' split at h) <;> (simp only [Host.Outcome.next.injEq, reduceCtorEq] at h) <;> (subst h; simp)

theorem execOpen_wf_dram :
    ∀ x0 s t, Memory.wf s.dram = true → execOpen x0 s = .next t → Memory.wf (t).dram = true := by
  intros; rename_i hw h; simp only [execOpen] at h; (repeat' split at h) <;> (simp only [Host.Outcome.next.injEq, reduceCtorEq] at h) <;> (subst h; simp +contextual [hw])

theorem execOpen_wf_ws :
    ∀ x0 s t, Memory.wf s.ws = true → execOpen x0 s = .next t → Memory.wf (t).ws = true := by
  intros; rename_i hw h; simp only [execOpen] at h; (repeat' split at h) <;> (simp only [Host.Outcome.next.injEq, reduceCtorEq] at h) <;> (subst h; simp +contextual [hw])

theorem execAuth_frame_pending :
    ∀ x0 s t, execAuth x0 s = .next t → (t).pending = s.pending := by
  intros; rename_i h; simp only [execAuth] at h; (repeat' split at h) <;> (simp only [Host.Outcome.next.injEq, reduceCtorEq] at h) <;> (subst h; simp)

theorem execAuth_frame_time :
    ∀ x0 s t, execAuth x0 s = .next t → (t).time = s.time := by
  intros; rename_i h; simp only [execAuth] at h; (repeat' split at h) <;> (simp only [Host.Outcome.next.injEq, reduceCtorEq] at h) <;> (subst h; simp)

theorem execAuth_frame_boxDie :
    ∀ x0 s t, execAuth x0 s = .next t → (t).boxDie = s.boxDie := by
  intros; rename_i h; simp only [execAuth] at h; (repeat' split at h) <;> (simp only [Host.Outcome.next.injEq, reduceCtorEq] at h) <;> (subst h; simp)

theorem execAuth_frame_fuses :
    ∀ x0 s t, execAuth x0 s = .next t → (t).fuses = s.fuses := by
  intros; rename_i h; simp only [execAuth] at h; (repeat' split at h) <;> (simp only [Host.Outcome.next.injEq, reduceCtorEq] at h) <;> (subst h; simp)

theorem execAuth_wf_dram :
    ∀ x0 s t, Memory.wf s.dram = true → execAuth x0 s = .next t → Memory.wf (t).dram = true := by
  intros; rename_i hw h; simp only [execAuth] at h; (repeat' split at h) <;> (simp only [Host.Outcome.next.injEq, reduceCtorEq] at h) <;> (subst h; simp +contextual [hw])

theorem execAuth_wf_ws :
    ∀ x0 s t, Memory.wf s.ws = true → execAuth x0 s = .next t → Memory.wf (t).ws = true := by
  intros; rename_i hw h; simp only [execAuth] at h; (repeat' split at h) <;> (simp only [Host.Outcome.next.injEq, reduceCtorEq] at h) <;> (subst h; simp +contextual [hw])

theorem execClose_frame_pending :
    ∀ x0 s t, execClose x0 s = .next t → (t).pending = s.pending := by
  intros; rename_i h; simp only [execClose] at h; (repeat' split at h) <;> (simp only [Host.Outcome.next.injEq, reduceCtorEq] at h) <;> (subst h; simp)

theorem execClose_frame_time :
    ∀ x0 s t, execClose x0 s = .next t → (t).time = s.time := by
  intros; rename_i h; simp only [execClose] at h; (repeat' split at h) <;> (simp only [Host.Outcome.next.injEq, reduceCtorEq] at h) <;> (subst h; simp)

theorem execClose_frame_boxDie :
    ∀ x0 s t, execClose x0 s = .next t → (t).boxDie = s.boxDie := by
  intros; rename_i h; simp only [execClose] at h; (repeat' split at h) <;> (simp only [Host.Outcome.next.injEq, reduceCtorEq] at h) <;> (subst h; simp)

theorem execClose_frame_fuses :
    ∀ x0 s t, execClose x0 s = .next t → (t).fuses = s.fuses := by
  intros; rename_i h; simp only [execClose] at h; (repeat' split at h) <;> (simp only [Host.Outcome.next.injEq, reduceCtorEq] at h) <;> (subst h; simp)

theorem execClose_wf_dram :
    ∀ x0 s t, Memory.wf s.dram = true → execClose x0 s = .next t → Memory.wf (t).dram = true := by
  intros; rename_i hw h; simp only [execClose] at h; (repeat' split at h) <;> (simp only [Host.Outcome.next.injEq, reduceCtorEq] at h) <;> (subst h; simp +contextual [hw])

theorem execClose_wf_ws :
    ∀ x0 s t, Memory.wf s.ws = true → execClose x0 s = .next t → Memory.wf (t).ws = true := by
  intros; rename_i hw h; simp only [execClose] at h; (repeat' split at h) <;> (simp only [Host.Outcome.next.injEq, reduceCtorEq] at h) <;> (subst h; simp +contextual [hw])

theorem execKeep_frame_pending :
    ∀ x0 s t, execKeep x0 s = .next t → (t).pending = s.pending := by
  intros; rename_i h; simp only [execKeep] at h; (repeat' split at h) <;> (simp only [Host.Outcome.next.injEq, reduceCtorEq] at h) <;> (subst h; simp)

theorem execKeep_frame_time :
    ∀ x0 s t, execKeep x0 s = .next t → (t).time = s.time := by
  intros; rename_i h; simp only [execKeep] at h; (repeat' split at h) <;> (simp only [Host.Outcome.next.injEq, reduceCtorEq] at h) <;> (subst h; simp)

theorem execKeep_frame_boxDie :
    ∀ x0 s t, execKeep x0 s = .next t → (t).boxDie = s.boxDie := by
  intros; rename_i h; simp only [execKeep] at h; (repeat' split at h) <;> (simp only [Host.Outcome.next.injEq, reduceCtorEq] at h) <;> (subst h; simp)

theorem execKeep_frame_fuses :
    ∀ x0 s t, execKeep x0 s = .next t → (t).fuses = s.fuses := by
  intros; rename_i h; simp only [execKeep] at h; (repeat' split at h) <;> (simp only [Host.Outcome.next.injEq, reduceCtorEq] at h) <;> (subst h; simp)

theorem execKeep_wf_dram :
    ∀ x0 s t, Memory.wf s.dram = true → execKeep x0 s = .next t → Memory.wf (t).dram = true := by
  intros; rename_i hw h; simp only [execKeep] at h; (repeat' split at h) <;> (simp only [Host.Outcome.next.injEq, reduceCtorEq] at h) <;> (subst h; simp +contextual [hw])

theorem execKeep_wf_ws :
    ∀ x0 s t, Memory.wf s.ws = true → execKeep x0 s = .next t → Memory.wf (t).ws = true := by
  intros; rename_i hw h; simp only [execKeep] at h; (repeat' split at h) <;> (simp only [Host.Outcome.next.injEq, reduceCtorEq] at h) <;> (subst h; simp +contextual [hw])

theorem execPost_frame_pending :
    ∀ x0 s t, execPost x0 s = .next t → (t).pending = s.pending := by
  intros; rename_i h; simp only [execPost] at h; (repeat' split at h) <;> (simp only [Host.Outcome.next.injEq, reduceCtorEq] at h) <;> (subst h; simp)

theorem execPost_frame_time :
    ∀ x0 s t, execPost x0 s = .next t → (t).time = s.time := by
  intros; rename_i h; simp only [execPost] at h; (repeat' split at h) <;> (simp only [Host.Outcome.next.injEq, reduceCtorEq] at h) <;> (subst h; simp)

theorem execPost_frame_boxDie :
    ∀ x0 s t, execPost x0 s = .next t → (t).boxDie = s.boxDie := by
  intros; rename_i h; simp only [execPost] at h; (repeat' split at h) <;> (simp only [Host.Outcome.next.injEq, reduceCtorEq] at h) <;> (subst h; simp)

theorem execPost_frame_fuses :
    ∀ x0 s t, execPost x0 s = .next t → (t).fuses = s.fuses := by
  intros; rename_i h; simp only [execPost] at h; (repeat' split at h) <;> (simp only [Host.Outcome.next.injEq, reduceCtorEq] at h) <;> (subst h; simp)

theorem execPost_wf_dram :
    ∀ x0 s t, Memory.wf s.dram = true → execPost x0 s = .next t → Memory.wf (t).dram = true := by
  intros; rename_i hw h; simp only [execPost] at h; (repeat' split at h) <;> (simp only [Host.Outcome.next.injEq, reduceCtorEq] at h) <;> (subst h; simp +contextual [hw])

theorem execPost_wf_ws :
    ∀ x0 s t, Memory.wf s.ws = true → execPost x0 s = .next t → Memory.wf (t).ws = true := by
  intros; rename_i hw h; simp only [execPost] at h; (repeat' split at h) <;> (simp only [Host.Outcome.next.injEq, reduceCtorEq] at h) <;> (subst h; simp +contextual [hw])

theorem execRead_frame_pending :
    ∀ x0 s t, execRead x0 s = .next t → (t).pending = s.pending := by
  intros; rename_i h; simp only [execRead] at h; (repeat' split at h) <;> (simp only [Host.Outcome.next.injEq, reduceCtorEq] at h) <;> (subst h; simp)

theorem execRead_frame_time :
    ∀ x0 s t, execRead x0 s = .next t → (t).time = s.time := by
  intros; rename_i h; simp only [execRead] at h; (repeat' split at h) <;> (simp only [Host.Outcome.next.injEq, reduceCtorEq] at h) <;> (subst h; simp)

theorem execRead_frame_boxDie :
    ∀ x0 s t, execRead x0 s = .next t → (t).boxDie = s.boxDie := by
  intros; rename_i h; simp only [execRead] at h; (repeat' split at h) <;> (simp only [Host.Outcome.next.injEq, reduceCtorEq] at h) <;> (subst h; simp)

theorem execRead_frame_fuses :
    ∀ x0 s t, execRead x0 s = .next t → (t).fuses = s.fuses := by
  intros; rename_i h; simp only [execRead] at h; (repeat' split at h) <;> (simp only [Host.Outcome.next.injEq, reduceCtorEq] at h) <;> (subst h; simp)

theorem execRead_wf_dram :
    ∀ x0 s t, Memory.wf s.dram = true → execRead x0 s = .next t → Memory.wf (t).dram = true := by
  intros; rename_i hw h; simp only [execRead] at h; (repeat' split at h) <;> (simp only [Host.Outcome.next.injEq, reduceCtorEq] at h) <;> (subst h; simp +contextual [hw])

theorem execRead_wf_ws :
    ∀ x0 s t, Memory.wf s.ws = true → execRead x0 s = .next t → Memory.wf (t).ws = true := by
  intros; rename_i hw h; simp only [execRead] at h; (repeat' split at h) <;> (simp only [Host.Outcome.next.injEq, reduceCtorEq] at h) <;> (subst h; simp +contextual [hw])

theorem execBulkW_frame_pending :
    ∀ x0 s t, execBulkW x0 s = .next t → (t).pending = s.pending := by
  intros; rename_i h; simp only [execBulkW] at h; (repeat' split at h) <;> (simp only [Host.Outcome.next.injEq, reduceCtorEq] at h) <;> (subst h; simp)

theorem execBulkW_frame_time :
    ∀ x0 s t, execBulkW x0 s = .next t → (t).time = s.time := by
  intros; rename_i h; simp only [execBulkW] at h; (repeat' split at h) <;> (simp only [Host.Outcome.next.injEq, reduceCtorEq] at h) <;> (subst h; simp)

theorem execBulkW_frame_boxDie :
    ∀ x0 s t, execBulkW x0 s = .next t → (t).boxDie = s.boxDie := by
  intros; rename_i h; simp only [execBulkW] at h; (repeat' split at h) <;> (simp only [Host.Outcome.next.injEq, reduceCtorEq] at h) <;> (subst h; simp)

theorem execBulkW_frame_fuses :
    ∀ x0 s t, execBulkW x0 s = .next t → (t).fuses = s.fuses := by
  intros; rename_i h; simp only [execBulkW] at h; (repeat' split at h) <;> (simp only [Host.Outcome.next.injEq, reduceCtorEq] at h) <;> (subst h; simp)

theorem execBulkW_wf_dram :
    ∀ x0 s t, Memory.wf s.dram = true → execBulkW x0 s = .next t → Memory.wf (t).dram = true := by
  intros; rename_i hw h; simp only [execBulkW] at h; (repeat' split at h) <;> (simp only [Host.Outcome.next.injEq, reduceCtorEq] at h) <;> (subst h; simp +contextual [hw])

theorem execBulkW_wf_ws :
    ∀ x0 s t, Memory.wf s.ws = true → execBulkW x0 s = .next t → Memory.wf (t).ws = true := by
  intros; rename_i hw h; simp only [execBulkW] at h; (repeat' split at h) <;> (simp only [Host.Outcome.next.injEq, reduceCtorEq] at h) <;> (subst h; simp +contextual [hw])

theorem execBulkR_frame_pending :
    ∀ x0 x1 s t, execBulkR x0 x1 s = .next t → (t).pending = s.pending := by
  intros; rename_i h; simp only [execBulkR] at h; (repeat' split at h) <;> (simp only [Host.Outcome.next.injEq, reduceCtorEq] at h) <;> (subst h; simp)

theorem execBulkR_frame_time :
    ∀ x0 x1 s t, execBulkR x0 x1 s = .next t → (t).time = s.time := by
  intros; rename_i h; simp only [execBulkR] at h; (repeat' split at h) <;> (simp only [Host.Outcome.next.injEq, reduceCtorEq] at h) <;> (subst h; simp)

theorem execBulkR_frame_boxDie :
    ∀ x0 x1 s t, execBulkR x0 x1 s = .next t → (t).boxDie = s.boxDie := by
  intros; rename_i h; simp only [execBulkR] at h; (repeat' split at h) <;> (simp only [Host.Outcome.next.injEq, reduceCtorEq] at h) <;> (subst h; simp)

theorem execBulkR_frame_fuses :
    ∀ x0 x1 s t, execBulkR x0 x1 s = .next t → (t).fuses = s.fuses := by
  intros; rename_i h; simp only [execBulkR] at h; (repeat' split at h) <;> (simp only [Host.Outcome.next.injEq, reduceCtorEq] at h) <;> (subst h; simp)

theorem execBulkR_wf_dram :
    ∀ x0 x1 s t, Memory.wf s.dram = true → execBulkR x0 x1 s = .next t → Memory.wf (t).dram = true := by
  intros; rename_i hw h; simp only [execBulkR] at h; (repeat' split at h) <;> (simp only [Host.Outcome.next.injEq, reduceCtorEq] at h) <;> (subst h; simp +contextual [hw])

theorem execBulkR_wf_ws :
    ∀ x0 x1 s t, Memory.wf s.ws = true → execBulkR x0 x1 s = .next t → Memory.wf (t).ws = true := by
  intros; rename_i hw h; simp only [execBulkR] at h; (repeat' split at h) <;> (simp only [Host.Outcome.next.injEq, reduceCtorEq] at h) <;> (subst h; simp +contextual [hw])

theorem execEvack_frame_pending :
    ∀ x0 s t, execEvack x0 s = .next t → (t).pending = s.pending := by
  intros; rename_i h; simp only [execEvack] at h; (repeat' split at h) <;> (simp only [Host.Outcome.next.injEq, reduceCtorEq] at h) <;> (subst h; simp)

theorem execEvack_frame_time :
    ∀ x0 s t, execEvack x0 s = .next t → (t).time = s.time := by
  intros; rename_i h; simp only [execEvack] at h; (repeat' split at h) <;> (simp only [Host.Outcome.next.injEq, reduceCtorEq] at h) <;> (subst h; simp)

theorem execEvack_frame_boxDie :
    ∀ x0 s t, execEvack x0 s = .next t → (t).boxDie = s.boxDie := by
  intros; rename_i h; simp only [execEvack] at h; (repeat' split at h) <;> (simp only [Host.Outcome.next.injEq, reduceCtorEq] at h) <;> (subst h; simp)

theorem execEvack_frame_fuses :
    ∀ x0 s t, execEvack x0 s = .next t → (t).fuses = s.fuses := by
  intros; rename_i h; simp only [execEvack] at h; (repeat' split at h) <;> (simp only [Host.Outcome.next.injEq, reduceCtorEq] at h) <;> (subst h; simp)

theorem execEvack_wf_dram :
    ∀ x0 s t, Memory.wf s.dram = true → execEvack x0 s = .next t → Memory.wf (t).dram = true := by
  intros; rename_i hw h; simp only [execEvack] at h; (repeat' split at h) <;> (simp only [Host.Outcome.next.injEq, reduceCtorEq] at h) <;> (subst h; simp +contextual [hw])

theorem execEvack_wf_ws :
    ∀ x0 s t, Memory.wf s.ws = true → execEvack x0 s = .next t → Memory.wf (t).ws = true := by
  intros; rename_i hw h; simp only [execEvack] at h; (repeat' split at h) <;> (simp only [Host.Outcome.next.injEq, reduceCtorEq] at h) <;> (subst h; simp +contextual [hw])

theorem execLockoutExpiry_frame :
    ∀ s t, execLockoutExpiry s = .next t → (t).pending = s.pending ∧ (t).time = s.time ∧ (t).boxDie = s.boxDie ∧ (t).fuses = s.fuses ∧ (t).dram = s.dram ∧ (t).ws = s.ws := by
  intros; rename_i h; simp only [execLockoutExpiry] at h; (repeat' split at h) <;> (simp only [Host.Outcome.next.injEq, reduceCtorEq] at h) <;> (subst h; simp)

theorem execAuthTimeout_frame :
    ∀ x0 s t, execAuthTimeout x0 s = .next t → (t).pending = s.pending ∧ (t).time = s.time ∧ (t).boxDie = s.boxDie ∧ (t).fuses = s.fuses ∧ (t).dram = s.dram ∧ (t).ws = s.ws := by
  intros; rename_i h; simp only [execAuthTimeout] at h; (repeat' split at h) <;> (simp only [Host.Outcome.next.injEq, reduceCtorEq] at h) <;> (subst h; simp)

theorem execSessionTimeout_frame :
    ∀ x0 s t, execSessionTimeout x0 s = .next t → (t).pending = s.pending ∧ (t).time = s.time ∧ (t).boxDie = s.boxDie ∧ (t).fuses = s.fuses ∧ (t).dram = s.dram ∧ (t).ws = s.ws := by
  intros; rename_i h; simp only [execSessionTimeout] at h; (repeat' split at h) <;> (simp only [Host.Outcome.next.injEq, reduceCtorEq] at h) <;> (subst h; simp)

@[simp] theorem resendEvent_frame :
    ∀ x0 s x2, (resendEvent x0 s x2).pending = s.pending ∧ (resendEvent x0 s x2).time = s.time ∧ (resendEvent x0 s x2).boxDie = s.boxDie ∧ (resendEvent x0 s x2).fuses = s.fuses ∧ (resendEvent x0 s x2).dram = s.dram ∧ (resendEvent x0 s x2).ws = s.ws := by
  intros; simp [resendEvent]

theorem execEventResend_frame :
    ∀ x0 s t, execEventResend x0 s = .next t → (t).pending = s.pending ∧ (t).time = s.time ∧ (t).boxDie = s.boxDie ∧ (t).fuses = s.fuses ∧ (t).dram = s.dram ∧ (t).ws = s.ws := by
  intros; rename_i h; simp only [execEventResend] at h; (repeat' split at h) <;> (simp only [Host.Outcome.next.injEq, reduceCtorEq] at h) <;> (subst h; simp)

theorem execCommandEnd_frame :
    ∀ x0 s t, execCommandEnd x0 s = .next t → (t).pending = s.pending ∧ (t).time = s.time ∧ (t).boxDie = s.boxDie ∧ (t).fuses = s.fuses ∧ (t).dram = s.dram ∧ (t).ws = s.ws := by
  intros; rename_i h; simp only [execCommandEnd] at h; (repeat' split at h) <;> (simp only [Host.Outcome.next.injEq, reduceCtorEq] at h) <;> (subst h; simp)

theorem execInfo_frame :
    ∀ x0 s t, execInfo x0 s = .next t → (t).pending = s.pending ∧ (t).time = s.time ∧ (t).boxDie = s.boxDie ∧ (t).fuses = s.fuses ∧ (t).dram = s.dram ∧ (t).ws = s.ws := by
  intros; rename_i h; simp only [execInfo] at h; (repeat' split at h) <;> (simp only [Host.Outcome.next.injEq, reduceCtorEq] at h) <;> (subst h; simp)

theorem execEnroll_frame :
    ∀ x0 s t, execEnroll x0 s = .next t → (t).pending = s.pending ∧ (t).time = s.time ∧ (t).boxDie = s.boxDie ∧ (t).fuses = s.fuses ∧ (t).dram = s.dram ∧ (t).ws = s.ws := by
  intros; rename_i h; simp only [execEnroll] at h; (repeat' split at h) <;> (simp only [Host.Outcome.next.injEq, reduceCtorEq] at h) <;> (subst h; simp)

theorem execRevoke_frame :
    ∀ x0 s t, execRevoke x0 s = .next t → (t).pending = s.pending ∧ (t).time = s.time ∧ (t).boxDie = s.boxDie ∧ (t).fuses = s.fuses ∧ (t).dram = s.dram ∧ (t).ws = s.ws := by
  intros; rename_i h; simp only [execRevoke] at h; (repeat' split at h) <;> (simp only [Host.Outcome.next.injEq, reduceCtorEq] at h) <;> (subst h; simp)

theorem execOperatorTableErase_frame :
    ∀ s t, execOperatorTableErase s = .next t → (t).pending = s.pending ∧ (t).time = s.time ∧ (t).boxDie = s.boxDie ∧ (t).fuses = s.fuses ∧ (t).dram = s.dram ∧ (t).ws = s.ws := by
  intros; rename_i h; simp only [execOperatorTableErase] at h; (repeat' split at h) <;> (simp only [Host.Outcome.next.injEq, reduceCtorEq] at h) <;> (subst h; simp)

end Sys2Proof.Machine
end

