-- ==== Sys2Proof/Laws/FrameRegs.lean ====
section
/-! SUPPORT. The frame of the registers, the faults, the lanes and the leave: the queue, the clock, the box office die, the fuses and the two memories are as before, and
where a memory may change it keeps its canonical form. -/

set_option linter.unusedSimpArgs false

namespace Sys2Proof.Machine

/-! ### Registers -/

@[simp] theorem regClear_frame :
    ∀ x0 s x2, (regClear x0 s x2).pending = s.pending ∧ (regClear x0 s x2).time = s.time ∧ (regClear x0 s x2).boxDie = s.boxDie ∧ (regClear x0 s x2).fuses = s.fuses ∧ (regClear x0 s x2).dram = s.dram ∧ (regClear x0 s x2).ws = s.ws := by
  intros; unfold regClear; (repeat' split) <;> simp

@[simp] theorem afterRead_frame :
    ∀ x0 s x2, (afterRead x0 s x2).pending = s.pending ∧ (afterRead x0 s x2).time = s.time ∧ (afterRead x0 s x2).boxDie = s.boxDie ∧ (afterRead x0 s x2).fuses = s.fuses ∧ (afterRead x0 s x2).dram = s.dram ∧ (afterRead x0 s x2).ws = s.ws := by
  intros; simp [afterRead]

@[simp] theorem writeStgCtrl_frame :
    ∀ x0 s, (writeStgCtrl x0 s).pending = s.pending ∧ (writeStgCtrl x0 s).time = s.time ∧ (writeStgCtrl x0 s).boxDie = s.boxDie ∧ (writeStgCtrl x0 s).fuses = s.fuses ∧ (writeStgCtrl x0 s).dram = s.dram ∧ (writeStgCtrl x0 s).ws = s.ws := by
  intros; simp [writeStgCtrl]

@[simp] theorem writeCredit_frame :
    ∀ x0 x1 s, (writeCredit x0 x1 s).pending = s.pending ∧ (writeCredit x0 x1 s).time = s.time ∧ (writeCredit x0 x1 s).boxDie = s.boxDie ∧ (writeCredit x0 x1 s).fuses = s.fuses ∧ (writeCredit x0 x1 s).dram = s.dram ∧ (writeCredit x0 x1 s).ws = s.ws := by
  intros; simp [writeCredit]

@[simp] theorem writeSwcCtrl_frame :
    ∀ x0 s, (writeSwcCtrl x0 s).pending = s.pending ∧ (writeSwcCtrl x0 s).time = s.time ∧ (writeSwcCtrl x0 s).boxDie = s.boxDie ∧ (writeSwcCtrl x0 s).fuses = s.fuses ∧ (writeSwcCtrl x0 s).dram = s.dram ∧ (writeSwcCtrl x0 s).ws = s.ws := by
  intros; simp [writeSwcCtrl]

@[simp] theorem writeShaper_frame :
    ∀ x0 x1 s, (writeShaper x0 x1 s).pending = s.pending ∧ (writeShaper x0 x1 s).time = s.time ∧ (writeShaper x0 x1 s).boxDie = s.boxDie ∧ (writeShaper x0 x1 s).fuses = s.fuses ∧ (writeShaper x0 x1 s).dram = s.dram ∧ (writeShaper x0 x1 s).ws = s.ws := by
  intros; unfold writeShaper; (repeat' split) <;> simp

@[simp] theorem writePolicer_frame :
    ∀ x0 x1 s, (writePolicer x0 x1 s).pending = s.pending ∧ (writePolicer x0 x1 s).time = s.time ∧ (writePolicer x0 x1 s).boxDie = s.boxDie ∧ (writePolicer x0 x1 s).fuses = s.fuses ∧ (writePolicer x0 x1 s).dram = s.dram ∧ (writePolicer x0 x1 s).ws = s.ws := by
  intros; unfold writePolicer; (repeat' split) <;> simp

@[simp] theorem writeQuantum_frame :
    ∀ x0 x1 s, (writeQuantum x0 x1 s).pending = s.pending ∧ (writeQuantum x0 x1 s).time = s.time ∧ (writeQuantum x0 x1 s).boxDie = s.boxDie ∧ (writeQuantum x0 x1 s).fuses = s.fuses ∧ (writeQuantum x0 x1 s).dram = s.dram ∧ (writeQuantum x0 x1 s).ws = s.ws := by
  intros; unfold writeQuantum; (repeat' split) <;> simp

@[simp] theorem writeSample_frame :
    ∀ x0 s, (writeSample x0 s).pending = s.pending ∧ (writeSample x0 s).time = s.time ∧ (writeSample x0 s).boxDie = s.boxDie ∧ (writeSample x0 s).fuses = s.fuses ∧ (writeSample x0 s).dram = s.dram ∧ (writeSample x0 s).ws = s.ws := by
  intros; simp [writeSample]

@[simp] theorem modRoute_frame :
    ∀ x0 x1 s, (modRoute x0 x1 s).pending = s.pending ∧ (modRoute x0 x1 s).time = s.time ∧ (modRoute x0 x1 s).boxDie = s.boxDie ∧ (modRoute x0 x1 s).fuses = s.fuses ∧ (modRoute x0 x1 s).dram = s.dram ∧ (modRoute x0 x1 s).ws = s.ws := by
  intros; simp [modRoute]

@[simp] theorem setReact_frame :
    ∀ x0 x1 s, (setReact x0 x1 s).pending = s.pending ∧ (setReact x0 x1 s).time = s.time ∧ (setReact x0 x1 s).boxDie = s.boxDie ∧ (setReact x0 x1 s).fuses = s.fuses ∧ (setReact x0 x1 s).dram = s.dram ∧ (setReact x0 x1 s).ws = s.ws := by
  intros; simp [setReact]

@[simp] theorem takeBeat_frame :
    ∀ x0 s, (takeBeat x0 s).pending = s.pending ∧ (takeBeat x0 s).time = s.time ∧ (takeBeat x0 s).boxDie = s.boxDie ∧ (takeBeat x0 s).fuses = s.fuses ∧ (takeBeat x0 s).dram = s.dram ∧ (takeBeat x0 s).ws = s.ws := by
  intros; unfold takeBeat; (repeat' split) <;> simp

@[simp] theorem writeBeat_frame_pending :
    ∀ x0 s, (writeBeat x0 s).pending = s.pending := by
  intros; simp [writeBeat]

@[simp] theorem writeBeat_frame_time :
    ∀ x0 s, (writeBeat x0 s).time = s.time := by
  intros; simp [writeBeat]

@[simp] theorem writeBeat_frame_boxDie :
    ∀ x0 s, (writeBeat x0 s).boxDie = s.boxDie := by
  intros; simp [writeBeat]

@[simp] theorem writeBeat_frame_fuses :
    ∀ x0 s, (writeBeat x0 s).fuses = s.fuses := by
  intros; simp [writeBeat]

@[simp] theorem writeBeat_wf_dram :
    ∀ x0 s, Memory.wf s.dram = true → Memory.wf (writeBeat x0 s).dram = true := by
  intros; unfold writeBeat; (repeat' split) <;> simp +contextual [*]

@[simp] theorem writeBeat_wf_ws :
    ∀ x0 s, Memory.wf s.ws = true → Memory.wf (writeBeat x0 s).ws = true := by
  intros; unfold writeBeat; (repeat' split) <;> simp +contextual [*]

@[simp] theorem writeRstCtrl_frame_pending :
    ∀ x0 s, (writeRstCtrl x0 s).pending = s.pending := by
  intros; simp [writeRstCtrl]

@[simp] theorem writeRstCtrl_frame_time :
    ∀ x0 s, (writeRstCtrl x0 s).time = s.time := by
  intros; simp [writeRstCtrl]

@[simp] theorem writeRstCtrl_frame_boxDie :
    ∀ x0 s, (writeRstCtrl x0 s).boxDie = s.boxDie := by
  intros; simp [writeRstCtrl]

@[simp] theorem writeRstCtrl_frame_fuses :
    ∀ x0 s, (writeRstCtrl x0 s).fuses = s.fuses := by
  intros; simp [writeRstCtrl]

@[simp] theorem writeRstCtrl_wf_dram :
    ∀ x0 s, Memory.wf s.dram = true → Memory.wf (writeRstCtrl x0 s).dram = true := by
  intros; unfold writeRstCtrl; (repeat' split) <;> simp +contextual [*]

@[simp] theorem writeRstCtrl_wf_ws :
    ∀ x0 s, Memory.wf s.ws = true → Memory.wf (writeRstCtrl x0 s).ws = true := by
  intros; unfold writeRstCtrl; (repeat' split) <;> simp +contextual [*]

@[simp] theorem writeRstBlock_frame :
    ∀ x0 s, (writeRstBlock x0 s).pending = s.pending ∧ (writeRstBlock x0 s).time = s.time ∧ (writeRstBlock x0 s).boxDie = s.boxDie ∧ (writeRstBlock x0 s).fuses = s.fuses ∧ (writeRstBlock x0 s).dram = s.dram ∧ (writeRstBlock x0 s).ws = s.ws := by
  intros; simp [writeRstBlock]

@[simp] theorem modSel_frame :
    ∀ x0 x1 s, (modSel x0 x1 s).pending = s.pending ∧ (modSel x0 x1 s).time = s.time ∧ (modSel x0 x1 s).boxDie = s.boxDie ∧ (modSel x0 x1 s).fuses = s.fuses ∧ (modSel x0 x1 s).dram = s.dram ∧ (modSel x0 x1 s).ws = s.ws := by
  intros; unfold modSel; (repeat' split) <;> simp

@[simp] theorem regWrite_frame_pending :
    ∀ x0 x1 x2 s x4, (regWrite x0 x1 x2 s x4).pending = s.pending := by
  intros; unfold regWrite; (repeat' split) <;> simp

@[simp] theorem regWrite_frame_time :
    ∀ x0 x1 x2 s x4, (regWrite x0 x1 x2 s x4).time = s.time := by
  intros; unfold regWrite; (repeat' split) <;> simp

@[simp] theorem regWrite_frame_boxDie :
    ∀ x0 x1 x2 s x4, (regWrite x0 x1 x2 s x4).boxDie = s.boxDie := by
  intros; unfold regWrite; (repeat' split) <;> simp

@[simp] theorem regWrite_frame_fuses :
    ∀ x0 x1 x2 s x4, (regWrite x0 x1 x2 s x4).fuses = s.fuses := by
  intros; unfold regWrite; (repeat' split) <;> simp

@[simp] theorem regWrite_wf_dram :
    ∀ x0 x1 x2 s x4, Memory.wf s.dram = true → Memory.wf (regWrite x0 x1 x2 s x4).dram = true := by
  intros; unfold regWrite; (repeat' split) <;> simp +contextual [*]

@[simp] theorem regWrite_wf_ws :
    ∀ x0 x1 x2 s x4, Memory.wf s.ws = true → Memory.wf (regWrite x0 x1 x2 s x4).ws = true := by
  intros; unfold regWrite; (repeat' split) <;> simp +contextual [*]

@[simp] theorem violate_frame :
    ∀ x0 x1 x2 x3 s, (violate x0 x1 x2 x3 s).pending = s.pending ∧ (violate x0 x1 x2 x3 s).time = s.time ∧ (violate x0 x1 x2 x3 s).boxDie = s.boxDie ∧ (violate x0 x1 x2 x3 s).fuses = s.fuses ∧ (violate x0 x1 x2 x3 s).dram = s.dram ∧ (violate x0 x1 x2 x3 s).ws = s.ws := by
  intros; simp [violate]

@[simp] theorem accessRead_frame :
    ∀ x0 x1 s, ((accessRead x0 x1 s).2).pending = s.pending ∧ ((accessRead x0 x1 s).2).time = s.time ∧ ((accessRead x0 x1 s).2).boxDie = s.boxDie ∧ ((accessRead x0 x1 s).2).fuses = s.fuses ∧ ((accessRead x0 x1 s).2).dram = s.dram ∧ ((accessRead x0 x1 s).2).ws = s.ws := by
  intros; unfold accessRead; (repeat' split) <;> simp

@[simp] theorem noteWrite_frame :
    ∀ x0 x1 x2 s, (noteWrite x0 x1 x2 s).pending = s.pending ∧ (noteWrite x0 x1 x2 s).time = s.time ∧ (noteWrite x0 x1 x2 s).boxDie = s.boxDie ∧ (noteWrite x0 x1 x2 s).fuses = s.fuses ∧ (noteWrite x0 x1 x2 s).dram = s.dram ∧ (noteWrite x0 x1 x2 s).ws = s.ws := by
  intros; unfold noteWrite; (repeat' split) <;> simp

@[simp] theorem writeReg_frame_pending :
    ∀ x0 x1 x2 s x4, (writeReg x0 x1 x2 s x4).pending = s.pending := by
  intros; unfold writeReg; split <;> simp

@[simp] theorem writeReg_frame_time :
    ∀ x0 x1 x2 s x4, (writeReg x0 x1 x2 s x4).time = s.time := by
  intros; unfold writeReg; split <;> simp

@[simp] theorem writeReg_frame_boxDie :
    ∀ x0 x1 x2 s x4, (writeReg x0 x1 x2 s x4).boxDie = s.boxDie := by
  intros; unfold writeReg; split <;> simp

@[simp] theorem writeReg_frame_fuses :
    ∀ x0 x1 x2 s x4, (writeReg x0 x1 x2 s x4).fuses = s.fuses := by
  intros; unfold writeReg; split <;> simp

@[simp] theorem writeReg_wf_dram :
    ∀ x0 x1 x2 s x4, Memory.wf s.dram = true → Memory.wf (writeReg x0 x1 x2 s x4).dram = true := by
  intros; unfold writeReg; split <;> simp [*]

@[simp] theorem writeReg_wf_ws :
    ∀ x0 x1 x2 s x4, Memory.wf s.ws = true → Memory.wf (writeReg x0 x1 x2 s x4).ws = true := by
  intros; unfold writeReg; split <;> simp [*]

@[simp] theorem accessWrite_frame_pending :
    ∀ x0 x1 x2 s, (accessWrite x0 x1 x2 s).pending = s.pending := by
  intros; unfold accessWrite; (repeat' split) <;> simp

@[simp] theorem accessWrite_frame_time :
    ∀ x0 x1 x2 s, (accessWrite x0 x1 x2 s).time = s.time := by
  intros; unfold accessWrite; (repeat' split) <;> simp

@[simp] theorem accessWrite_frame_boxDie :
    ∀ x0 x1 x2 s, (accessWrite x0 x1 x2 s).boxDie = s.boxDie := by
  intros; unfold accessWrite; (repeat' split) <;> simp

@[simp] theorem accessWrite_frame_fuses :
    ∀ x0 x1 x2 s, (accessWrite x0 x1 x2 s).fuses = s.fuses := by
  intros; unfold accessWrite; (repeat' split) <;> simp

@[simp] theorem accessWrite_wf_dram :
    ∀ x0 x1 x2 s, Memory.wf s.dram = true → Memory.wf (accessWrite x0 x1 x2 s).dram = true := by
  intros; unfold accessWrite; (repeat' split) <;> simp +contextual [*]

@[simp] theorem accessWrite_wf_ws :
    ∀ x0 x1 x2 s, Memory.wf s.ws = true → Memory.wf (accessWrite x0 x1 x2 s).ws = true := by
  intros; unfold accessWrite; (repeat' split) <;> simp +contextual [*]

@[simp] theorem readRow_frame :
    ∀ x0 x1 s, (readRow x0 x1 s).pending = s.pending ∧ (readRow x0 x1 s).time = s.time ∧ (readRow x0 x1 s).boxDie = s.boxDie ∧ (readRow x0 x1 s).fuses = s.fuses ∧ (readRow x0 x1 s).dram = s.dram ∧ (readRow x0 x1 s).ws = s.ws := by
  intros; simp [readRow]

@[simp] theorem writeRow_frame_pending :
    ∀ x0 x1 x2 s, (writeRow x0 x1 x2 s).pending = s.pending := by
  intros; simp [writeRow]

@[simp] theorem writeRow_frame_time :
    ∀ x0 x1 x2 s, (writeRow x0 x1 x2 s).time = s.time := by
  intros; simp [writeRow]

@[simp] theorem writeRow_frame_boxDie :
    ∀ x0 x1 x2 s, (writeRow x0 x1 x2 s).boxDie = s.boxDie := by
  intros; simp [writeRow]

@[simp] theorem writeRow_frame_fuses :
    ∀ x0 x1 x2 s, (writeRow x0 x1 x2 s).fuses = s.fuses := by
  intros; simp [writeRow]

@[simp] theorem writeRow_wf_dram :
    ∀ x0 x1 x2 s, Memory.wf s.dram = true → Memory.wf (writeRow x0 x1 x2 s).dram = true := by
  intros; unfold writeRow; (repeat' split) <;> simp +contextual [*]

@[simp] theorem writeRow_wf_ws :
    ∀ x0 x1 x2 s, Memory.wf s.ws = true → Memory.wf (writeRow x0 x1 x2 s).ws = true := by
  intros; unfold writeRow; (repeat' split) <;> simp +contextual [*]

@[simp] theorem prompterRead_frame :
    ∀ x0 s, (prompterRead x0 s).pending = s.pending ∧ (prompterRead x0 s).time = s.time ∧ (prompterRead x0 s).boxDie = s.boxDie ∧ (prompterRead x0 s).fuses = s.fuses ∧ (prompterRead x0 s).dram = s.dram ∧ (prompterRead x0 s).ws = s.ws := by
  intros; simp only [prompterRead]; split <;> simp

theorem execRegRead_frame :
    ∀ x0 s t, execRegRead x0 s = .next t → (t).pending = s.pending ∧ (t).time = s.time ∧ (t).boxDie = s.boxDie ∧ (t).fuses = s.fuses ∧ (t).dram = s.dram ∧ (t).ws = s.ws := by
  intros; rename_i h; simp only [execRegRead] at h; (repeat' split at h) <;> (simp only [Host.Outcome.next.injEq, reduceCtorEq] at h) <;> (subst h; simp)

theorem execRegWrite_frame_pending :
    ∀ x0 s t, execRegWrite x0 s = .next t → (t).pending = s.pending := by
  intros; rename_i h; simp only [execRegWrite] at h; (repeat' split at h) <;> (simp only [Host.Outcome.next.injEq, reduceCtorEq] at h) <;> (subst h; simp)

theorem execRegWrite_frame_time :
    ∀ x0 s t, execRegWrite x0 s = .next t → (t).time = s.time := by
  intros; rename_i h; simp only [execRegWrite] at h; (repeat' split at h) <;> (simp only [Host.Outcome.next.injEq, reduceCtorEq] at h) <;> (subst h; simp)

theorem execRegWrite_frame_boxDie :
    ∀ x0 s t, execRegWrite x0 s = .next t → (t).boxDie = s.boxDie := by
  intros; rename_i h; simp only [execRegWrite] at h; (repeat' split at h) <;> (simp only [Host.Outcome.next.injEq, reduceCtorEq] at h) <;> (subst h; simp)

theorem execRegWrite_frame_fuses :
    ∀ x0 s t, execRegWrite x0 s = .next t → (t).fuses = s.fuses := by
  intros; rename_i h; simp only [execRegWrite] at h; (repeat' split at h) <;> (simp only [Host.Outcome.next.injEq, reduceCtorEq] at h) <;> (subst h; simp)

theorem execRegWrite_wf_dram :
    ∀ x0 s t, Memory.wf s.dram = true → execRegWrite x0 s = .next t → Memory.wf (t).dram = true := by
  intros; rename_i hw h; simp only [execRegWrite] at h; (repeat' split at h) <;> (simp only [Host.Outcome.next.injEq, reduceCtorEq] at h) <;> (subst h; simp +contextual [hw])

theorem execRegWrite_wf_ws :
    ∀ x0 s t, Memory.wf s.ws = true → execRegWrite x0 s = .next t → Memory.wf (t).ws = true := by
  intros; rename_i hw h; simp only [execRegWrite] at h; (repeat' split at h) <;> (simp only [Host.Outcome.next.injEq, reduceCtorEq] at h) <;> (subst h; simp +contextual [hw])

theorem execRegisterWrite_frame_pending :
    ∀ x0 x1 x2 s t, execRegisterWrite x0 x1 x2 s = .next t → (t).pending = s.pending := by
  intros; rename_i h; simp only [execRegisterWrite] at h; (repeat' split at h) <;> (simp only [Host.Outcome.next.injEq, reduceCtorEq] at h) <;> (subst h; simp)

theorem execRegisterWrite_frame_time :
    ∀ x0 x1 x2 s t, execRegisterWrite x0 x1 x2 s = .next t → (t).time = s.time := by
  intros; rename_i h; simp only [execRegisterWrite] at h; (repeat' split at h) <;> (simp only [Host.Outcome.next.injEq, reduceCtorEq] at h) <;> (subst h; simp)

theorem execRegisterWrite_frame_boxDie :
    ∀ x0 x1 x2 s t, execRegisterWrite x0 x1 x2 s = .next t → (t).boxDie = s.boxDie := by
  intros; rename_i h; simp only [execRegisterWrite] at h; (repeat' split at h) <;> (simp only [Host.Outcome.next.injEq, reduceCtorEq] at h) <;> (subst h; simp)

theorem execRegisterWrite_frame_fuses :
    ∀ x0 x1 x2 s t, execRegisterWrite x0 x1 x2 s = .next t → (t).fuses = s.fuses := by
  intros; rename_i h; simp only [execRegisterWrite] at h; (repeat' split at h) <;> (simp only [Host.Outcome.next.injEq, reduceCtorEq] at h) <;> (subst h; simp)

theorem execRegisterWrite_wf_dram :
    ∀ x0 x1 x2 s t, Memory.wf s.dram = true → execRegisterWrite x0 x1 x2 s = .next t → Memory.wf (t).dram = true := by
  intros; rename_i hw h; simp only [execRegisterWrite] at h; (repeat' split at h) <;> (simp only [Host.Outcome.next.injEq, reduceCtorEq] at h) <;> (subst h; simp +contextual [hw])

theorem execRegisterWrite_wf_ws :
    ∀ x0 x1 x2 s t, Memory.wf s.ws = true → execRegisterWrite x0 x1 x2 s = .next t → Memory.wf (t).ws = true := by
  intros; rename_i hw h; simp only [execRegisterWrite] at h; (repeat' split at h) <;> (simp only [Host.Outcome.next.injEq, reduceCtorEq] at h) <;> (subst h; simp +contextual [hw])

theorem execEpochArm_frame_pending :
    ∀ x0 x1 s t, execEpochArm x0 x1 s = .next t → (t).pending = s.pending := by
  intros; rename_i h; simp only [execEpochArm] at h; (repeat' split at h) <;> (simp only [Host.Outcome.next.injEq, reduceCtorEq] at h) <;> (subst h; simp)

theorem execEpochArm_frame_time :
    ∀ x0 x1 s t, execEpochArm x0 x1 s = .next t → (t).time = s.time := by
  intros; rename_i h; simp only [execEpochArm] at h; (repeat' split at h) <;> (simp only [Host.Outcome.next.injEq, reduceCtorEq] at h) <;> (subst h; simp)

theorem execEpochArm_frame_boxDie :
    ∀ x0 x1 s t, execEpochArm x0 x1 s = .next t → (t).boxDie = s.boxDie := by
  intros; rename_i h; simp only [execEpochArm] at h; (repeat' split at h) <;> (simp only [Host.Outcome.next.injEq, reduceCtorEq] at h) <;> (subst h; simp)

theorem execEpochArm_frame_fuses :
    ∀ x0 x1 s t, execEpochArm x0 x1 s = .next t → (t).fuses = s.fuses := by
  intros; rename_i h; simp only [execEpochArm] at h; (repeat' split at h) <;> (simp only [Host.Outcome.next.injEq, reduceCtorEq] at h) <;> (subst h; simp)

theorem execEpochArm_wf_dram :
    ∀ x0 x1 s t, Memory.wf s.dram = true → execEpochArm x0 x1 s = .next t → Memory.wf (t).dram = true := by
  intros; rename_i hw h; simp only [execEpochArm] at h; (repeat' split at h) <;> (simp only [Host.Outcome.next.injEq, reduceCtorEq] at h) <;> (subst h; simp +contextual [hw])

theorem execEpochArm_wf_ws :
    ∀ x0 x1 s t, Memory.wf s.ws = true → execEpochArm x0 x1 s = .next t → Memory.wf (t).ws = true := by
  intros; rename_i hw h; simp only [execEpochArm] at h; (repeat' split at h) <;> (simp only [Host.Outcome.next.injEq, reduceCtorEq] at h) <;> (subst h; simp +contextual [hw])

theorem execSwCold_frame_pending :
    ∀ x0 x1 s t, execSwCold x0 x1 s = .next t → (t).pending = s.pending := by
  intros; rename_i h; simp only [execSwCold] at h; (repeat' split at h) <;> (simp only [Host.Outcome.next.injEq, reduceCtorEq] at h) <;> (subst h; simp)

theorem execSwCold_frame_time :
    ∀ x0 x1 s t, execSwCold x0 x1 s = .next t → (t).time = s.time := by
  intros; rename_i h; simp only [execSwCold] at h; (repeat' split at h) <;> (simp only [Host.Outcome.next.injEq, reduceCtorEq] at h) <;> (subst h; simp)

theorem execSwCold_frame_boxDie :
    ∀ x0 x1 s t, execSwCold x0 x1 s = .next t → (t).boxDie = s.boxDie := by
  intros; rename_i h; simp only [execSwCold] at h; (repeat' split at h) <;> (simp only [Host.Outcome.next.injEq, reduceCtorEq] at h) <;> (subst h; simp)

theorem execSwCold_frame_fuses :
    ∀ x0 x1 s t, execSwCold x0 x1 s = .next t → (t).fuses = s.fuses := by
  intros; rename_i h; simp only [execSwCold] at h; (repeat' split at h) <;> (simp only [Host.Outcome.next.injEq, reduceCtorEq] at h) <;> (subst h; simp)

theorem execSwCold_wf_dram :
    ∀ x0 x1 s t, Memory.wf s.dram = true → execSwCold x0 x1 s = .next t → Memory.wf (t).dram = true := by
  intros; rename_i hw h; simp only [execSwCold] at h; (repeat' split at h) <;> (simp only [Host.Outcome.next.injEq, reduceCtorEq] at h) <;> (subst h; simp +contextual [hw])

theorem execSwCold_wf_ws :
    ∀ x0 x1 s t, Memory.wf s.ws = true → execSwCold x0 x1 s = .next t → Memory.wf (t).ws = true := by
  intros; rename_i hw h; simp only [execSwCold] at h; (repeat' split at h) <;> (simp only [Host.Outcome.next.injEq, reduceCtorEq] at h) <;> (subst h; simp +contextual [hw])

theorem execSwWarm_frame_pending :
    ∀ x0 x1 s t, execSwWarm x0 x1 s = .next t → (t).pending = s.pending := by
  intros; rename_i h; simp only [execSwWarm] at h; (repeat' split at h) <;> (simp only [Host.Outcome.next.injEq, reduceCtorEq] at h) <;> (subst h; simp)

theorem execSwWarm_frame_time :
    ∀ x0 x1 s t, execSwWarm x0 x1 s = .next t → (t).time = s.time := by
  intros; rename_i h; simp only [execSwWarm] at h; (repeat' split at h) <;> (simp only [Host.Outcome.next.injEq, reduceCtorEq] at h) <;> (subst h; simp)

theorem execSwWarm_frame_boxDie :
    ∀ x0 x1 s t, execSwWarm x0 x1 s = .next t → (t).boxDie = s.boxDie := by
  intros; rename_i h; simp only [execSwWarm] at h; (repeat' split at h) <;> (simp only [Host.Outcome.next.injEq, reduceCtorEq] at h) <;> (subst h; simp)

theorem execSwWarm_frame_fuses :
    ∀ x0 x1 s t, execSwWarm x0 x1 s = .next t → (t).fuses = s.fuses := by
  intros; rename_i h; simp only [execSwWarm] at h; (repeat' split at h) <;> (simp only [Host.Outcome.next.injEq, reduceCtorEq] at h) <;> (subst h; simp)

theorem execSwWarm_wf_dram :
    ∀ x0 x1 s t, Memory.wf s.dram = true → execSwWarm x0 x1 s = .next t → Memory.wf (t).dram = true := by
  intros; rename_i hw h; simp only [execSwWarm] at h; (repeat' split at h) <;> (simp only [Host.Outcome.next.injEq, reduceCtorEq] at h) <;> (subst h; simp +contextual [hw])

theorem execSwWarm_wf_ws :
    ∀ x0 x1 s t, Memory.wf s.ws = true → execSwWarm x0 x1 s = .next t → Memory.wf (t).ws = true := by
  intros; rename_i hw h; simp only [execSwWarm] at h; (repeat' split at h) <;> (simp only [Host.Outcome.next.injEq, reduceCtorEq] at h) <;> (subst h; simp +contextual [hw])

theorem execRstBlock_frame_pending :
    ∀ x0 x1 s t, execRstBlock x0 x1 s = .next t → (t).pending = s.pending := by
  intros; rename_i h; simp only [execRstBlock] at h; (repeat' split at h) <;> (simp only [Host.Outcome.next.injEq, reduceCtorEq] at h) <;> (subst h; simp)

theorem execRstBlock_frame_time :
    ∀ x0 x1 s t, execRstBlock x0 x1 s = .next t → (t).time = s.time := by
  intros; rename_i h; simp only [execRstBlock] at h; (repeat' split at h) <;> (simp only [Host.Outcome.next.injEq, reduceCtorEq] at h) <;> (subst h; simp)

theorem execRstBlock_frame_boxDie :
    ∀ x0 x1 s t, execRstBlock x0 x1 s = .next t → (t).boxDie = s.boxDie := by
  intros; rename_i h; simp only [execRstBlock] at h; (repeat' split at h) <;> (simp only [Host.Outcome.next.injEq, reduceCtorEq] at h) <;> (subst h; simp)

theorem execRstBlock_frame_fuses :
    ∀ x0 x1 s t, execRstBlock x0 x1 s = .next t → (t).fuses = s.fuses := by
  intros; rename_i h; simp only [execRstBlock] at h; (repeat' split at h) <;> (simp only [Host.Outcome.next.injEq, reduceCtorEq] at h) <;> (subst h; simp)

theorem execRstBlock_wf_dram :
    ∀ x0 x1 s t, Memory.wf s.dram = true → execRstBlock x0 x1 s = .next t → Memory.wf (t).dram = true := by
  intros; rename_i hw h; simp only [execRstBlock] at h; (repeat' split at h) <;> (simp only [Host.Outcome.next.injEq, reduceCtorEq] at h) <;> (subst h; simp +contextual [hw])

theorem execRstBlock_wf_ws :
    ∀ x0 x1 s t, Memory.wf s.ws = true → execRstBlock x0 x1 s = .next t → Memory.wf (t).ws = true := by
  intros; rename_i hw h; simp only [execRstBlock] at h; (repeat' split at h) <;> (simp only [Host.Outcome.next.injEq, reduceCtorEq] at h) <;> (subst h; simp +contextual [hw])

theorem execStateAudit_frame_pending :
    ∀ x0 x1 s t, execStateAudit x0 x1 s = .next t → (t).pending = s.pending := by
  intros; rename_i h; simp only [execStateAudit] at h; (repeat' split at h) <;> (simp only [Host.Outcome.next.injEq, reduceCtorEq] at h) <;> (subst h; simp)

theorem execStateAudit_frame_time :
    ∀ x0 x1 s t, execStateAudit x0 x1 s = .next t → (t).time = s.time := by
  intros; rename_i h; simp only [execStateAudit] at h; (repeat' split at h) <;> (simp only [Host.Outcome.next.injEq, reduceCtorEq] at h) <;> (subst h; simp)

theorem execStateAudit_frame_boxDie :
    ∀ x0 x1 s t, execStateAudit x0 x1 s = .next t → (t).boxDie = s.boxDie := by
  intros; rename_i h; simp only [execStateAudit] at h; (repeat' split at h) <;> (simp only [Host.Outcome.next.injEq, reduceCtorEq] at h) <;> (subst h; simp)

theorem execStateAudit_frame_fuses :
    ∀ x0 x1 s t, execStateAudit x0 x1 s = .next t → (t).fuses = s.fuses := by
  intros; rename_i h; simp only [execStateAudit] at h; (repeat' split at h) <;> (simp only [Host.Outcome.next.injEq, reduceCtorEq] at h) <;> (subst h; simp)

theorem execStateAudit_wf_dram :
    ∀ x0 x1 s t, Memory.wf s.dram = true → execStateAudit x0 x1 s = .next t → Memory.wf (t).dram = true := by
  intros; rename_i hw h; simp only [execStateAudit] at h; (repeat' split at h) <;> (simp only [Host.Outcome.next.injEq, reduceCtorEq] at h) <;> (subst h; simp +contextual [hw])

theorem execStateAudit_wf_ws :
    ∀ x0 x1 s t, Memory.wf s.ws = true → execStateAudit x0 x1 s = .next t → Memory.wf (t).ws = true := by
  intros; rename_i hw h; simp only [execStateAudit] at h; (repeat' split at h) <;> (simp only [Host.Outcome.next.injEq, reduceCtorEq] at h) <;> (subst h; simp +contextual [hw])

theorem execBeat_frame_pending :
    ∀ x0 x1 s t, execBeat x0 x1 s = .next t → (t).pending = s.pending := by
  intros; rename_i h; simp only [execBeat] at h; (repeat' split at h) <;> (simp only [Host.Outcome.next.injEq, reduceCtorEq] at h) <;> (subst h; simp)

theorem execBeat_frame_time :
    ∀ x0 x1 s t, execBeat x0 x1 s = .next t → (t).time = s.time := by
  intros; rename_i h; simp only [execBeat] at h; (repeat' split at h) <;> (simp only [Host.Outcome.next.injEq, reduceCtorEq] at h) <;> (subst h; simp)

theorem execBeat_frame_boxDie :
    ∀ x0 x1 s t, execBeat x0 x1 s = .next t → (t).boxDie = s.boxDie := by
  intros; rename_i h; simp only [execBeat] at h; (repeat' split at h) <;> (simp only [Host.Outcome.next.injEq, reduceCtorEq] at h) <;> (subst h; simp)

theorem execBeat_frame_fuses :
    ∀ x0 x1 s t, execBeat x0 x1 s = .next t → (t).fuses = s.fuses := by
  intros; rename_i h; simp only [execBeat] at h; (repeat' split at h) <;> (simp only [Host.Outcome.next.injEq, reduceCtorEq] at h) <;> (subst h; simp)

theorem execBeat_wf_dram :
    ∀ x0 x1 s t, Memory.wf s.dram = true → execBeat x0 x1 s = .next t → Memory.wf (t).dram = true := by
  intros; rename_i hw h; simp only [execBeat] at h; (repeat' split at h) <;> (simp only [Host.Outcome.next.injEq, reduceCtorEq] at h) <;> (subst h; simp +contextual [hw])

theorem execBeat_wf_ws :
    ∀ x0 x1 s t, Memory.wf s.ws = true → execBeat x0 x1 s = .next t → Memory.wf (t).ws = true := by
  intros; rename_i hw h; simp only [execBeat] at h; (repeat' split at h) <;> (simp only [Host.Outcome.next.injEq, reduceCtorEq] at h) <;> (subst h; simp +contextual [hw])

theorem execFatal_frame_pending :
    ∀ x0 x1 s t, execFatal x0 x1 s = .next t → (t).pending = s.pending := by
  intros; rename_i h; simp only [execFatal] at h; (repeat' split at h) <;> (simp only [Host.Outcome.next.injEq, reduceCtorEq] at h) <;> (subst h; simp)

theorem execFatal_frame_time :
    ∀ x0 x1 s t, execFatal x0 x1 s = .next t → (t).time = s.time := by
  intros; rename_i h; simp only [execFatal] at h; (repeat' split at h) <;> (simp only [Host.Outcome.next.injEq, reduceCtorEq] at h) <;> (subst h; simp)

theorem execFatal_frame_boxDie :
    ∀ x0 x1 s t, execFatal x0 x1 s = .next t → (t).boxDie = s.boxDie := by
  intros; rename_i h; simp only [execFatal] at h; (repeat' split at h) <;> (simp only [Host.Outcome.next.injEq, reduceCtorEq] at h) <;> (subst h; simp)

theorem execFatal_frame_fuses :
    ∀ x0 x1 s t, execFatal x0 x1 s = .next t → (t).fuses = s.fuses := by
  intros; rename_i h; simp only [execFatal] at h; (repeat' split at h) <;> (simp only [Host.Outcome.next.injEq, reduceCtorEq] at h) <;> (subst h; simp)

theorem execFatal_wf_dram :
    ∀ x0 x1 s t, Memory.wf s.dram = true → execFatal x0 x1 s = .next t → Memory.wf (t).dram = true := by
  intros; rename_i hw h; simp only [execFatal] at h; (repeat' split at h) <;> (simp only [Host.Outcome.next.injEq, reduceCtorEq] at h) <;> (subst h; simp +contextual [hw])

theorem execFatal_wf_ws :
    ∀ x0 x1 s t, Memory.wf s.ws = true → execFatal x0 x1 s = .next t → Memory.wf (t).ws = true := by
  intros; rename_i hw h; simp only [execFatal] at h; (repeat' split at h) <;> (simp only [Host.Outcome.next.injEq, reduceCtorEq] at h) <;> (subst h; simp +contextual [hw])

theorem execNmiAck_frame_pending :
    ∀ x0 x1 s t, execNmiAck x0 x1 s = .next t → (t).pending = s.pending := by
  intros; rename_i h; simp only [execNmiAck] at h; (repeat' split at h) <;> (simp only [Host.Outcome.next.injEq, reduceCtorEq] at h) <;> (subst h; simp)

theorem execNmiAck_frame_time :
    ∀ x0 x1 s t, execNmiAck x0 x1 s = .next t → (t).time = s.time := by
  intros; rename_i h; simp only [execNmiAck] at h; (repeat' split at h) <;> (simp only [Host.Outcome.next.injEq, reduceCtorEq] at h) <;> (subst h; simp)

theorem execNmiAck_frame_boxDie :
    ∀ x0 x1 s t, execNmiAck x0 x1 s = .next t → (t).boxDie = s.boxDie := by
  intros; rename_i h; simp only [execNmiAck] at h; (repeat' split at h) <;> (simp only [Host.Outcome.next.injEq, reduceCtorEq] at h) <;> (subst h; simp)

theorem execNmiAck_frame_fuses :
    ∀ x0 x1 s t, execNmiAck x0 x1 s = .next t → (t).fuses = s.fuses := by
  intros; rename_i h; simp only [execNmiAck] at h; (repeat' split at h) <;> (simp only [Host.Outcome.next.injEq, reduceCtorEq] at h) <;> (subst h; simp)

theorem execNmiAck_wf_dram :
    ∀ x0 x1 s t, Memory.wf s.dram = true → execNmiAck x0 x1 s = .next t → Memory.wf (t).dram = true := by
  intros; rename_i hw h; simp only [execNmiAck] at h; (repeat' split at h) <;> (simp only [Host.Outcome.next.injEq, reduceCtorEq] at h) <;> (subst h; simp +contextual [hw])

theorem execNmiAck_wf_ws :
    ∀ x0 x1 s t, Memory.wf s.ws = true → execNmiAck x0 x1 s = .next t → Memory.wf (t).ws = true := by
  intros; rename_i hw h; simp only [execNmiAck] at h; (repeat' split at h) <;> (simp only [Host.Outcome.next.injEq, reduceCtorEq] at h) <;> (subst h; simp +contextual [hw])

theorem execFltSrcCtrl_frame_pending :
    ∀ x0 x1 s t, execFltSrcCtrl x0 x1 s = .next t → (t).pending = s.pending := by
  intros; rename_i h; simp only [execFltSrcCtrl] at h; (repeat' split at h) <;> (simp only [Host.Outcome.next.injEq, reduceCtorEq] at h) <;> (subst h; simp)

theorem execFltSrcCtrl_frame_time :
    ∀ x0 x1 s t, execFltSrcCtrl x0 x1 s = .next t → (t).time = s.time := by
  intros; rename_i h; simp only [execFltSrcCtrl] at h; (repeat' split at h) <;> (simp only [Host.Outcome.next.injEq, reduceCtorEq] at h) <;> (subst h; simp)

theorem execFltSrcCtrl_frame_boxDie :
    ∀ x0 x1 s t, execFltSrcCtrl x0 x1 s = .next t → (t).boxDie = s.boxDie := by
  intros; rename_i h; simp only [execFltSrcCtrl] at h; (repeat' split at h) <;> (simp only [Host.Outcome.next.injEq, reduceCtorEq] at h) <;> (subst h; simp)

theorem execFltSrcCtrl_frame_fuses :
    ∀ x0 x1 s t, execFltSrcCtrl x0 x1 s = .next t → (t).fuses = s.fuses := by
  intros; rename_i h; simp only [execFltSrcCtrl] at h; (repeat' split at h) <;> (simp only [Host.Outcome.next.injEq, reduceCtorEq] at h) <;> (subst h; simp)

theorem execFltSrcCtrl_wf_dram :
    ∀ x0 x1 s t, Memory.wf s.dram = true → execFltSrcCtrl x0 x1 s = .next t → Memory.wf (t).dram = true := by
  intros; rename_i hw h; simp only [execFltSrcCtrl] at h; (repeat' split at h) <;> (simp only [Host.Outcome.next.injEq, reduceCtorEq] at h) <;> (subst h; simp +contextual [hw])

theorem execFltSrcCtrl_wf_ws :
    ∀ x0 x1 s t, Memory.wf s.ws = true → execFltSrcCtrl x0 x1 s = .next t → Memory.wf (t).ws = true := by
  intros; rename_i hw h; simp only [execFltSrcCtrl] at h; (repeat' split at h) <;> (simp only [Host.Outcome.next.injEq, reduceCtorEq] at h) <;> (subst h; simp +contextual [hw])

theorem execSchedShaper_frame_pending :
    ∀ x0 x1 s t, execSchedShaper x0 x1 s = .next t → (t).pending = s.pending := by
  intros; rename_i h; simp only [execSchedShaper] at h; (repeat' split at h) <;> (simp only [Host.Outcome.next.injEq, reduceCtorEq] at h) <;> (subst h; simp)

theorem execSchedShaper_frame_time :
    ∀ x0 x1 s t, execSchedShaper x0 x1 s = .next t → (t).time = s.time := by
  intros; rename_i h; simp only [execSchedShaper] at h; (repeat' split at h) <;> (simp only [Host.Outcome.next.injEq, reduceCtorEq] at h) <;> (subst h; simp)

theorem execSchedShaper_frame_boxDie :
    ∀ x0 x1 s t, execSchedShaper x0 x1 s = .next t → (t).boxDie = s.boxDie := by
  intros; rename_i h; simp only [execSchedShaper] at h; (repeat' split at h) <;> (simp only [Host.Outcome.next.injEq, reduceCtorEq] at h) <;> (subst h; simp)

theorem execSchedShaper_frame_fuses :
    ∀ x0 x1 s t, execSchedShaper x0 x1 s = .next t → (t).fuses = s.fuses := by
  intros; rename_i h; simp only [execSchedShaper] at h; (repeat' split at h) <;> (simp only [Host.Outcome.next.injEq, reduceCtorEq] at h) <;> (subst h; simp)

theorem execSchedShaper_wf_dram :
    ∀ x0 x1 s t, Memory.wf s.dram = true → execSchedShaper x0 x1 s = .next t → Memory.wf (t).dram = true := by
  intros; rename_i hw h; simp only [execSchedShaper] at h; (repeat' split at h) <;> (simp only [Host.Outcome.next.injEq, reduceCtorEq] at h) <;> (subst h; simp +contextual [hw])

theorem execSchedShaper_wf_ws :
    ∀ x0 x1 s t, Memory.wf s.ws = true → execSchedShaper x0 x1 s = .next t → Memory.wf (t).ws = true := by
  intros; rename_i hw h; simp only [execSchedShaper] at h; (repeat' split at h) <;> (simp only [Host.Outcome.next.injEq, reduceCtorEq] at h) <;> (subst h; simp +contextual [hw])

theorem execSchedPolicer_frame_pending :
    ∀ x0 x1 s t, execSchedPolicer x0 x1 s = .next t → (t).pending = s.pending := by
  intros; rename_i h; simp only [execSchedPolicer] at h; (repeat' split at h) <;> (simp only [Host.Outcome.next.injEq, reduceCtorEq] at h) <;> (subst h; simp)

theorem execSchedPolicer_frame_time :
    ∀ x0 x1 s t, execSchedPolicer x0 x1 s = .next t → (t).time = s.time := by
  intros; rename_i h; simp only [execSchedPolicer] at h; (repeat' split at h) <;> (simp only [Host.Outcome.next.injEq, reduceCtorEq] at h) <;> (subst h; simp)

theorem execSchedPolicer_frame_boxDie :
    ∀ x0 x1 s t, execSchedPolicer x0 x1 s = .next t → (t).boxDie = s.boxDie := by
  intros; rename_i h; simp only [execSchedPolicer] at h; (repeat' split at h) <;> (simp only [Host.Outcome.next.injEq, reduceCtorEq] at h) <;> (subst h; simp)

theorem execSchedPolicer_frame_fuses :
    ∀ x0 x1 s t, execSchedPolicer x0 x1 s = .next t → (t).fuses = s.fuses := by
  intros; rename_i h; simp only [execSchedPolicer] at h; (repeat' split at h) <;> (simp only [Host.Outcome.next.injEq, reduceCtorEq] at h) <;> (subst h; simp)

theorem execSchedPolicer_wf_dram :
    ∀ x0 x1 s t, Memory.wf s.dram = true → execSchedPolicer x0 x1 s = .next t → Memory.wf (t).dram = true := by
  intros; rename_i hw h; simp only [execSchedPolicer] at h; (repeat' split at h) <;> (simp only [Host.Outcome.next.injEq, reduceCtorEq] at h) <;> (subst h; simp +contextual [hw])

theorem execSchedPolicer_wf_ws :
    ∀ x0 x1 s t, Memory.wf s.ws = true → execSchedPolicer x0 x1 s = .next t → Memory.wf (t).ws = true := by
  intros; rename_i hw h; simp only [execSchedPolicer] at h; (repeat' split at h) <;> (simp only [Host.Outcome.next.injEq, reduceCtorEq] at h) <;> (subst h; simp +contextual [hw])

theorem execSwcCredit_frame_pending :
    ∀ x0 x1 x2 s t, execSwcCredit x0 x1 x2 s = .next t → (t).pending = s.pending := by
  intros; rename_i h; simp only [execSwcCredit] at h; (repeat' split at h) <;> (simp only [Host.Outcome.next.injEq, reduceCtorEq] at h) <;> (subst h; simp)

theorem execSwcCredit_frame_time :
    ∀ x0 x1 x2 s t, execSwcCredit x0 x1 x2 s = .next t → (t).time = s.time := by
  intros; rename_i h; simp only [execSwcCredit] at h; (repeat' split at h) <;> (simp only [Host.Outcome.next.injEq, reduceCtorEq] at h) <;> (subst h; simp)

theorem execSwcCredit_frame_boxDie :
    ∀ x0 x1 x2 s t, execSwcCredit x0 x1 x2 s = .next t → (t).boxDie = s.boxDie := by
  intros; rename_i h; simp only [execSwcCredit] at h; (repeat' split at h) <;> (simp only [Host.Outcome.next.injEq, reduceCtorEq] at h) <;> (subst h; simp)

theorem execSwcCredit_frame_fuses :
    ∀ x0 x1 x2 s t, execSwcCredit x0 x1 x2 s = .next t → (t).fuses = s.fuses := by
  intros; rename_i h; simp only [execSwcCredit] at h; (repeat' split at h) <;> (simp only [Host.Outcome.next.injEq, reduceCtorEq] at h) <;> (subst h; simp)

theorem execSwcCredit_wf_dram :
    ∀ x0 x1 x2 s t, Memory.wf s.dram = true → execSwcCredit x0 x1 x2 s = .next t → Memory.wf (t).dram = true := by
  intros; rename_i hw h; simp only [execSwcCredit] at h; (repeat' split at h) <;> (simp only [Host.Outcome.next.injEq, reduceCtorEq] at h) <;> (subst h; simp +contextual [hw])

theorem execSwcCredit_wf_ws :
    ∀ x0 x1 x2 s t, Memory.wf s.ws = true → execSwcCredit x0 x1 x2 s = .next t → Memory.wf (t).ws = true := by
  intros; rename_i hw h; simp only [execSwcCredit] at h; (repeat' split at h) <;> (simp only [Host.Outcome.next.injEq, reduceCtorEq] at h) <;> (subst h; simp +contextual [hw])

theorem execLocalRes_frame_pending :
    ∀ x0 x1 s t, execLocalRes x0 x1 s = .next t → (t).pending = s.pending := by
  intros; rename_i h; simp only [execLocalRes] at h; (repeat' split at h) <;> (simp only [Host.Outcome.next.injEq, reduceCtorEq] at h) <;> (subst h; simp)

theorem execLocalRes_frame_time :
    ∀ x0 x1 s t, execLocalRes x0 x1 s = .next t → (t).time = s.time := by
  intros; rename_i h; simp only [execLocalRes] at h; (repeat' split at h) <;> (simp only [Host.Outcome.next.injEq, reduceCtorEq] at h) <;> (subst h; simp)

theorem execLocalRes_frame_boxDie :
    ∀ x0 x1 s t, execLocalRes x0 x1 s = .next t → (t).boxDie = s.boxDie := by
  intros; rename_i h; simp only [execLocalRes] at h; (repeat' split at h) <;> (simp only [Host.Outcome.next.injEq, reduceCtorEq] at h) <;> (subst h; simp)

theorem execLocalRes_frame_fuses :
    ∀ x0 x1 s t, execLocalRes x0 x1 s = .next t → (t).fuses = s.fuses := by
  intros; rename_i h; simp only [execLocalRes] at h; (repeat' split at h) <;> (simp only [Host.Outcome.next.injEq, reduceCtorEq] at h) <;> (subst h; simp)

theorem execLocalRes_wf_dram :
    ∀ x0 x1 s t, Memory.wf s.dram = true → execLocalRes x0 x1 s = .next t → Memory.wf (t).dram = true := by
  intros; rename_i hw h; simp only [execLocalRes] at h; (repeat' split at h) <;> (simp only [Host.Outcome.next.injEq, reduceCtorEq] at h) <;> (subst h; simp +contextual [hw])

theorem execLocalRes_wf_ws :
    ∀ x0 x1 s t, Memory.wf s.ws = true → execLocalRes x0 x1 s = .next t → Memory.wf (t).ws = true := by
  intros; rename_i hw h; simp only [execLocalRes] at h; (repeat' split at h) <;> (simp only [Host.Outcome.next.injEq, reduceCtorEq] at h) <;> (subst h; simp +contextual [hw])

theorem execSwcRtStatic_frame_pending :
    ∀ x0 x1 s t, execSwcRtStatic x0 x1 s = .next t → (t).pending = s.pending := by
  intros; rename_i h; simp only [execSwcRtStatic] at h; (repeat' split at h) <;> (simp only [Host.Outcome.next.injEq, reduceCtorEq] at h) <;> (subst h; simp)

theorem execSwcRtStatic_frame_time :
    ∀ x0 x1 s t, execSwcRtStatic x0 x1 s = .next t → (t).time = s.time := by
  intros; rename_i h; simp only [execSwcRtStatic] at h; (repeat' split at h) <;> (simp only [Host.Outcome.next.injEq, reduceCtorEq] at h) <;> (subst h; simp)

theorem execSwcRtStatic_frame_boxDie :
    ∀ x0 x1 s t, execSwcRtStatic x0 x1 s = .next t → (t).boxDie = s.boxDie := by
  intros; rename_i h; simp only [execSwcRtStatic] at h; (repeat' split at h) <;> (simp only [Host.Outcome.next.injEq, reduceCtorEq] at h) <;> (subst h; simp)

theorem execSwcRtStatic_frame_fuses :
    ∀ x0 x1 s t, execSwcRtStatic x0 x1 s = .next t → (t).fuses = s.fuses := by
  intros; rename_i h; simp only [execSwcRtStatic] at h; (repeat' split at h) <;> (simp only [Host.Outcome.next.injEq, reduceCtorEq] at h) <;> (subst h; simp)

theorem execSwcRtStatic_wf_dram :
    ∀ x0 x1 s t, Memory.wf s.dram = true → execSwcRtStatic x0 x1 s = .next t → Memory.wf (t).dram = true := by
  intros; rename_i hw h; simp only [execSwcRtStatic] at h; (repeat' split at h) <;> (simp only [Host.Outcome.next.injEq, reduceCtorEq] at h) <;> (subst h; simp +contextual [hw])

theorem execSwcRtStatic_wf_ws :
    ∀ x0 x1 s t, Memory.wf s.ws = true → execSwcRtStatic x0 x1 s = .next t → Memory.wf (t).ws = true := by
  intros; rename_i hw h; simp only [execSwcRtStatic] at h; (repeat' split at h) <;> (simp only [Host.Outcome.next.injEq, reduceCtorEq] at h) <;> (subst h; simp +contextual [hw])

theorem execSwcRtSpray_frame_pending :
    ∀ x0 x1 s t, execSwcRtSpray x0 x1 s = .next t → (t).pending = s.pending := by
  intros; rename_i h; simp only [execSwcRtSpray] at h; (repeat' split at h) <;> (simp only [Host.Outcome.next.injEq, reduceCtorEq] at h) <;> (subst h; simp)

theorem execSwcRtSpray_frame_time :
    ∀ x0 x1 s t, execSwcRtSpray x0 x1 s = .next t → (t).time = s.time := by
  intros; rename_i h; simp only [execSwcRtSpray] at h; (repeat' split at h) <;> (simp only [Host.Outcome.next.injEq, reduceCtorEq] at h) <;> (subst h; simp)

theorem execSwcRtSpray_frame_boxDie :
    ∀ x0 x1 s t, execSwcRtSpray x0 x1 s = .next t → (t).boxDie = s.boxDie := by
  intros; rename_i h; simp only [execSwcRtSpray] at h; (repeat' split at h) <;> (simp only [Host.Outcome.next.injEq, reduceCtorEq] at h) <;> (subst h; simp)

theorem execSwcRtSpray_frame_fuses :
    ∀ x0 x1 s t, execSwcRtSpray x0 x1 s = .next t → (t).fuses = s.fuses := by
  intros; rename_i h; simp only [execSwcRtSpray] at h; (repeat' split at h) <;> (simp only [Host.Outcome.next.injEq, reduceCtorEq] at h) <;> (subst h; simp)

theorem execSwcRtSpray_wf_dram :
    ∀ x0 x1 s t, Memory.wf s.dram = true → execSwcRtSpray x0 x1 s = .next t → Memory.wf (t).dram = true := by
  intros; rename_i hw h; simp only [execSwcRtSpray] at h; (repeat' split at h) <;> (simp only [Host.Outcome.next.injEq, reduceCtorEq] at h) <;> (subst h; simp +contextual [hw])

theorem execSwcRtSpray_wf_ws :
    ∀ x0 x1 s t, Memory.wf s.ws = true → execSwcRtSpray x0 x1 s = .next t → Memory.wf (t).ws = true := by
  intros; rename_i hw h; simp only [execSwcRtSpray] at h; (repeat' split at h) <;> (simp only [Host.Outcome.next.injEq, reduceCtorEq] at h) <;> (subst h; simp +contextual [hw])

theorem execLeaveCtrl_frame_pending :
    ∀ x0 x1 s t, execLeaveCtrl x0 x1 s = .next t → (t).pending = s.pending := by
  intros; rename_i h; simp only [execLeaveCtrl] at h; (repeat' split at h) <;> (simp only [Host.Outcome.next.injEq, reduceCtorEq] at h) <;> (subst h; simp)

theorem execLeaveCtrl_frame_time :
    ∀ x0 x1 s t, execLeaveCtrl x0 x1 s = .next t → (t).time = s.time := by
  intros; rename_i h; simp only [execLeaveCtrl] at h; (repeat' split at h) <;> (simp only [Host.Outcome.next.injEq, reduceCtorEq] at h) <;> (subst h; simp)

theorem execLeaveCtrl_frame_boxDie :
    ∀ x0 x1 s t, execLeaveCtrl x0 x1 s = .next t → (t).boxDie = s.boxDie := by
  intros; rename_i h; simp only [execLeaveCtrl] at h; (repeat' split at h) <;> (simp only [Host.Outcome.next.injEq, reduceCtorEq] at h) <;> (subst h; simp)

theorem execLeaveCtrl_frame_fuses :
    ∀ x0 x1 s t, execLeaveCtrl x0 x1 s = .next t → (t).fuses = s.fuses := by
  intros; rename_i h; simp only [execLeaveCtrl] at h; (repeat' split at h) <;> (simp only [Host.Outcome.next.injEq, reduceCtorEq] at h) <;> (subst h; simp)

theorem execLeaveCtrl_wf_dram :
    ∀ x0 x1 s t, Memory.wf s.dram = true → execLeaveCtrl x0 x1 s = .next t → Memory.wf (t).dram = true := by
  intros; rename_i hw h; simp only [execLeaveCtrl] at h; (repeat' split at h) <;> (simp only [Host.Outcome.next.injEq, reduceCtorEq] at h) <;> (subst h; simp +contextual [hw])

theorem execLeaveCtrl_wf_ws :
    ∀ x0 x1 s t, Memory.wf s.ws = true → execLeaveCtrl x0 x1 s = .next t → Memory.wf (t).ws = true := by
  intros; rename_i hw h; simp only [execLeaveCtrl] at h; (repeat' split at h) <;> (simp only [Host.Outcome.next.injEq, reduceCtorEq] at h) <;> (subst h; simp +contextual [hw])

theorem execLanePortCtrl_frame_pending :
    ∀ x0 x1 s t, execLanePortCtrl x0 x1 s = .next t → (t).pending = s.pending := by
  intros; rename_i h; simp only [execLanePortCtrl] at h; (repeat' split at h) <;> (simp only [Host.Outcome.next.injEq, reduceCtorEq] at h) <;> (subst h; simp)

theorem execLanePortCtrl_frame_time :
    ∀ x0 x1 s t, execLanePortCtrl x0 x1 s = .next t → (t).time = s.time := by
  intros; rename_i h; simp only [execLanePortCtrl] at h; (repeat' split at h) <;> (simp only [Host.Outcome.next.injEq, reduceCtorEq] at h) <;> (subst h; simp)

theorem execLanePortCtrl_frame_boxDie :
    ∀ x0 x1 s t, execLanePortCtrl x0 x1 s = .next t → (t).boxDie = s.boxDie := by
  intros; rename_i h; simp only [execLanePortCtrl] at h; (repeat' split at h) <;> (simp only [Host.Outcome.next.injEq, reduceCtorEq] at h) <;> (subst h; simp)

theorem execLanePortCtrl_frame_fuses :
    ∀ x0 x1 s t, execLanePortCtrl x0 x1 s = .next t → (t).fuses = s.fuses := by
  intros; rename_i h; simp only [execLanePortCtrl] at h; (repeat' split at h) <;> (simp only [Host.Outcome.next.injEq, reduceCtorEq] at h) <;> (subst h; simp)

theorem execLanePortCtrl_wf_dram :
    ∀ x0 x1 s t, Memory.wf s.dram = true → execLanePortCtrl x0 x1 s = .next t → Memory.wf (t).dram = true := by
  intros; rename_i hw h; simp only [execLanePortCtrl] at h; (repeat' split at h) <;> (simp only [Host.Outcome.next.injEq, reduceCtorEq] at h) <;> (subst h; simp +contextual [hw])

theorem execLanePortCtrl_wf_ws :
    ∀ x0 x1 s t, Memory.wf s.ws = true → execLanePortCtrl x0 x1 s = .next t → Memory.wf (t).ws = true := by
  intros; rename_i hw h; simp only [execLanePortCtrl] at h; (repeat' split at h) <;> (simp only [Host.Outcome.next.injEq, reduceCtorEq] at h) <;> (subst h; simp +contextual [hw])

theorem execOutrCtrl_frame_pending :
    ∀ x0 x1 s t, execOutrCtrl x0 x1 s = .next t → (t).pending = s.pending := by
  intros; rename_i h; simp only [execOutrCtrl] at h; (repeat' split at h) <;> (simp only [Host.Outcome.next.injEq, reduceCtorEq] at h) <;> (subst h; simp)

theorem execOutrCtrl_frame_time :
    ∀ x0 x1 s t, execOutrCtrl x0 x1 s = .next t → (t).time = s.time := by
  intros; rename_i h; simp only [execOutrCtrl] at h; (repeat' split at h) <;> (simp only [Host.Outcome.next.injEq, reduceCtorEq] at h) <;> (subst h; simp)

theorem execOutrCtrl_frame_boxDie :
    ∀ x0 x1 s t, execOutrCtrl x0 x1 s = .next t → (t).boxDie = s.boxDie := by
  intros; rename_i h; simp only [execOutrCtrl] at h; (repeat' split at h) <;> (simp only [Host.Outcome.next.injEq, reduceCtorEq] at h) <;> (subst h; simp)

theorem execOutrCtrl_frame_fuses :
    ∀ x0 x1 s t, execOutrCtrl x0 x1 s = .next t → (t).fuses = s.fuses := by
  intros; rename_i h; simp only [execOutrCtrl] at h; (repeat' split at h) <;> (simp only [Host.Outcome.next.injEq, reduceCtorEq] at h) <;> (subst h; simp)

theorem execOutrCtrl_wf_dram :
    ∀ x0 x1 s t, Memory.wf s.dram = true → execOutrCtrl x0 x1 s = .next t → Memory.wf (t).dram = true := by
  intros; rename_i hw h; simp only [execOutrCtrl] at h; (repeat' split at h) <;> (simp only [Host.Outcome.next.injEq, reduceCtorEq] at h) <;> (subst h; simp +contextual [hw])

theorem execOutrCtrl_wf_ws :
    ∀ x0 x1 s t, Memory.wf s.ws = true → execOutrCtrl x0 x1 s = .next t → Memory.wf (t).ws = true := by
  intros; rename_i hw h; simp only [execOutrCtrl] at h; (repeat' split at h) <;> (simp only [Host.Outcome.next.injEq, reduceCtorEq] at h) <;> (subst h; simp +contextual [hw])

theorem execWdrOvfCount_frame :
    ∀ x0 s t, execWdrOvfCount x0 s = .next t → (t).pending = s.pending ∧ (t).time = s.time ∧ (t).boxDie = s.boxDie ∧ (t).fuses = s.fuses ∧ (t).dram = s.dram ∧ (t).ws = s.ws := by
  intros; rename_i h; simp only [execWdrOvfCount] at h; (repeat' split at h) <;> (simp only [Host.Outcome.next.injEq, reduceCtorEq] at h) <;> (subst h; simp)

theorem execWdrVoidCount_frame :
    ∀ x0 s t, execWdrVoidCount x0 s = .next t → (t).pending = s.pending ∧ (t).time = s.time ∧ (t).boxDie = s.boxDie ∧ (t).fuses = s.fuses ∧ (t).dram = s.dram ∧ (t).ws = s.ws := by
  intros; rename_i h; simp only [execWdrVoidCount] at h; (repeat' split at h) <;> (simp only [Host.Outcome.next.injEq, reduceCtorEq] at h) <;> (subst h; simp)

theorem execHarnSpillCount_frame :
    ∀ x0 s t, execHarnSpillCount x0 s = .next t → (t).pending = s.pending ∧ (t).time = s.time ∧ (t).boxDie = s.boxDie ∧ (t).fuses = s.fuses ∧ (t).dram = s.dram ∧ (t).ws = s.ws := by
  intros; rename_i h; simp only [execHarnSpillCount] at h; (repeat' split at h) <;> (simp only [Host.Outcome.next.injEq, reduceCtorEq] at h) <;> (subst h; simp)

theorem execHarnMbrCnt_frame :
    ∀ x0 s t, execHarnMbrCnt x0 s = .next t → (t).pending = s.pending ∧ (t).time = s.time ∧ (t).boxDie = s.boxDie ∧ (t).fuses = s.fuses ∧ (t).dram = s.dram ∧ (t).ws = s.ws := by
  intros; rename_i h; simp only [execHarnMbrCnt] at h; (repeat' split at h) <;> (simp only [Host.Outcome.next.injEq, reduceCtorEq] at h) <;> (subst h; simp)

theorem execOutrEvents_frame :
    ∀ x0 s t, execOutrEvents x0 s = .next t → (t).pending = s.pending ∧ (t).time = s.time ∧ (t).boxDie = s.boxDie ∧ (t).fuses = s.fuses ∧ (t).dram = s.dram ∧ (t).ws = s.ws := by
  intros; rename_i h; simp only [execOutrEvents] at h; (repeat' split at h) <;> (simp only [Host.Outcome.next.injEq, reduceCtorEq] at h) <;> (subst h; simp)

theorem execLaneErrCount_frame :
    ∀ x0 s t, execLaneErrCount x0 s = .next t → (t).pending = s.pending ∧ (t).time = s.time ∧ (t).boxDie = s.boxDie ∧ (t).fuses = s.fuses ∧ (t).dram = s.dram ∧ (t).ws = s.ws := by
  intros; rename_i h; simp only [execLaneErrCount] at h; (repeat' split at h) <;> (simp only [Host.Outcome.next.injEq, reduceCtorEq] at h) <;> (subst h; simp)

theorem execLinkErrCount_frame :
    ∀ x0 s t, execLinkErrCount x0 s = .next t → (t).pending = s.pending ∧ (t).time = s.time ∧ (t).boxDie = s.boxDie ∧ (t).fuses = s.fuses ∧ (t).dram = s.dram ∧ (t).ws = s.ws := by
  intros; rename_i h; simp only [execLinkErrCount] at h; (repeat' split at h) <;> (simp only [Host.Outcome.next.injEq, reduceCtorEq] at h) <;> (subst h; simp)

theorem execSwcDropCount_frame :
    ∀ x0 s t, execSwcDropCount x0 s = .next t → (t).pending = s.pending ∧ (t).time = s.time ∧ (t).boxDie = s.boxDie ∧ (t).fuses = s.fuses ∧ (t).dram = s.dram ∧ (t).ws = s.ws := by
  intros; rename_i h; simp only [execSwcDropCount] at h; (repeat' split at h) <;> (simp only [Host.Outcome.next.injEq, reduceCtorEq] at h) <;> (subst h; simp)

theorem execSchedQstat_frame :
    ∀ x0 s t, execSchedQstat x0 s = .next t → (t).pending = s.pending ∧ (t).time = s.time ∧ (t).boxDie = s.boxDie ∧ (t).fuses = s.fuses ∧ (t).dram = s.dram ∧ (t).ws = s.ws := by
  intros; rename_i h; simp only [execSchedQstat] at h; (repeat' split at h) <;> (simp only [Host.Outcome.next.injEq, reduceCtorEq] at h) <;> (subst h; simp)

theorem execMbxDropCount_frame :
    ∀ x0 s t, execMbxDropCount x0 s = .next t → (t).pending = s.pending ∧ (t).time = s.time ∧ (t).boxDie = s.boxDie ∧ (t).fuses = s.fuses ∧ (t).dram = s.dram ∧ (t).ws = s.ws := by
  intros; rename_i h; simp only [execMbxDropCount] at h; (repeat' split at h) <;> (simp only [Host.Outcome.next.injEq, reduceCtorEq] at h) <;> (subst h; simp)

theorem execMbxViol_frame :
    ∀ x0 s t, execMbxViol x0 s = .next t → (t).pending = s.pending ∧ (t).time = s.time ∧ (t).boxDie = s.boxDie ∧ (t).fuses = s.fuses ∧ (t).dram = s.dram ∧ (t).ws = s.ws := by
  intros; rename_i h; simp only [execMbxViol] at h; (repeat' split at h) <;> (simp only [Host.Outcome.next.injEq, reduceCtorEq] at h) <;> (subst h; simp)

/-! ### FaultRows -/

theorem execHeartbeatTimeout_frame :
    ∀ s t, execHeartbeatTimeout s = .next t → (t).pending = s.pending ∧ (t).time = s.time ∧ (t).boxDie = s.boxDie ∧ (t).fuses = s.fuses ∧ (t).dram = s.dram ∧ (t).ws = s.ws := by
  intros; rename_i h; simp only [execHeartbeatTimeout] at h; (repeat' split at h) <;> (simp only [Host.Outcome.next.injEq, reduceCtorEq] at h) <;> (subst h; simp)

theorem execBootTimeout_frame :
    ∀ s t, execBootTimeout s = .next t → (t).pending = s.pending ∧ (t).time = s.time ∧ (t).boxDie = s.boxDie ∧ (t).fuses = s.fuses ∧ (t).dram = s.dram ∧ (t).ws = s.ws := by
  intros; rename_i h; simp only [execBootTimeout] at h; (repeat' split at h) <;> (simp only [Host.Outcome.next.injEq, reduceCtorEq] at h) <;> (subst h; simp)

theorem execNmiTimeout_frame :
    ∀ s t, execNmiTimeout s = .next t → (t).pending = s.pending ∧ (t).time = s.time ∧ (t).boxDie = s.boxDie ∧ (t).fuses = s.fuses ∧ (t).dram = s.dram ∧ (t).ws = s.ws := by
  intros; rename_i h; simp only [execNmiTimeout] at h; (repeat' split at h) <;> (simp only [Host.Outcome.next.injEq, reduceCtorEq] at h) <;> (subst h; simp)

theorem execRestartRelease_frame :
    ∀ s t, execRestartRelease s = .next t → (t).pending = s.pending ∧ (t).time = s.time ∧ (t).boxDie = s.boxDie ∧ (t).fuses = s.fuses ∧ (t).dram = s.dram ∧ (t).ws = s.ws := by
  intros; rename_i h; simp only [execRestartRelease] at h; (repeat' split at h) <;> (simp only [Host.Outcome.next.injEq, reduceCtorEq] at h) <;> (subst h; simp)

theorem execAliveToggle_frame :
    ∀ s t, execAliveToggle s = .next t → (t).pending = s.pending ∧ (t).time = s.time ∧ (t).boxDie = s.boxDie ∧ (t).fuses = s.fuses ∧ (t).dram = s.dram ∧ (t).ws = s.ws := by
  intros; rename_i h; simp only [execAliveToggle] at h; (repeat' split at h) <;> (simp only [Host.Outcome.next.injEq, reduceCtorEq] at h) <;> (subst h; simp)

theorem execFaultRaise_frame_pending :
    ∀ x0 s t, execFaultRaise x0 s = .next t → (t).pending = s.pending := by
  intros; rename_i h; simp only [execFaultRaise] at h; (repeat' split at h) <;> (simp only [Host.Outcome.next.injEq, reduceCtorEq] at h) <;> (subst h; simp)

theorem execFaultRaise_frame_time :
    ∀ x0 s t, execFaultRaise x0 s = .next t → (t).time = s.time := by
  intros; rename_i h; simp only [execFaultRaise] at h; (repeat' split at h) <;> (simp only [Host.Outcome.next.injEq, reduceCtorEq] at h) <;> (subst h; simp)

theorem execFaultRaise_frame_boxDie :
    ∀ x0 s t, execFaultRaise x0 s = .next t → (t).boxDie = s.boxDie := by
  intros; rename_i h; simp only [execFaultRaise] at h; (repeat' split at h) <;> (simp only [Host.Outcome.next.injEq, reduceCtorEq] at h) <;> (subst h; simp)

theorem execFaultRaise_frame_fuses :
    ∀ x0 s t, execFaultRaise x0 s = .next t → (t).fuses = s.fuses := by
  intros; rename_i h; simp only [execFaultRaise] at h; (repeat' split at h) <;> (simp only [Host.Outcome.next.injEq, reduceCtorEq] at h) <;> (subst h; simp)

theorem execFaultRaise_wf_dram :
    ∀ x0 s t, Memory.wf s.dram = true → execFaultRaise x0 s = .next t → Memory.wf (t).dram = true := by
  intros; rename_i hw h; simp only [execFaultRaise] at h; (repeat' split at h) <;> (simp only [Host.Outcome.next.injEq, reduceCtorEq] at h) <;> (subst h; simp +contextual [hw])

theorem execFaultRaise_wf_ws :
    ∀ x0 s t, Memory.wf s.ws = true → execFaultRaise x0 s = .next t → Memory.wf (t).ws = true := by
  intros; rename_i hw h; simp only [execFaultRaise] at h; (repeat' split at h) <;> (simp only [Host.Outcome.next.injEq, reduceCtorEq] at h) <;> (subst h; simp +contextual [hw])

@[simp] theorem railBack_frame :
    ∀ x0 s, (railBack x0 s).pending = s.pending ∧ (railBack x0 s).time = s.time ∧ (railBack x0 s).boxDie = s.boxDie ∧ (railBack x0 s).fuses = s.fuses ∧ (railBack x0 s).dram = s.dram ∧ (railBack x0 s).ws = s.ws := by
  intros; simp [railBack]

theorem execSupplyExcursion_frame_pending :
    ∀ x0 s t, execSupplyExcursion x0 s = .next t → (t).pending = s.pending := by
  intros; rename_i h; simp only [execSupplyExcursion] at h; (repeat' split at h) <;> (simp only [Host.Outcome.next.injEq, reduceCtorEq] at h) <;> (subst h; simp)

theorem execSupplyExcursion_frame_time :
    ∀ x0 s t, execSupplyExcursion x0 s = .next t → (t).time = s.time := by
  intros; rename_i h; simp only [execSupplyExcursion] at h; (repeat' split at h) <;> (simp only [Host.Outcome.next.injEq, reduceCtorEq] at h) <;> (subst h; simp)

theorem execSupplyExcursion_frame_boxDie :
    ∀ x0 s t, execSupplyExcursion x0 s = .next t → (t).boxDie = s.boxDie := by
  intros; rename_i h; simp only [execSupplyExcursion] at h; (repeat' split at h) <;> (simp only [Host.Outcome.next.injEq, reduceCtorEq] at h) <;> (subst h; simp)

theorem execSupplyExcursion_frame_fuses :
    ∀ x0 s t, execSupplyExcursion x0 s = .next t → (t).fuses = s.fuses := by
  intros; rename_i h; simp only [execSupplyExcursion] at h; (repeat' split at h) <;> (simp only [Host.Outcome.next.injEq, reduceCtorEq] at h) <;> (subst h; simp)

theorem execSupplyExcursion_wf_dram :
    ∀ x0 s t, Memory.wf s.dram = true → execSupplyExcursion x0 s = .next t → Memory.wf (t).dram = true := by
  intros; rename_i hw h; simp only [execSupplyExcursion] at h; (repeat' split at h) <;> (simp only [Host.Outcome.next.injEq, reduceCtorEq] at h) <;> (subst h; simp +contextual [hw])

theorem execSupplyExcursion_wf_ws :
    ∀ x0 s t, Memory.wf s.ws = true → execSupplyExcursion x0 s = .next t → Memory.wf (t).ws = true := by
  intros; rename_i hw h; simp only [execSupplyExcursion] at h; (repeat' split at h) <;> (simp only [Host.Outcome.next.injEq, reduceCtorEq] at h) <;> (subst h; simp +contextual [hw])

theorem execThermalThreshold_frame_pending :
    ∀ x0 s t, execThermalThreshold x0 s = .next t → (t).pending = s.pending := by
  intros; rename_i h; simp only [execThermalThreshold] at h; (repeat' split at h) <;> (simp only [Host.Outcome.next.injEq, reduceCtorEq] at h) <;> (subst h; simp)

theorem execThermalThreshold_frame_time :
    ∀ x0 s t, execThermalThreshold x0 s = .next t → (t).time = s.time := by
  intros; rename_i h; simp only [execThermalThreshold] at h; (repeat' split at h) <;> (simp only [Host.Outcome.next.injEq, reduceCtorEq] at h) <;> (subst h; simp)

theorem execThermalThreshold_frame_boxDie :
    ∀ x0 s t, execThermalThreshold x0 s = .next t → (t).boxDie = s.boxDie := by
  intros; rename_i h; simp only [execThermalThreshold] at h; (repeat' split at h) <;> (simp only [Host.Outcome.next.injEq, reduceCtorEq] at h) <;> (subst h; simp)

theorem execThermalThreshold_frame_fuses :
    ∀ x0 s t, execThermalThreshold x0 s = .next t → (t).fuses = s.fuses := by
  intros; rename_i h; simp only [execThermalThreshold] at h; (repeat' split at h) <;> (simp only [Host.Outcome.next.injEq, reduceCtorEq] at h) <;> (subst h; simp)

theorem execThermalThreshold_wf_dram :
    ∀ x0 s t, Memory.wf s.dram = true → execThermalThreshold x0 s = .next t → Memory.wf (t).dram = true := by
  intros; rename_i hw h; simp only [execThermalThreshold] at h; (repeat' split at h) <;> (simp only [Host.Outcome.next.injEq, reduceCtorEq] at h) <;> (subst h; simp +contextual [hw])

theorem execThermalThreshold_wf_ws :
    ∀ x0 s t, Memory.wf s.ws = true → execThermalThreshold x0 s = .next t → Memory.wf (t).ws = true := by
  intros; rename_i hw h; simp only [execThermalThreshold] at h; (repeat' split at h) <;> (simp only [Host.Outcome.next.injEq, reduceCtorEq] at h) <;> (subst h; simp +contextual [hw])

theorem execBlockResetEnd_frame :
    ∀ s t, execBlockResetEnd s = .next t → (t).pending = s.pending ∧ (t).time = s.time ∧ (t).boxDie = s.boxDie ∧ (t).fuses = s.fuses ∧ (t).dram = s.dram ∧ (t).ws = s.ws := by
  intros; rename_i h; simp only [execBlockResetEnd] at h; (repeat' split at h) <;> (simp only [Host.Outcome.next.injEq, reduceCtorEq] at h) <;> (subst h; simp)

theorem execReactionComplete_frame :
    ∀ x0 s t, execReactionComplete x0 s = .next t → (t).pending = s.pending ∧ (t).time = s.time ∧ (t).boxDie = s.boxDie ∧ (t).fuses = s.fuses ∧ (t).dram = s.dram ∧ (t).ws = s.ws := by
  intros; rename_i h; simp only [execReactionComplete] at h; (repeat' split at h) <;> (simp only [Host.Outcome.next.injEq, reduceCtorEq] at h) <;> (subst h; simp)

theorem execConditionGone_frame :
    ∀ x0 s t, execConditionGone x0 s = .next t → (t).pending = s.pending ∧ (t).time = s.time ∧ (t).boxDie = s.boxDie ∧ (t).fuses = s.fuses ∧ (t).dram = s.dram ∧ (t).ws = s.ws := by
  intros; rename_i h; simp only [execConditionGone] at h; (repeat' split at h) <;> (simp only [Host.Outcome.next.injEq, reduceCtorEq] at h) <;> (subst h; simp)

@[simp] theorem releaseFences_frame :
    ∀ x0 s, (releaseFences x0 s).pending = s.pending ∧ (releaseFences x0 s).time = s.time ∧ (releaseFences x0 s).boxDie = s.boxDie ∧ (releaseFences x0 s).fuses = s.fuses ∧ (releaseFences x0 s).dram = s.dram ∧ (releaseFences x0 s).ws = s.ws := by
  intros; simp [releaseFences]

@[simp] theorem clearedEvent_frame :
    ∀ x0 x1 x2 s, (clearedEvent x0 x1 x2 s).pending = s.pending ∧ (clearedEvent x0 x1 x2 s).time = s.time ∧ (clearedEvent x0 x1 x2 s).boxDie = s.boxDie ∧ (clearedEvent x0 x1 x2 s).fuses = s.fuses ∧ (clearedEvent x0 x1 x2 s).dram = s.dram ∧ (clearedEvent x0 x1 x2 s).ws = s.ws := by
  intros; simp [clearedEvent]

@[simp] theorem toOk_frame :
    ∀ x0 s, (toOk x0 s).pending = s.pending ∧ (toOk x0 s).time = s.time ∧ (toOk x0 s).boxDie = s.boxDie ∧ (toOk x0 s).fuses = s.fuses ∧ (toOk x0 s).dram = s.dram ∧ (toOk x0 s).ws = s.ws := by
  intros; simp [toOk]

theorem execQuietExpiry_frame :
    ∀ x0 s t, execQuietExpiry x0 s = .next t → (t).pending = s.pending ∧ (t).time = s.time ∧ (t).boxDie = s.boxDie ∧ (t).fuses = s.fuses ∧ (t).dram = s.dram ∧ (t).ws = s.ws := by
  intros; rename_i h; simp only [execQuietExpiry] at h; (repeat' split at h) <;> (simp only [Host.Outcome.next.injEq, reduceCtorEq] at h) <;> (subst h; simp)

theorem execLogDrain_frame_pending :
    ∀ s t, execLogDrain s = .next t → (t).pending = s.pending := by
  intros; rename_i h; simp only [execLogDrain] at h; (repeat' split at h) <;> (simp only [Host.Outcome.next.injEq, reduceCtorEq] at h) <;> (subst h; simp)

theorem execLogDrain_frame_time :
    ∀ s t, execLogDrain s = .next t → (t).time = s.time := by
  intros; rename_i h; simp only [execLogDrain] at h; (repeat' split at h) <;> (simp only [Host.Outcome.next.injEq, reduceCtorEq] at h) <;> (subst h; simp)

theorem execLogDrain_frame_boxDie :
    ∀ s t, execLogDrain s = .next t → (t).boxDie = s.boxDie := by
  intros; rename_i h; simp only [execLogDrain] at h; (repeat' split at h) <;> (simp only [Host.Outcome.next.injEq, reduceCtorEq] at h) <;> (subst h; simp)

theorem execLogDrain_frame_fuses :
    ∀ s t, execLogDrain s = .next t → (t).fuses = s.fuses := by
  intros; rename_i h; simp only [execLogDrain] at h; (repeat' split at h) <;> (simp only [Host.Outcome.next.injEq, reduceCtorEq] at h) <;> (subst h; simp)

theorem execLogDrain_wf_dram :
    ∀ s t, Memory.wf s.dram = true → execLogDrain s = .next t → Memory.wf (t).dram = true := by
  intros; rename_i hw h; simp only [execLogDrain] at h; (repeat' split at h) <;> (simp only [Host.Outcome.next.injEq, reduceCtorEq] at h) <;> (subst h; simp +contextual [hw])

theorem execLogDrain_frame_ws :
    ∀ s t, execLogDrain s = .next t → (t).ws = s.ws := by
  intros; rename_i h; simp only [execLogDrain] at h; (repeat' split at h) <;> (simp only [Host.Outcome.next.injEq, reduceCtorEq] at h) <;> (subst h; simp)

theorem execFaultInfo_frame :
    ∀ x0 s t, execFaultInfo x0 s = .next t → (t).pending = s.pending ∧ (t).time = s.time ∧ (t).boxDie = s.boxDie ∧ (t).fuses = s.fuses ∧ (t).dram = s.dram ∧ (t).ws = s.ws := by
  intros; rename_i h; simp only [execFaultInfo] at h; (repeat' split at h) <;> (simp only [Host.Outcome.next.injEq, reduceCtorEq] at h) <;> (subst h; simp)

theorem execFaultReact_frame :
    ∀ x0 s t, execFaultReact x0 s = .next t → (t).pending = s.pending ∧ (t).time = s.time ∧ (t).boxDie = s.boxDie ∧ (t).fuses = s.fuses ∧ (t).dram = s.dram ∧ (t).ws = s.ws := by
  intros; rename_i h; simp only [execFaultReact] at h; (repeat' split at h) <;> (simp only [Host.Outcome.next.injEq, reduceCtorEq] at h) <;> (subst h; simp)

theorem execFaultInject_frame_pending :
    ∀ x0 s t, execFaultInject x0 s = .next t → (t).pending = s.pending := by
  intros; rename_i h; simp only [execFaultInject] at h; (repeat' split at h) <;> (simp only [Host.Outcome.next.injEq, reduceCtorEq] at h) <;> (subst h; simp)

theorem execFaultInject_frame_time :
    ∀ x0 s t, execFaultInject x0 s = .next t → (t).time = s.time := by
  intros; rename_i h; simp only [execFaultInject] at h; (repeat' split at h) <;> (simp only [Host.Outcome.next.injEq, reduceCtorEq] at h) <;> (subst h; simp)

theorem execFaultInject_frame_boxDie :
    ∀ x0 s t, execFaultInject x0 s = .next t → (t).boxDie = s.boxDie := by
  intros; rename_i h; simp only [execFaultInject] at h; (repeat' split at h) <;> (simp only [Host.Outcome.next.injEq, reduceCtorEq] at h) <;> (subst h; simp)

theorem execFaultInject_frame_fuses :
    ∀ x0 s t, execFaultInject x0 s = .next t → (t).fuses = s.fuses := by
  intros; rename_i h; simp only [execFaultInject] at h; (repeat' split at h) <;> (simp only [Host.Outcome.next.injEq, reduceCtorEq] at h) <;> (subst h; simp)

theorem execFaultInject_wf_dram :
    ∀ x0 s t, Memory.wf s.dram = true → execFaultInject x0 s = .next t → Memory.wf (t).dram = true := by
  intros; rename_i hw h; simp only [execFaultInject] at h; (repeat' split at h) <;> (simp only [Host.Outcome.next.injEq, reduceCtorEq] at h) <;> (subst h; simp +contextual [hw])

theorem execFaultInject_wf_ws :
    ∀ x0 s t, Memory.wf s.ws = true → execFaultInject x0 s = .next t → Memory.wf (t).ws = true := by
  intros; rename_i hw h; simp only [execFaultInject] at h; (repeat' split at h) <;> (simp only [Host.Outcome.next.injEq, reduceCtorEq] at h) <;> (subst h; simp +contextual [hw])

/-! ### Lanes -/

theorem execSuperframeReceived_frame_pending :
    ∀ x0 x1 s t, execSuperframeReceived x0 x1 s = .next t → (t).pending = s.pending := by
  intros; rename_i h; simp only [execSuperframeReceived] at h; (repeat' split at h) <;> (simp only [Host.Outcome.next.injEq, reduceCtorEq] at h) <;> (subst h; simp)

theorem execSuperframeReceived_frame_time :
    ∀ x0 x1 s t, execSuperframeReceived x0 x1 s = .next t → (t).time = s.time := by
  intros; rename_i h; simp only [execSuperframeReceived] at h; (repeat' split at h) <;> (simp only [Host.Outcome.next.injEq, reduceCtorEq] at h) <;> (subst h; simp)

theorem execSuperframeReceived_frame_boxDie :
    ∀ x0 x1 s t, execSuperframeReceived x0 x1 s = .next t → (t).boxDie = s.boxDie := by
  intros; rename_i h; simp only [execSuperframeReceived] at h; (repeat' split at h) <;> (simp only [Host.Outcome.next.injEq, reduceCtorEq] at h) <;> (subst h; simp)

theorem execSuperframeReceived_frame_fuses :
    ∀ x0 x1 s t, execSuperframeReceived x0 x1 s = .next t → (t).fuses = s.fuses := by
  intros; rename_i h; simp only [execSuperframeReceived] at h; (repeat' split at h) <;> (simp only [Host.Outcome.next.injEq, reduceCtorEq] at h) <;> (subst h; simp)

theorem execSuperframeReceived_wf_dram :
    ∀ x0 x1 s t, Memory.wf s.dram = true → execSuperframeReceived x0 x1 s = .next t → Memory.wf (t).dram = true := by
  intros; rename_i hw h; simp only [execSuperframeReceived] at h; (repeat' split at h) <;> (simp only [Host.Outcome.next.injEq, reduceCtorEq] at h) <;> (subst h; simp +contextual [hw])

theorem execSuperframeReceived_wf_ws :
    ∀ x0 x1 s t, Memory.wf s.ws = true → execSuperframeReceived x0 x1 s = .next t → Memory.wf (t).ws = true := by
  intros; rename_i hw h; simp only [execSuperframeReceived] at h; (repeat' split at h) <;> (simp only [Host.Outcome.next.injEq, reduceCtorEq] at h) <;> (subst h; simp +contextual [hw])

theorem execLaneLocked_frame :
    ∀ x0 x1 x2 s t, execLaneLocked x0 x1 x2 s = .next t → (t).pending = s.pending ∧ (t).time = s.time ∧ (t).boxDie = s.boxDie ∧ (t).fuses = s.fuses ∧ (t).dram = s.dram ∧ (t).ws = s.ws := by
  intros; rename_i h; simp only [execLaneLocked] at h; (repeat' split at h) <;> (simp only [Host.Outcome.next.injEq, reduceCtorEq] at h) <;> (subst h; simp)

theorem execLaneMarked_frame :
    ∀ x0 x1 x2 x3 x4 s t, execLaneMarked x0 x1 x2 x3 x4 s = .next t → (t).pending = s.pending ∧ (t).time = s.time ∧ (t).boxDie = s.boxDie ∧ (t).fuses = s.fuses ∧ (t).dram = s.dram ∧ (t).ws = s.ws := by
  intros; rename_i h; simp only [execLaneMarked] at h; (repeat' split at h) <;> (simp only [Host.Outcome.next.injEq, reduceCtorEq] at h) <;> (subst h; simp)

theorem execBlockLoss_frame_pending :
    ∀ x0 x1 s t, execBlockLoss x0 x1 s = .next t → (t).pending = s.pending := by
  intros; rename_i h; simp only [execBlockLoss] at h; (repeat' split at h) <;> (simp only [Host.Outcome.next.injEq, reduceCtorEq] at h) <;> (subst h; simp)

theorem execBlockLoss_frame_time :
    ∀ x0 x1 s t, execBlockLoss x0 x1 s = .next t → (t).time = s.time := by
  intros; rename_i h; simp only [execBlockLoss] at h; (repeat' split at h) <;> (simp only [Host.Outcome.next.injEq, reduceCtorEq] at h) <;> (subst h; simp)

theorem execBlockLoss_frame_boxDie :
    ∀ x0 x1 s t, execBlockLoss x0 x1 s = .next t → (t).boxDie = s.boxDie := by
  intros; rename_i h; simp only [execBlockLoss] at h; (repeat' split at h) <;> (simp only [Host.Outcome.next.injEq, reduceCtorEq] at h) <;> (subst h; simp)

theorem execBlockLoss_frame_fuses :
    ∀ x0 x1 s t, execBlockLoss x0 x1 s = .next t → (t).fuses = s.fuses := by
  intros; rename_i h; simp only [execBlockLoss] at h; (repeat' split at h) <;> (simp only [Host.Outcome.next.injEq, reduceCtorEq] at h) <;> (subst h; simp)

theorem execBlockLoss_wf_dram :
    ∀ x0 x1 s t, Memory.wf s.dram = true → execBlockLoss x0 x1 s = .next t → Memory.wf (t).dram = true := by
  intros; rename_i hw h; simp only [execBlockLoss] at h; (repeat' split at h) <;> (simp only [Host.Outcome.next.injEq, reduceCtorEq] at h) <;> (subst h; simp +contextual [hw])

theorem execBlockLoss_wf_ws :
    ∀ x0 x1 s t, Memory.wf s.ws = true → execBlockLoss x0 x1 s = .next t → Memory.wf (t).ws = true := by
  intros; rename_i hw h; simp only [execBlockLoss] at h; (repeat' split at h) <;> (simp only [Host.Outcome.next.injEq, reduceCtorEq] at h) <;> (subst h; simp +contextual [hw])

theorem execMarkLoss_frame_pending :
    ∀ x0 s t, execMarkLoss x0 s = .next t → (t).pending = s.pending := by
  intros; rename_i h; simp only [execMarkLoss] at h; (repeat' split at h) <;> (simp only [Host.Outcome.next.injEq, reduceCtorEq] at h) <;> (subst h; simp)

theorem execMarkLoss_frame_time :
    ∀ x0 s t, execMarkLoss x0 s = .next t → (t).time = s.time := by
  intros; rename_i h; simp only [execMarkLoss] at h; (repeat' split at h) <;> (simp only [Host.Outcome.next.injEq, reduceCtorEq] at h) <;> (subst h; simp)

theorem execMarkLoss_frame_boxDie :
    ∀ x0 s t, execMarkLoss x0 s = .next t → (t).boxDie = s.boxDie := by
  intros; rename_i h; simp only [execMarkLoss] at h; (repeat' split at h) <;> (simp only [Host.Outcome.next.injEq, reduceCtorEq] at h) <;> (subst h; simp)

theorem execMarkLoss_frame_fuses :
    ∀ x0 s t, execMarkLoss x0 s = .next t → (t).fuses = s.fuses := by
  intros; rename_i h; simp only [execMarkLoss] at h; (repeat' split at h) <;> (simp only [Host.Outcome.next.injEq, reduceCtorEq] at h) <;> (subst h; simp)

theorem execMarkLoss_wf_dram :
    ∀ x0 s t, Memory.wf s.dram = true → execMarkLoss x0 s = .next t → Memory.wf (t).dram = true := by
  intros; rename_i hw h; simp only [execMarkLoss] at h; (repeat' split at h) <;> (simp only [Host.Outcome.next.injEq, reduceCtorEq] at h) <;> (subst h; simp +contextual [hw])

theorem execMarkLoss_wf_ws :
    ∀ x0 s t, Memory.wf s.ws = true → execMarkLoss x0 s = .next t → Memory.wf (t).ws = true := by
  intros; rename_i hw h; simp only [execMarkLoss] at h; (repeat' split at h) <;> (simp only [Host.Outcome.next.injEq, reduceCtorEq] at h) <;> (subst h; simp +contextual [hw])

theorem execLos_frame_pending :
    ∀ x0 s t, execLos x0 s = .next t → (t).pending = s.pending := by
  intros; rename_i h; simp only [execLos] at h; (repeat' split at h) <;> (simp only [Host.Outcome.next.injEq, reduceCtorEq] at h) <;> (subst h; simp)

theorem execLos_frame_time :
    ∀ x0 s t, execLos x0 s = .next t → (t).time = s.time := by
  intros; rename_i h; simp only [execLos] at h; (repeat' split at h) <;> (simp only [Host.Outcome.next.injEq, reduceCtorEq] at h) <;> (subst h; simp)

theorem execLos_frame_boxDie :
    ∀ x0 s t, execLos x0 s = .next t → (t).boxDie = s.boxDie := by
  intros; rename_i h; simp only [execLos] at h; (repeat' split at h) <;> (simp only [Host.Outcome.next.injEq, reduceCtorEq] at h) <;> (subst h; simp)

theorem execLos_frame_fuses :
    ∀ x0 s t, execLos x0 s = .next t → (t).fuses = s.fuses := by
  intros; rename_i h; simp only [execLos] at h; (repeat' split at h) <;> (simp only [Host.Outcome.next.injEq, reduceCtorEq] at h) <;> (subst h; simp)

theorem execLos_wf_dram :
    ∀ x0 s t, Memory.wf s.dram = true → execLos x0 s = .next t → Memory.wf (t).dram = true := by
  intros; rename_i hw h; simp only [execLos] at h; (repeat' split at h) <;> (simp only [Host.Outcome.next.injEq, reduceCtorEq] at h) <;> (subst h; simp +contextual [hw])

theorem execLos_wf_ws :
    ∀ x0 s t, Memory.wf s.ws = true → execLos x0 s = .next t → Memory.wf (t).ws = true := by
  intros; rename_i hw h; simp only [execLos] at h; (repeat' split at h) <;> (simp only [Host.Outcome.next.injEq, reduceCtorEq] at h) <;> (subst h; simp +contextual [hw])

theorem execInfoWordFixed_frame :
    ∀ x0 s t, execInfoWordFixed x0 s = .next t → (t).pending = s.pending ∧ (t).time = s.time ∧ (t).boxDie = s.boxDie ∧ (t).fuses = s.fuses ∧ (t).dram = s.dram ∧ (t).ws = s.ws := by
  intros; rename_i h; simp only [execInfoWordFixed] at h; (repeat' split at h) <;> (simp only [Host.Outcome.next.injEq, reduceCtorEq] at h) <;> (subst h; simp)

@[simp] theorem endSuperframe_frame :
    ∀ x0 s, (endSuperframe x0 s).pending = s.pending ∧ (endSuperframe x0 s).time = s.time ∧ (endSuperframe x0 s).boxDie = s.boxDie ∧ (endSuperframe x0 s).fuses = s.fuses ∧ (endSuperframe x0 s).dram = s.dram ∧ (endSuperframe x0 s).ws = s.ws := by
  intros; simp [endSuperframe]

theorem execSuperframeStart_frame :
    ∀ x0 s t, execSuperframeStart x0 s = .next t → (t).pending = s.pending ∧ (t).time = s.time ∧ (t).boxDie = s.boxDie ∧ (t).fuses = s.fuses ∧ (t).dram = s.dram ∧ (t).ws = s.ws := by
  intros; rename_i h; simp only [execSuperframeStart] at h; (repeat' split at h) <;> (simp only [Host.Outcome.next.injEq, reduceCtorEq] at h) <;> (subst h; simp)

theorem execIdleRequest_frame :
    ∀ x0 s t, execIdleRequest x0 s = .next t → (t).pending = s.pending ∧ (t).time = s.time ∧ (t).boxDie = s.boxDie ∧ (t).fuses = s.fuses ∧ (t).dram = s.dram ∧ (t).ws = s.ws := by
  intros; rename_i h; simp only [execIdleRequest] at h; (repeat' split at h) <;> (simp only [Host.Outcome.next.injEq, reduceCtorEq] at h) <;> (subst h; simp)

theorem execIdleExitRequest_frame :
    ∀ x0 s t, execIdleExitRequest x0 s = .next t → (t).pending = s.pending ∧ (t).time = s.time ∧ (t).boxDie = s.boxDie ∧ (t).fuses = s.fuses ∧ (t).dram = s.dram ∧ (t).ws = s.ws := by
  intros; rename_i h; simp only [execIdleExitRequest] at h; (repeat' split at h) <;> (simp only [Host.Outcome.next.injEq, reduceCtorEq] at h) <;> (subst h; simp)

theorem execEnergyDetected_frame :
    ∀ x0 s t, execEnergyDetected x0 s = .next t → (t).pending = s.pending ∧ (t).time = s.time ∧ (t).boxDie = s.boxDie ∧ (t).fuses = s.fuses ∧ (t).dram = s.dram ∧ (t).ws = s.ws := by
  intros; rename_i h; simp only [execEnergyDetected] at h; (repeat' split at h) <;> (simp only [Host.Outcome.next.injEq, reduceCtorEq] at h) <;> (subst h; simp)

theorem execWakeTimeout_frame_pending :
    ∀ x0 s t, execWakeTimeout x0 s = .next t → (t).pending = s.pending := by
  intros; rename_i h; simp only [execWakeTimeout] at h; (repeat' split at h) <;> (simp only [Host.Outcome.next.injEq, reduceCtorEq] at h) <;> (subst h; simp)

theorem execWakeTimeout_frame_time :
    ∀ x0 s t, execWakeTimeout x0 s = .next t → (t).time = s.time := by
  intros; rename_i h; simp only [execWakeTimeout] at h; (repeat' split at h) <;> (simp only [Host.Outcome.next.injEq, reduceCtorEq] at h) <;> (subst h; simp)

theorem execWakeTimeout_frame_boxDie :
    ∀ x0 s t, execWakeTimeout x0 s = .next t → (t).boxDie = s.boxDie := by
  intros; rename_i h; simp only [execWakeTimeout] at h; (repeat' split at h) <;> (simp only [Host.Outcome.next.injEq, reduceCtorEq] at h) <;> (subst h; simp)

theorem execWakeTimeout_frame_fuses :
    ∀ x0 s t, execWakeTimeout x0 s = .next t → (t).fuses = s.fuses := by
  intros; rename_i h; simp only [execWakeTimeout] at h; (repeat' split at h) <;> (simp only [Host.Outcome.next.injEq, reduceCtorEq] at h) <;> (subst h; simp)

theorem execWakeTimeout_wf_dram :
    ∀ x0 s t, Memory.wf s.dram = true → execWakeTimeout x0 s = .next t → Memory.wf (t).dram = true := by
  intros; rename_i hw h; simp only [execWakeTimeout] at h; (repeat' split at h) <;> (simp only [Host.Outcome.next.injEq, reduceCtorEq] at h) <;> (subst h; simp +contextual [hw])

theorem execWakeTimeout_wf_ws :
    ∀ x0 s t, Memory.wf s.ws = true → execWakeTimeout x0 s = .next t → Memory.wf (t).ws = true := by
  intros; rename_i hw h; simp only [execWakeTimeout] at h; (repeat' split at h) <;> (simp only [Host.Outcome.next.injEq, reduceCtorEq] at h) <;> (subst h; simp +contextual [hw])

/-! ### Leave -/

theorem execLeaveRequest_frame :
    ∀ x0 x1 s t, execLeaveRequest x0 x1 s = .next t → (t).pending = s.pending ∧ (t).time = s.time ∧ (t).boxDie = s.boxDie ∧ (t).fuses = s.fuses ∧ (t).dram = s.dram ∧ (t).ws = s.ws := by
  intros; rename_i h; simp only [execLeaveRequest] at h; (repeat' split at h) <;> (simp only [Host.Outcome.next.injEq, reduceCtorEq] at h) <;> (subst h; simp)

theorem execLeaveGrant_frame :
    ∀ s t, execLeaveGrant s = .next t → (t).pending = s.pending ∧ (t).time = s.time ∧ (t).boxDie = s.boxDie ∧ (t).fuses = s.fuses ∧ (t).dram = s.dram ∧ (t).ws = s.ws := by
  intros; rename_i h; simp only [execLeaveGrant] at h; (repeat' split at h) <;> (simp only [Host.Outcome.next.injEq, reduceCtorEq] at h) <;> (subst h; simp)

@[simp] theorem endGrant_frame :
    ∀ x0 s, (endGrant x0 s).pending = s.pending ∧ (endGrant x0 s).time = s.time ∧ (endGrant x0 s).boxDie = s.boxDie ∧ (endGrant x0 s).fuses = s.fuses ∧ (endGrant x0 s).dram = s.dram ∧ (endGrant x0 s).ws = s.ws := by
  intros; simp [endGrant]

theorem execLeaveRelease_frame :
    ∀ x0 s t, execLeaveRelease x0 s = .next t → (t).pending = s.pending ∧ (t).time = s.time ∧ (t).boxDie = s.boxDie ∧ (t).fuses = s.fuses ∧ (t).dram = s.dram ∧ (t).ws = s.ws := by
  intros; rename_i h; simp only [execLeaveRelease] at h; (repeat' split at h) <;> (simp only [Host.Outcome.next.injEq, reduceCtorEq] at h) <;> (subst h; simp)

theorem execWindowOpen_frame :
    ∀ x0 x1 s t, execWindowOpen x0 x1 s = .next t → (t).pending = s.pending ∧ (t).time = s.time ∧ (t).boxDie = s.boxDie ∧ (t).fuses = s.fuses ∧ (t).dram = s.dram ∧ (t).ws = s.ws := by
  intros; rename_i h; simp only [execWindowOpen] at h; (repeat' split at h) <;> (simp only [Host.Outcome.next.injEq, reduceCtorEq] at h) <;> (subst h; simp)

theorem execWindowEnd_frame :
    ∀ x0 s t, execWindowEnd x0 s = .next t → (t).pending = s.pending ∧ (t).time = s.time ∧ (t).boxDie = s.boxDie ∧ (t).fuses = s.fuses ∧ (t).dram = s.dram ∧ (t).ws = s.ws := by
  intros; rename_i h; simp only [execWindowEnd] at h; (repeat' split at h) <;> (simp only [Host.Outcome.next.injEq, reduceCtorEq] at h) <;> (subst h; simp)

theorem execIssueTailEnd_frame :
    ∀ x0 s t, execIssueTailEnd x0 s = .next t → (t).pending = s.pending ∧ (t).time = s.time ∧ (t).boxDie = s.boxDie ∧ (t).fuses = s.fuses ∧ (t).dram = s.dram ∧ (t).ws = s.ws := by
  intros; rename_i h; simp only [execIssueTailEnd] at h; (repeat' split at h) <;> (simp only [Host.Outcome.next.injEq, reduceCtorEq] at h) <;> (subst h; simp)

theorem execRampStep_frame :
    ∀ x0 s t, execRampStep x0 s = .next t → (t).pending = s.pending ∧ (t).time = s.time ∧ (t).boxDie = s.boxDie ∧ (t).fuses = s.fuses ∧ (t).dram = s.dram ∧ (t).ws = s.ws := by
  intros; rename_i h; simp only [execRampStep] at h; (repeat' split at h) <;> (simp only [Host.Outcome.next.injEq, reduceCtorEq] at h) <;> (subst h; simp)

theorem execThrottleUpdate_frame :
    ∀ x0 s t, execThrottleUpdate x0 s = .next t → (t).pending = s.pending ∧ (t).time = s.time ∧ (t).boxDie = s.boxDie ∧ (t).fuses = s.fuses ∧ (t).dram = s.dram ∧ (t).ws = s.ws := by
  intros; rename_i h; simp only [execThrottleUpdate] at h; (repeat' split at h) <;> (simp only [Host.Outcome.next.injEq, reduceCtorEq] at h) <;> (subst h; simp)

theorem execLeaveInfo_frame :
    ∀ x0 s t, execLeaveInfo x0 s = .next t → (t).pending = s.pending ∧ (t).time = s.time ∧ (t).boxDie = s.boxDie ∧ (t).fuses = s.fuses ∧ (t).dram = s.dram ∧ (t).ws = s.ws := by
  intros; rename_i h; simp only [execLeaveInfo] at h; (repeat' split at h) <;> (simp only [Host.Outcome.next.injEq, reduceCtorEq] at h) <;> (subst h; simp)

end Sys2Proof.Machine
end

