-- ==== Sys2Proof/Laws/FramePlace.lean ====
section
/-! SUPPORT. The frame of shards, seeding, the plan, placement and the idle step: the queue, the clock, the box office die, the fuses and the two memories are as before, and
where a memory may change it keeps its canonical form. -/

set_option linter.unusedSimpArgs false

namespace Sys2Proof.Machine

/-! ### ShardCmds -/

theorem execShardCreate_frame_pending :
    ∀ x0 s t, execShardCreate x0 s = .next t → (t).pending = s.pending := by
  intros; rename_i h; simp only [execShardCreate, readThen] at h; (repeat' split at h) <;> (simp only [Host.Outcome.next.injEq, reduceCtorEq] at h) <;> (subst h; simp)

theorem execShardCreate_frame_time :
    ∀ x0 s t, execShardCreate x0 s = .next t → (t).time = s.time := by
  intros; rename_i h; simp only [execShardCreate, readThen] at h; (repeat' split at h) <;> (simp only [Host.Outcome.next.injEq, reduceCtorEq] at h) <;> (subst h; simp)

theorem execShardCreate_frame_boxDie :
    ∀ x0 s t, execShardCreate x0 s = .next t → (t).boxDie = s.boxDie := by
  intros; rename_i h; simp only [execShardCreate, readThen] at h; (repeat' split at h) <;> (simp only [Host.Outcome.next.injEq, reduceCtorEq] at h) <;> (subst h; simp)

theorem execShardCreate_frame_fuses :
    ∀ x0 s t, execShardCreate x0 s = .next t → (t).fuses = s.fuses := by
  intros; rename_i h; simp only [execShardCreate, readThen] at h; (repeat' split at h) <;> (simp only [Host.Outcome.next.injEq, reduceCtorEq] at h) <;> (subst h; simp)

theorem execShardCreate_wf_dram :
    ∀ x0 s t, Memory.wf s.dram = true → execShardCreate x0 s = .next t → Memory.wf (t).dram = true := by
  intros; rename_i hw h; simp only [execShardCreate, readThen] at h; (repeat' split at h) <;> (simp only [Host.Outcome.next.injEq, reduceCtorEq] at h) <;> (subst h; simp +contextual [hw])

theorem execShardCreate_wf_ws :
    ∀ x0 s t, Memory.wf s.ws = true → execShardCreate x0 s = .next t → Memory.wf (t).ws = true := by
  intros; rename_i hw h; simp only [execShardCreate, readThen] at h; (repeat' split at h) <;> (simp only [Host.Outcome.next.injEq, reduceCtorEq] at h) <;> (subst h; simp +contextual [hw])

theorem execZeroFillDone_frame_pending :
    ∀ x0 s t, execZeroFillDone x0 s = .next t → (t).pending = s.pending := by
  intros; rename_i h; simp only [execZeroFillDone] at h; (repeat' split at h) <;> (simp only [Host.Outcome.next.injEq, reduceCtorEq] at h) <;> (subst h; simp)

theorem execZeroFillDone_frame_time :
    ∀ x0 s t, execZeroFillDone x0 s = .next t → (t).time = s.time := by
  intros; rename_i h; simp only [execZeroFillDone] at h; (repeat' split at h) <;> (simp only [Host.Outcome.next.injEq, reduceCtorEq] at h) <;> (subst h; simp)

theorem execZeroFillDone_frame_boxDie :
    ∀ x0 s t, execZeroFillDone x0 s = .next t → (t).boxDie = s.boxDie := by
  intros; rename_i h; simp only [execZeroFillDone] at h; (repeat' split at h) <;> (simp only [Host.Outcome.next.injEq, reduceCtorEq] at h) <;> (subst h; simp)

theorem execZeroFillDone_frame_fuses :
    ∀ x0 s t, execZeroFillDone x0 s = .next t → (t).fuses = s.fuses := by
  intros; rename_i h; simp only [execZeroFillDone] at h; (repeat' split at h) <;> (simp only [Host.Outcome.next.injEq, reduceCtorEq] at h) <;> (subst h; simp)

theorem execZeroFillDone_wf_dram :
    ∀ x0 s t, Memory.wf s.dram = true → execZeroFillDone x0 s = .next t → Memory.wf (t).dram = true := by
  intros; rename_i hw h; simp only [execZeroFillDone] at h; (repeat' split at h) <;> (simp only [Host.Outcome.next.injEq, reduceCtorEq] at h) <;> (subst h; simp +contextual [hw])

theorem execZeroFillDone_frame_ws :
    ∀ x0 s t, execZeroFillDone x0 s = .next t → (t).ws = s.ws := by
  intros; rename_i h; simp only [execZeroFillDone] at h; (repeat' split at h) <;> (simp only [Host.Outcome.next.injEq, reduceCtorEq] at h) <;> (subst h; simp)

@[simp] theorem forgetShard_frame :
    ∀ x0 x1 s, (forgetShard x0 x1 s).pending = s.pending ∧ (forgetShard x0 x1 s).time = s.time ∧ (forgetShard x0 x1 s).boxDie = s.boxDie ∧ (forgetShard x0 x1 s).fuses = s.fuses ∧ (forgetShard x0 x1 s).dram = s.dram ∧ (forgetShard x0 x1 s).ws = s.ws := by
  intros; simp [forgetShard]

@[simp] theorem removeShard_frame_pending :
    ∀ x0 x1 s, (removeShard x0 x1 s).pending = s.pending := by
  intros; simp [removeShard]

@[simp] theorem removeShard_frame_time :
    ∀ x0 x1 s, (removeShard x0 x1 s).time = s.time := by
  intros; simp [removeShard]

@[simp] theorem removeShard_frame_boxDie :
    ∀ x0 x1 s, (removeShard x0 x1 s).boxDie = s.boxDie := by
  intros; simp [removeShard]

@[simp] theorem removeShard_frame_fuses :
    ∀ x0 x1 s, (removeShard x0 x1 s).fuses = s.fuses := by
  intros; simp [removeShard]

@[simp] theorem removeShard_wf_dram :
    ∀ x0 x1 s, Memory.wf s.dram = true → Memory.wf (removeShard x0 x1 s).dram = true := by
  intros; simp +contextual [removeShard, *]

@[simp] theorem removeShard_frame_ws :
    ∀ x0 x1 s, (removeShard x0 x1 s).ws = s.ws := by
  intros; simp [removeShard]

theorem execShardRemove_frame_pending :
    ∀ x0 s t, execShardRemove x0 s = .next t → (t).pending = s.pending := by
  intros; rename_i h; simp only [execShardRemove, readThen] at h; (repeat' split at h) <;> (simp only [Host.Outcome.next.injEq, reduceCtorEq] at h) <;> (subst h; simp)

theorem execShardRemove_frame_time :
    ∀ x0 s t, execShardRemove x0 s = .next t → (t).time = s.time := by
  intros; rename_i h; simp only [execShardRemove, readThen] at h; (repeat' split at h) <;> (simp only [Host.Outcome.next.injEq, reduceCtorEq] at h) <;> (subst h; simp)

theorem execShardRemove_frame_boxDie :
    ∀ x0 s t, execShardRemove x0 s = .next t → (t).boxDie = s.boxDie := by
  intros; rename_i h; simp only [execShardRemove, readThen] at h; (repeat' split at h) <;> (simp only [Host.Outcome.next.injEq, reduceCtorEq] at h) <;> (subst h; simp)

theorem execShardRemove_frame_fuses :
    ∀ x0 s t, execShardRemove x0 s = .next t → (t).fuses = s.fuses := by
  intros; rename_i h; simp only [execShardRemove, readThen] at h; (repeat' split at h) <;> (simp only [Host.Outcome.next.injEq, reduceCtorEq] at h) <;> (subst h; simp)

theorem execShardRemove_wf_dram :
    ∀ x0 s t, Memory.wf s.dram = true → execShardRemove x0 s = .next t → Memory.wf (t).dram = true := by
  intros; rename_i hw h; simp only [execShardRemove, readThen] at h; (repeat' split at h) <;> (simp only [Host.Outcome.next.injEq, reduceCtorEq] at h) <;> (subst h; simp +contextual [hw])

theorem execShardRemove_wf_ws :
    ∀ x0 s t, Memory.wf s.ws = true → execShardRemove x0 s = .next t → Memory.wf (t).ws = true := by
  intros; rename_i hw h; simp only [execShardRemove, readThen] at h; (repeat' split at h) <;> (simp only [Host.Outcome.next.injEq, reduceCtorEq] at h) <;> (subst h; simp +contextual [hw])

@[simp] theorem promoteShard_frame_pending :
    ∀ x0 s, (promoteShard x0 s).pending = s.pending := by
  intros; simp [promoteShard]

@[simp] theorem promoteShard_frame_time :
    ∀ x0 s, (promoteShard x0 s).time = s.time := by
  intros; simp [promoteShard]

@[simp] theorem promoteShard_frame_boxDie :
    ∀ x0 s, (promoteShard x0 s).boxDie = s.boxDie := by
  intros; simp [promoteShard]

@[simp] theorem promoteShard_frame_fuses :
    ∀ x0 s, (promoteShard x0 s).fuses = s.fuses := by
  intros; simp [promoteShard]

@[simp] theorem promoteShard_wf_dram :
    ∀ x0 s, Memory.wf s.dram = true → Memory.wf (promoteShard x0 s).dram = true := by
  intros; simp +contextual [promoteShard, *]

@[simp] theorem promoteShard_frame_ws :
    ∀ x0 s, (promoteShard x0 s).ws = s.ws := by
  intros; simp [promoteShard]

theorem execPromote_frame_pending :
    ∀ x0 s t, execPromote x0 s = .next t → (t).pending = s.pending := by
  intros; rename_i h; simp only [execPromote, readThen] at h; (repeat' split at h) <;> (simp only [Host.Outcome.next.injEq, reduceCtorEq] at h) <;> (subst h; simp)

theorem execPromote_frame_time :
    ∀ x0 s t, execPromote x0 s = .next t → (t).time = s.time := by
  intros; rename_i h; simp only [execPromote, readThen] at h; (repeat' split at h) <;> (simp only [Host.Outcome.next.injEq, reduceCtorEq] at h) <;> (subst h; simp)

theorem execPromote_frame_boxDie :
    ∀ x0 s t, execPromote x0 s = .next t → (t).boxDie = s.boxDie := by
  intros; rename_i h; simp only [execPromote, readThen] at h; (repeat' split at h) <;> (simp only [Host.Outcome.next.injEq, reduceCtorEq] at h) <;> (subst h; simp)

theorem execPromote_frame_fuses :
    ∀ x0 s t, execPromote x0 s = .next t → (t).fuses = s.fuses := by
  intros; rename_i h; simp only [execPromote, readThen] at h; (repeat' split at h) <;> (simp only [Host.Outcome.next.injEq, reduceCtorEq] at h) <;> (subst h; simp)

theorem execPromote_wf_dram :
    ∀ x0 s t, Memory.wf s.dram = true → execPromote x0 s = .next t → Memory.wf (t).dram = true := by
  intros; rename_i hw h; simp only [execPromote, readThen] at h; (repeat' split at h) <;> (simp only [Host.Outcome.next.injEq, reduceCtorEq] at h) <;> (subst h; simp +contextual [hw])

theorem execPromote_wf_ws :
    ∀ x0 s t, Memory.wf s.ws = true → execPromote x0 s = .next t → Memory.wf (t).ws = true := by
  intros; rename_i hw h; simp only [execPromote, readThen] at h; (repeat' split at h) <;> (simp only [Host.Outcome.next.injEq, reduceCtorEq] at h) <;> (subst h; simp +contextual [hw])

/-! ### Seeding -/

@[simp] theorem modSeed_frame :
    ∀ x0 x1 s, (modSeed x0 x1 s).pending = s.pending ∧ (modSeed x0 x1 s).time = s.time ∧ (modSeed x0 x1 s).boxDie = s.boxDie ∧ (modSeed x0 x1 s).fuses = s.fuses ∧ (modSeed x0 x1 s).dram = s.dram ∧ (modSeed x0 x1 s).ws = s.ws := by
  intros; simp [modSeed]

@[simp] theorem dropSeed_frame :
    ∀ x0 s, (dropSeed x0 s).pending = s.pending ∧ (dropSeed x0 s).time = s.time ∧ (dropSeed x0 s).boxDie = s.boxDie ∧ (dropSeed x0 s).fuses = s.fuses ∧ (dropSeed x0 s).dram = s.dram ∧ (dropSeed x0 s).ws = s.ws := by
  intros; simp [dropSeed]

@[simp] theorem toPartner_frame :
    ∀ x0 x1 s, (toPartner x0 x1 s).pending = s.pending ∧ (toPartner x0 x1 s).time = s.time ∧ (toPartner x0 x1 s).boxDie = s.boxDie ∧ (toPartner x0 x1 s).fuses = s.fuses ∧ (toPartner x0 x1 s).dram = s.dram ∧ (toPartner x0 x1 s).ws = s.ws := by
  intros; simp [toPartner]

@[simp] theorem sendHeader_frame_pending :
    ∀ x0 x1 s, (sendHeader x0 x1 s).pending = s.pending := by
  intros; simp only [sendHeader]; (repeat' split) <;> simp

@[simp] theorem sendHeader_frame_time :
    ∀ x0 x1 s, (sendHeader x0 x1 s).time = s.time := by
  intros; simp only [sendHeader]; (repeat' split) <;> simp

@[simp] theorem sendHeader_frame_boxDie :
    ∀ x0 x1 s, (sendHeader x0 x1 s).boxDie = s.boxDie := by
  intros; simp only [sendHeader]; (repeat' split) <;> simp

@[simp] theorem sendHeader_frame_fuses :
    ∀ x0 x1 s, (sendHeader x0 x1 s).fuses = s.fuses := by
  intros; simp only [sendHeader]; (repeat' split) <;> simp

@[simp] theorem sendHeader_wf_dram :
    ∀ x0 x1 s, Memory.wf s.dram = true → Memory.wf (sendHeader x0 x1 s).dram = true := by
  intros; unfold sendHeader; simp only []; (repeat' split) <;> simp +contextual [*]

@[simp] theorem sendHeader_wf_ws :
    ∀ x0 x1 s, Memory.wf s.ws = true → Memory.wf (sendHeader x0 x1 s).ws = true := by
  intros; unfold sendHeader; simp only []; (repeat' split) <;> simp +contextual [*]

@[simp] theorem holdErrs_frame :
    ∀ x0 s, (holdErrs x0 s).pending = s.pending ∧ (holdErrs x0 s).time = s.time ∧ (holdErrs x0 s).boxDie = s.boxDie ∧ (holdErrs x0 s).fuses = s.fuses ∧ (holdErrs x0 s).dram = s.dram ∧ (holdErrs x0 s).ws = s.ws := by
  intros; simp [holdErrs]

@[simp] theorem readHeld_frame_pending :
    ∀ x0 x1 s, (readHeld x0 x1 s).pending = s.pending := by
  intros; simp [readHeld]

@[simp] theorem readHeld_frame_time :
    ∀ x0 x1 s, (readHeld x0 x1 s).time = s.time := by
  intros; simp [readHeld]

@[simp] theorem readHeld_frame_boxDie :
    ∀ x0 x1 s, (readHeld x0 x1 s).boxDie = s.boxDie := by
  intros; simp [readHeld]

@[simp] theorem readHeld_frame_fuses :
    ∀ x0 x1 s, (readHeld x0 x1 s).fuses = s.fuses := by
  intros; simp [readHeld]

@[simp] theorem readHeld_wf_dram :
    ∀ x0 x1 s, Memory.wf s.dram = true → Memory.wf (readHeld x0 x1 s).dram = true := by
  intros; unfold readHeld; simp only []; (repeat' split) <;> simp +contextual [*]

@[simp] theorem readHeld_wf_ws :
    ∀ x0 x1 s, Memory.wf s.ws = true → Memory.wf (readHeld x0 x1 s).ws = true := by
  intros; unfold readHeld; simp only []; (repeat' split) <;> simp +contextual [*]

@[simp] theorem sendCopies_frame : ∀ x0 s, (sendCopies x0 s).pending = s.pending ∧ (sendCopies x0 s).time = s.time ∧ (sendCopies x0 s).boxDie = s.boxDie ∧ (sendCopies x0 s).fuses = s.fuses := by
  intro k; induction k with
  | zero => intros; simp [sendCopies]
  | succ k ih => intro s; simp only [sendCopies]; (repeat' split) <;> simp [ih]

@[simp] theorem sendCopies_wf_dram : ∀ x0 s, Memory.wf s.dram = true → Memory.wf (sendCopies x0 s).dram = true := by
  intro k; induction k with
  | zero => intros; simpa [sendCopies]
  | succ k ih => intro s hw; simp only [sendCopies]; (repeat' split) <;> first | exact hw | (apply ih; simp [hw])

@[simp] theorem sendCopies_wf_ws : ∀ x0 s, Memory.wf s.ws = true → Memory.wf (sendCopies x0 s).ws = true := by
  intro k; induction k with
  | zero => intros; simpa [sendCopies]
  | succ k ih => intro s hw; simp only [sendCopies]; (repeat' split) <;> first | exact hw | (apply ih; simp [hw])

@[simp] theorem serveCopies_frame_pending :
    ∀ s, (serveCopies s).pending = s.pending := by
  intros; unfold serveCopies; (repeat' split) <;> simp

@[simp] theorem serveCopies_frame_time :
    ∀ s, (serveCopies s).time = s.time := by
  intros; unfold serveCopies; (repeat' split) <;> simp

@[simp] theorem serveCopies_frame_boxDie :
    ∀ s, (serveCopies s).boxDie = s.boxDie := by
  intros; unfold serveCopies; (repeat' split) <;> simp

@[simp] theorem serveCopies_frame_fuses :
    ∀ s, (serveCopies s).fuses = s.fuses := by
  intros; unfold serveCopies; (repeat' split) <;> simp

@[simp] theorem serveCopies_wf_dram :
    ∀ s, Memory.wf s.dram = true → Memory.wf (serveCopies s).dram = true := by
  intros; unfold serveCopies; (repeat' split) <;> simp +contextual [*]

@[simp] theorem serveCopies_wf_ws :
    ∀ s, Memory.wf s.ws = true → Memory.wf (serveCopies s).ws = true := by
  intros; unfold serveCopies; (repeat' split) <;> simp +contextual [*]

@[simp] theorem abortSeed_frame_pending :
    ∀ x0 s, (abortSeed x0 s).pending = s.pending := by
  intros; simp [abortSeed]

@[simp] theorem abortSeed_frame_time :
    ∀ x0 s, (abortSeed x0 s).time = s.time := by
  intros; simp [abortSeed]

@[simp] theorem abortSeed_frame_boxDie :
    ∀ x0 s, (abortSeed x0 s).boxDie = s.boxDie := by
  intros; simp [abortSeed]

@[simp] theorem abortSeed_frame_fuses :
    ∀ x0 s, (abortSeed x0 s).fuses = s.fuses := by
  intros; simp [abortSeed]

@[simp] theorem abortSeed_wf_dram :
    ∀ x0 s, Memory.wf s.dram = true → Memory.wf (abortSeed x0 s).dram = true := by
  intros; simp +contextual [abortSeed, *]

@[simp] theorem abortSeed_frame_ws :
    ∀ x0 s, (abortSeed x0 s).ws = s.ws := by
  intros; simp [abortSeed]

@[simp] theorem releaseForward_frame :
    ∀ x0 x1 s, (releaseForward x0 x1 s).pending = s.pending ∧ (releaseForward x0 x1 s).time = s.time ∧ (releaseForward x0 x1 s).boxDie = s.boxDie ∧ (releaseForward x0 x1 s).fuses = s.fuses ∧ (releaseForward x0 x1 s).dram = s.dram ∧ (releaseForward x0 x1 s).ws = s.ws := by
  intros; unfold releaseForward; (repeat' split) <;> simp

@[simp] theorem ackSeed_frame :
    ∀ x0 x1 x2 s, (ackSeed x0 x1 x2 s).pending = s.pending ∧ (ackSeed x0 x1 x2 s).time = s.time ∧ (ackSeed x0 x1 x2 s).boxDie = s.boxDie ∧ (ackSeed x0 x1 x2 s).fuses = s.fuses ∧ (ackSeed x0 x1 x2 s).dram = s.dram ∧ (ackSeed x0 x1 x2 s).ws = s.ws := by
  intros; simp [ackSeed]

theorem execSeedHdr_frame_pending :
    ∀ x0 x1 s t, execSeedHdr x0 x1 s = .next t → (t).pending = s.pending := by
  intros; rename_i h; simp only [execSeedHdr] at h; (repeat' split at h) <;> (simp only [Host.Outcome.next.injEq, reduceCtorEq] at h) <;> (subst h; simp)

theorem execSeedHdr_frame_time :
    ∀ x0 x1 s t, execSeedHdr x0 x1 s = .next t → (t).time = s.time := by
  intros; rename_i h; simp only [execSeedHdr] at h; (repeat' split at h) <;> (simp only [Host.Outcome.next.injEq, reduceCtorEq] at h) <;> (subst h; simp)

theorem execSeedHdr_frame_boxDie :
    ∀ x0 x1 s t, execSeedHdr x0 x1 s = .next t → (t).boxDie = s.boxDie := by
  intros; rename_i h; simp only [execSeedHdr] at h; (repeat' split at h) <;> (simp only [Host.Outcome.next.injEq, reduceCtorEq] at h) <;> (subst h; simp)

theorem execSeedHdr_frame_fuses :
    ∀ x0 x1 s t, execSeedHdr x0 x1 s = .next t → (t).fuses = s.fuses := by
  intros; rename_i h; simp only [execSeedHdr] at h; (repeat' split at h) <;> (simp only [Host.Outcome.next.injEq, reduceCtorEq] at h) <;> (subst h; simp)

theorem execSeedHdr_wf_dram :
    ∀ x0 x1 s t, Memory.wf s.dram = true → execSeedHdr x0 x1 s = .next t → Memory.wf (t).dram = true := by
  intros; rename_i hw h; simp only [execSeedHdr] at h; (repeat' split at h) <;> (simp only [Host.Outcome.next.injEq, reduceCtorEq] at h) <;> (subst h; simp +contextual [hw])

theorem execSeedHdr_frame_ws :
    ∀ x0 x1 s t, execSeedHdr x0 x1 s = .next t → (t).ws = s.ws := by
  intros; rename_i h; simp only [execSeedHdr] at h; (repeat' split at h) <;> (simp only [Host.Outcome.next.injEq, reduceCtorEq] at h) <;> (subst h; simp)

theorem execSeedCopy_frame_pending :
    ∀ x0 x1 s t, execSeedCopy x0 x1 s = .next t → (t).pending = s.pending := by
  intros; rename_i h; simp only [execSeedCopy] at h; (repeat' split at h) <;> (simp only [Host.Outcome.next.injEq, reduceCtorEq] at h) <;> (subst h; simp)

theorem execSeedCopy_frame_time :
    ∀ x0 x1 s t, execSeedCopy x0 x1 s = .next t → (t).time = s.time := by
  intros; rename_i h; simp only [execSeedCopy] at h; (repeat' split at h) <;> (simp only [Host.Outcome.next.injEq, reduceCtorEq] at h) <;> (subst h; simp)

theorem execSeedCopy_frame_boxDie :
    ∀ x0 x1 s t, execSeedCopy x0 x1 s = .next t → (t).boxDie = s.boxDie := by
  intros; rename_i h; simp only [execSeedCopy] at h; (repeat' split at h) <;> (simp only [Host.Outcome.next.injEq, reduceCtorEq] at h) <;> (subst h; simp)

theorem execSeedCopy_frame_fuses :
    ∀ x0 x1 s t, execSeedCopy x0 x1 s = .next t → (t).fuses = s.fuses := by
  intros; rename_i h; simp only [execSeedCopy] at h; (repeat' split at h) <;> (simp only [Host.Outcome.next.injEq, reduceCtorEq] at h) <;> (subst h; simp)

theorem execSeedCopy_wf_dram :
    ∀ x0 x1 s t, Memory.wf s.dram = true → execSeedCopy x0 x1 s = .next t → Memory.wf (t).dram = true := by
  intros; rename_i hw h; simp only [execSeedCopy] at h; (repeat' split at h) <;> (simp only [Host.Outcome.next.injEq, reduceCtorEq] at h) <;> (subst h; simp +contextual [hw])

theorem execSeedCopy_frame_ws :
    ∀ x0 x1 s t, execSeedCopy x0 x1 s = .next t → (t).ws = s.ws := by
  intros; rename_i h; simp only [execSeedCopy] at h; (repeat' split at h) <;> (simp only [Host.Outcome.next.injEq, reduceCtorEq] at h) <;> (subst h; simp)

@[simp] theorem takeSeedAck_frame_pending :
    ∀ x0 x1 x2 s, (takeSeedAck x0 x1 x2 s).pending = s.pending := by
  intros; unfold takeSeedAck; (repeat' split) <;> simp

@[simp] theorem takeSeedAck_frame_time :
    ∀ x0 x1 x2 s, (takeSeedAck x0 x1 x2 s).time = s.time := by
  intros; unfold takeSeedAck; (repeat' split) <;> simp

@[simp] theorem takeSeedAck_frame_boxDie :
    ∀ x0 x1 x2 s, (takeSeedAck x0 x1 x2 s).boxDie = s.boxDie := by
  intros; unfold takeSeedAck; (repeat' split) <;> simp

@[simp] theorem takeSeedAck_frame_fuses :
    ∀ x0 x1 x2 s, (takeSeedAck x0 x1 x2 s).fuses = s.fuses := by
  intros; unfold takeSeedAck; (repeat' split) <;> simp

@[simp] theorem takeSeedAck_wf_dram :
    ∀ x0 x1 x2 s, Memory.wf s.dram = true → Memory.wf (takeSeedAck x0 x1 x2 s).dram = true := by
  intros; unfold takeSeedAck; (repeat' split) <;> simp +contextual [*]

@[simp] theorem takeSeedAck_wf_ws :
    ∀ x0 x1 x2 s, Memory.wf s.ws = true → Memory.wf (takeSeedAck x0 x1 x2 s).ws = true := by
  intros; unfold takeSeedAck; (repeat' split) <;> simp +contextual [*]

theorem execSeedAck_frame_pending :
    ∀ x0 x1 x2 s t, execSeedAck x0 x1 x2 s = .next t → (t).pending = s.pending := by
  intros; rename_i h; simp only [execSeedAck] at h; (repeat' split at h) <;> (simp only [Host.Outcome.next.injEq, reduceCtorEq] at h) <;> (subst h; simp)

theorem execSeedAck_frame_time :
    ∀ x0 x1 x2 s t, execSeedAck x0 x1 x2 s = .next t → (t).time = s.time := by
  intros; rename_i h; simp only [execSeedAck] at h; (repeat' split at h) <;> (simp only [Host.Outcome.next.injEq, reduceCtorEq] at h) <;> (subst h; simp)

theorem execSeedAck_frame_boxDie :
    ∀ x0 x1 x2 s t, execSeedAck x0 x1 x2 s = .next t → (t).boxDie = s.boxDie := by
  intros; rename_i h; simp only [execSeedAck] at h; (repeat' split at h) <;> (simp only [Host.Outcome.next.injEq, reduceCtorEq] at h) <;> (subst h; simp)

theorem execSeedAck_frame_fuses :
    ∀ x0 x1 x2 s t, execSeedAck x0 x1 x2 s = .next t → (t).fuses = s.fuses := by
  intros; rename_i h; simp only [execSeedAck] at h; (repeat' split at h) <;> (simp only [Host.Outcome.next.injEq, reduceCtorEq] at h) <;> (subst h; simp)

theorem execSeedAck_wf_dram :
    ∀ x0 x1 x2 s t, Memory.wf s.dram = true → execSeedAck x0 x1 x2 s = .next t → Memory.wf (t).dram = true := by
  intros; rename_i hw h; simp only [execSeedAck] at h; (repeat' split at h) <;> (simp only [Host.Outcome.next.injEq, reduceCtorEq] at h) <;> (subst h; simp +contextual [hw])

theorem execSeedAck_wf_ws :
    ∀ x0 x1 x2 s t, Memory.wf s.ws = true → execSeedAck x0 x1 x2 s = .next t → Memory.wf (t).ws = true := by
  intros; rename_i hw h; simp only [execSeedAck] at h; (repeat' split at h) <;> (simp only [Host.Outcome.next.injEq, reduceCtorEq] at h) <;> (subst h; simp +contextual [hw])

theorem execSeedHeaderSend_frame_pending :
    ∀ x0 s t, execSeedHeaderSend x0 s = .next t → (t).pending = s.pending := by
  intros; rename_i h; simp only [execSeedHeaderSend] at h; (repeat' split at h) <;> (simp only [Host.Outcome.next.injEq, reduceCtorEq] at h) <;> (subst h; simp)

theorem execSeedHeaderSend_frame_time :
    ∀ x0 s t, execSeedHeaderSend x0 s = .next t → (t).time = s.time := by
  intros; rename_i h; simp only [execSeedHeaderSend] at h; (repeat' split at h) <;> (simp only [Host.Outcome.next.injEq, reduceCtorEq] at h) <;> (subst h; simp)

theorem execSeedHeaderSend_frame_boxDie :
    ∀ x0 s t, execSeedHeaderSend x0 s = .next t → (t).boxDie = s.boxDie := by
  intros; rename_i h; simp only [execSeedHeaderSend] at h; (repeat' split at h) <;> (simp only [Host.Outcome.next.injEq, reduceCtorEq] at h) <;> (subst h; simp)

theorem execSeedHeaderSend_frame_fuses :
    ∀ x0 s t, execSeedHeaderSend x0 s = .next t → (t).fuses = s.fuses := by
  intros; rename_i h; simp only [execSeedHeaderSend] at h; (repeat' split at h) <;> (simp only [Host.Outcome.next.injEq, reduceCtorEq] at h) <;> (subst h; simp)

theorem execSeedHeaderSend_wf_dram :
    ∀ x0 s t, Memory.wf s.dram = true → execSeedHeaderSend x0 s = .next t → Memory.wf (t).dram = true := by
  intros; rename_i hw h; simp only [execSeedHeaderSend] at h; (repeat' split at h) <;> (simp only [Host.Outcome.next.injEq, reduceCtorEq] at h) <;> (subst h; simp +contextual [hw])

theorem execSeedHeaderSend_wf_ws :
    ∀ x0 s t, Memory.wf s.ws = true → execSeedHeaderSend x0 s = .next t → Memory.wf (t).ws = true := by
  intros; rename_i hw h; simp only [execSeedHeaderSend] at h; (repeat' split at h) <;> (simp only [Host.Outcome.next.injEq, reduceCtorEq] at h) <;> (subst h; simp +contextual [hw])

theorem execSeedHeaderRetry_frame_pending :
    ∀ x0 s t, execSeedHeaderRetry x0 s = .next t → (t).pending = s.pending := by
  intros; rename_i h; simp only [execSeedHeaderRetry] at h; (repeat' split at h) <;> (simp only [Host.Outcome.next.injEq, reduceCtorEq] at h) <;> (subst h; simp)

theorem execSeedHeaderRetry_frame_time :
    ∀ x0 s t, execSeedHeaderRetry x0 s = .next t → (t).time = s.time := by
  intros; rename_i h; simp only [execSeedHeaderRetry] at h; (repeat' split at h) <;> (simp only [Host.Outcome.next.injEq, reduceCtorEq] at h) <;> (subst h; simp)

theorem execSeedHeaderRetry_frame_boxDie :
    ∀ x0 s t, execSeedHeaderRetry x0 s = .next t → (t).boxDie = s.boxDie := by
  intros; rename_i h; simp only [execSeedHeaderRetry] at h; (repeat' split at h) <;> (simp only [Host.Outcome.next.injEq, reduceCtorEq] at h) <;> (subst h; simp)

theorem execSeedHeaderRetry_frame_fuses :
    ∀ x0 s t, execSeedHeaderRetry x0 s = .next t → (t).fuses = s.fuses := by
  intros; rename_i h; simp only [execSeedHeaderRetry] at h; (repeat' split at h) <;> (simp only [Host.Outcome.next.injEq, reduceCtorEq] at h) <;> (subst h; simp)

theorem execSeedHeaderRetry_wf_dram :
    ∀ x0 s t, Memory.wf s.dram = true → execSeedHeaderRetry x0 s = .next t → Memory.wf (t).dram = true := by
  intros; rename_i hw h; simp only [execSeedHeaderRetry] at h; (repeat' split at h) <;> (simp only [Host.Outcome.next.injEq, reduceCtorEq] at h) <;> (subst h; simp +contextual [hw])

theorem execSeedHeaderRetry_wf_ws :
    ∀ x0 s t, Memory.wf s.ws = true → execSeedHeaderRetry x0 s = .next t → Memory.wf (t).ws = true := by
  intros; rename_i hw h; simp only [execSeedHeaderRetry] at h; (repeat' split at h) <;> (simp only [Host.Outcome.next.injEq, reduceCtorEq] at h) <;> (subst h; simp +contextual [hw])

theorem execSeedAbort_frame_pending :
    ∀ x0 s t, execSeedAbort x0 s = .next t → (t).pending = s.pending := by
  intros; rename_i h; simp only [execSeedAbort] at h; (repeat' split at h) <;> (simp only [Host.Outcome.next.injEq, reduceCtorEq] at h) <;> (subst h; simp)

theorem execSeedAbort_frame_time :
    ∀ x0 s t, execSeedAbort x0 s = .next t → (t).time = s.time := by
  intros; rename_i h; simp only [execSeedAbort] at h; (repeat' split at h) <;> (simp only [Host.Outcome.next.injEq, reduceCtorEq] at h) <;> (subst h; simp)

theorem execSeedAbort_frame_boxDie :
    ∀ x0 s t, execSeedAbort x0 s = .next t → (t).boxDie = s.boxDie := by
  intros; rename_i h; simp only [execSeedAbort] at h; (repeat' split at h) <;> (simp only [Host.Outcome.next.injEq, reduceCtorEq] at h) <;> (subst h; simp)

theorem execSeedAbort_frame_fuses :
    ∀ x0 s t, execSeedAbort x0 s = .next t → (t).fuses = s.fuses := by
  intros; rename_i h; simp only [execSeedAbort] at h; (repeat' split at h) <;> (simp only [Host.Outcome.next.injEq, reduceCtorEq] at h) <;> (subst h; simp)

theorem execSeedAbort_wf_dram :
    ∀ x0 s t, Memory.wf s.dram = true → execSeedAbort x0 s = .next t → Memory.wf (t).dram = true := by
  intros; rename_i hw h; simp only [execSeedAbort] at h; (repeat' split at h) <;> (simp only [Host.Outcome.next.injEq, reduceCtorEq] at h) <;> (subst h; simp +contextual [hw])

theorem execSeedAbort_wf_ws :
    ∀ x0 s t, Memory.wf s.ws = true → execSeedAbort x0 s = .next t → Memory.wf (t).ws = true := by
  intros; rename_i hw h; simp only [execSeedAbort] at h; (repeat' split at h) <;> (simp only [Host.Outcome.next.injEq, reduceCtorEq] at h) <;> (subst h; simp +contextual [hw])

/-! ### Topology -/

@[simp] theorem withdrawAll_frame :
    ∀ s, (withdrawAll s).pending = s.pending ∧ (withdrawAll s).time = s.time ∧ (withdrawAll s).boxDie = s.boxDie ∧ (withdrawAll s).fuses = s.fuses ∧ (withdrawAll s).dram = s.dram ∧ (withdrawAll s).ws = s.ws := by
  intros; simp [withdrawAll]

@[simp] theorem commitPlan_frame :
    ∀ x0 s, (commitPlan x0 s).pending = s.pending ∧ (commitPlan x0 s).time = s.time ∧ (commitPlan x0 s).boxDie = s.boxDie ∧ (commitPlan x0 s).fuses = s.fuses ∧ (commitPlan x0 s).dram = s.dram ∧ (commitPlan x0 s).ws = s.ws := by
  intros; simp [commitPlan]

theorem execLoadPlan_frame_pending :
    ∀ x0 s t, execLoadPlan x0 s = .next t → (t).pending = s.pending := by
  intros; rename_i h; simp only [execLoadPlan, readThen] at h; (repeat' split at h) <;> (simp only [Host.Outcome.next.injEq, reduceCtorEq] at h) <;> (subst h; simp)

theorem execLoadPlan_frame_time :
    ∀ x0 s t, execLoadPlan x0 s = .next t → (t).time = s.time := by
  intros; rename_i h; simp only [execLoadPlan, readThen] at h; (repeat' split at h) <;> (simp only [Host.Outcome.next.injEq, reduceCtorEq] at h) <;> (subst h; simp)

theorem execLoadPlan_frame_boxDie :
    ∀ x0 s t, execLoadPlan x0 s = .next t → (t).boxDie = s.boxDie := by
  intros; rename_i h; simp only [execLoadPlan, readThen] at h; (repeat' split at h) <;> (simp only [Host.Outcome.next.injEq, reduceCtorEq] at h) <;> (subst h; simp)

theorem execLoadPlan_frame_fuses :
    ∀ x0 s t, execLoadPlan x0 s = .next t → (t).fuses = s.fuses := by
  intros; rename_i h; simp only [execLoadPlan, readThen] at h; (repeat' split at h) <;> (simp only [Host.Outcome.next.injEq, reduceCtorEq] at h) <;> (subst h; simp)

theorem execLoadPlan_wf_dram :
    ∀ x0 s t, Memory.wf s.dram = true → execLoadPlan x0 s = .next t → Memory.wf (t).dram = true := by
  intros; rename_i hw h; simp only [execLoadPlan, readThen] at h; (repeat' split at h) <;> (simp only [Host.Outcome.next.injEq, reduceCtorEq] at h) <;> (subst h; simp +contextual [hw])

theorem execLoadPlan_wf_ws :
    ∀ x0 s t, Memory.wf s.ws = true → execLoadPlan x0 s = .next t → Memory.wf (t).ws = true := by
  intros; rename_i hw h; simp only [execLoadPlan, readThen] at h; (repeat' split at h) <;> (simp only [Host.Outcome.next.injEq, reduceCtorEq] at h) <;> (subst h; simp +contextual [hw])

@[simp] theorem dropDeadRoutes_frame :
    ∀ s, (dropDeadRoutes s).pending = s.pending ∧ (dropDeadRoutes s).time = s.time ∧ (dropDeadRoutes s).boxDie = s.boxDie ∧ (dropDeadRoutes s).fuses = s.fuses ∧ (dropDeadRoutes s).dram = s.dram ∧ (dropDeadRoutes s).ws = s.ws := by
  intros; unfold dropDeadRoutes; (repeat' split) <;> simp

theorem execSetLive_frame :
    ∀ x0 s t, execSetLive x0 s = .next t → (t).pending = s.pending ∧ (t).time = s.time ∧ (t).boxDie = s.boxDie ∧ (t).fuses = s.fuses ∧ (t).dram = s.dram ∧ (t).ws = s.ws := by
  intros; rename_i h; simp only [execSetLive] at h; (repeat' split at h) <;> (simp only [Host.Outcome.next.injEq, reduceCtorEq] at h) <;> (subst h; simp)

theorem execAdmitLink_frame :
    ∀ x0 s t, execAdmitLink x0 s = .next t → (t).pending = s.pending ∧ (t).time = s.time ∧ (t).boxDie = s.boxDie ∧ (t).fuses = s.fuses ∧ (t).dram = s.dram ∧ (t).ws = s.ws := by
  intros; rename_i h; simp only [execAdmitLink] at h; (repeat' split at h) <;> (simp only [Host.Outcome.next.injEq, reduceCtorEq] at h) <;> (subst h; simp)

theorem execAdmitWithdraw_frame :
    ∀ x0 s t, execAdmitWithdraw x0 s = .next t → (t).pending = s.pending ∧ (t).time = s.time ∧ (t).boxDie = s.boxDie ∧ (t).fuses = s.fuses ∧ (t).dram = s.dram ∧ (t).ws = s.ws := by
  intros; rename_i h; simp only [execAdmitWithdraw] at h; (repeat' split at h) <;> (simp only [Host.Outcome.next.injEq, reduceCtorEq] at h) <;> (subst h; simp)

/-! ### Place -/

@[simp] theorem asSerial_frame_pending :
    ∀ s x1, (asSerial s x1).pending = s.pending := by
  intros; simp [asSerial]

@[simp] theorem asSerial_frame_time :
    ∀ s x1, (asSerial s x1).time = s.time := by
  intros; simp [asSerial]

@[simp] theorem asSerial_frame_boxDie :
    ∀ s x1, (asSerial s x1).boxDie = s.boxDie := by
  intros; simp [asSerial]

@[simp] theorem asSerial_frame_dram :
    ∀ s x1, (asSerial s x1).dram = s.dram := by
  intros; simp [asSerial]

@[simp] theorem asSerial_frame_ws :
    ∀ s x1, (asSerial s x1).ws = s.ws := by
  intros; simp [asSerial]

theorem placeRecord_frame_pending :
    ∀ x0 x1 s t, placeRecord x0 x1 s = some t → (t).pending = s.pending := by
  intros; rename_i h; unfold placeRecord at h; simp only [] at h; (repeat' split at h) <;> (first | (simp only [Option.some.injEq] at h; subst h; simp) | simp at h)

theorem placeRecord_frame_time :
    ∀ x0 x1 s t, placeRecord x0 x1 s = some t → (t).time = s.time := by
  intros; rename_i h; unfold placeRecord at h; simp only [] at h; (repeat' split at h) <;> (first | (simp only [Option.some.injEq] at h; subst h; simp) | simp at h)

theorem placeRecord_frame_boxDie :
    ∀ x0 x1 s t, placeRecord x0 x1 s = some t → (t).boxDie = s.boxDie := by
  intros; rename_i h; unfold placeRecord at h; simp only [] at h; (repeat' split at h) <;> (first | (simp only [Option.some.injEq] at h; subst h; simp) | simp at h)

theorem placeRecord_frame_fuses :
    ∀ x0 x1 s t, placeRecord x0 x1 s = some t → (t).fuses = s.fuses := by
  intros; rename_i h; unfold placeRecord at h; simp only [] at h; (repeat' split at h) <;> (first | (simp only [Option.some.injEq] at h; subst h; simp) | simp at h)

theorem placeRecord_wf_dram :
    ∀ x0 x1 s t, Memory.wf s.dram = true → placeRecord x0 x1 s = some t → Memory.wf (t).dram = true := by
  intros; rename_i hw h; unfold placeRecord at h; dsimp only at h; (repeat' split at h) <;> (first | (simp only [Option.some.injEq] at h; subst h; simp [hw]) | simp at h)

theorem placeRecord_frame_ws :
    ∀ x0 x1 s t, placeRecord x0 x1 s = some t → (t).ws = s.ws := by
  intros; rename_i h; unfold placeRecord at h; simp only [] at h; (repeat' split at h) <;> (first | (simp only [Option.some.injEq] at h; subst h; simp) | simp at h)

theorem placeList_frame : ∀ x0 l s t, placeList x0 l s = some t → t.pending = s.pending ∧ t.time = s.time ∧ t.boxDie = s.boxDie ∧ t.fuses = s.fuses ∧ t.ws = s.ws := by
  intro n l; induction l with
  | nil => intro s t h; simp only [placeList, Option.some.injEq] at h; subst h; simp
  | cons x r ih =>
   intro s t h; simp only [placeList] at h; split at h
   · simp at h
   · have h1 := placeRecord_frame_pending _ _ _ _ (by assumption)
     have h3 := placeRecord_frame_time _ _ _ _ (by assumption)
     have h4 := placeRecord_frame_boxDie _ _ _ _ (by assumption)
     have h5 := placeRecord_frame_fuses _ _ _ _ (by assumption)
     have h6 := placeRecord_frame_ws _ _ _ _ (by assumption)
     have h2 := ih _ _ h
     simp_all

theorem placeList_wf_dram : ∀ x0 l s t, Memory.wf s.dram = true → placeList x0 l s = some t → Memory.wf t.dram = true := by
  intro n l; induction l with
  | nil => intro s t hw h; simp only [placeList, Option.some.injEq] at h; subst h; exact hw
  | cons x r ih =>
   intro s t hw h; simp only [placeList] at h; split at h
   · simp at h
   · exact ih _ _ (placeRecord_wf_dram _ _ _ _ hw (by assumption)) h

@[simp] theorem linkShard_frame_pending :
    ∀ x0 x1 x2 s, (linkShard x0 x1 x2 s).pending = s.pending := by
  intros; unfold linkShard; (repeat' split) <;> simp

@[simp] theorem linkShard_frame_time :
    ∀ x0 x1 x2 s, (linkShard x0 x1 x2 s).time = s.time := by
  intros; unfold linkShard; (repeat' split) <;> simp

@[simp] theorem linkShard_frame_boxDie :
    ∀ x0 x1 x2 s, (linkShard x0 x1 x2 s).boxDie = s.boxDie := by
  intros; unfold linkShard; (repeat' split) <;> simp

@[simp] theorem linkShard_frame_fuses :
    ∀ x0 x1 x2 s, (linkShard x0 x1 x2 s).fuses = s.fuses := by
  intros; unfold linkShard; (repeat' split) <;> simp

@[simp] theorem linkShard_wf_dram :
    ∀ x0 x1 x2 s, Memory.wf s.dram = true → Memory.wf (linkShard x0 x1 x2 s).dram = true := by
  intros; unfold linkShard; (repeat' split) <;> simp +contextual [*]

@[simp] theorem linkShard_frame_ws :
    ∀ x0 x1 x2 s, (linkShard x0 x1 x2 s).ws = s.ws := by
  intros; unfold linkShard; (repeat' split) <;> simp

theorem placeRecords_frame : ∀ s x1 x2 t, placeRecords s x1 x2 = some t → t.pending = s.pending ∧ t.time = s.time ∧ t.boxDie = s.boxDie ∧ t.fuses = s.fuses ∧ t.ws = s.ws := by
  intro s p l t h; unfold placeRecords at h; split at h
  · simp only [Option.some.injEq] at h; subst h; simp
  · simp only [Option.map_eq_some_iff] at h
    obtain ⟨u, hu, rfl⟩ := h
    have h1 := placeList_frame _ _ _ _ hu
    refine ⟨Eq.trans (foldl_same State.pending _ ?_ _ _) h1.1, Eq.trans (foldl_same State.time _ ?_ _ _) h1.2.1, Eq.trans (foldl_same State.boxDie _ ?_ _ _) h1.2.2.1, Eq.trans (foldl_same State.fuses _ ?_ _ _) h1.2.2.2.1, Eq.trans (foldl_same State.ws _ ?_ _ _) h1.2.2.2.2⟩ <;> (intro s x; simp)

theorem placeRecords_wf_dram : ∀ s x1 x2 t, Memory.wf s.dram = true → placeRecords s x1 x2 = some t → Memory.wf t.dram = true := by
  intro s p l t hw h; unfold placeRecords at h; split at h
  · simp only [Option.some.injEq] at h; subst h; exact hw
  · simp only [Option.map_eq_some_iff] at h
    obtain ⟨u, hu, rfl⟩ := h
    refine foldl_wfd _ ?_ _ _ (placeList_wf_dram _ _ _ _ hw hu)
    intro s x hs; simp [hs]

@[simp] theorem placeRequest_frame : ∀ x0 x1 x2 x3 s, (placeRequest x0 x1 x2 x3 s).pending = s.pending ∧ (placeRequest x0 x1 x2 x3 s).time = s.time ∧ (placeRequest x0 x1 x2 x3 s).boxDie = s.boxDie ∧ (placeRequest x0 x1 x2 x3 s).fuses = s.fuses ∧ (placeRequest x0 x1 x2 x3 s).ws = s.ws := by
  intros; simp only [placeRequest]
  (repeat' split) <;> (try have hp := placeRecords_frame _ _ _ _ (by assumption)) <;> simp_all

@[simp] theorem placeRequest_wf_dram : ∀ x0 x1 x2 x3 s, Memory.wf s.dram = true → Memory.wf (placeRequest x0 x1 x2 x3 s).dram = true := by
  intros; rename_i hw; simp only [placeRequest]
  (repeat' split) <;> (try have hp := placeRecords_wf_dram _ _ _ _ hw (by assumption)) <;> simp_all

theorem execPlace_frame_pending :
    ∀ x0 s t, execPlace x0 s = .next t → (t).pending = s.pending := by
  intros; rename_i h; simp only [execPlace, readThen] at h; (repeat' split at h) <;> (simp only [Host.Outcome.next.injEq, reduceCtorEq] at h) <;> (subst h; simp)

theorem execPlace_frame_time :
    ∀ x0 s t, execPlace x0 s = .next t → (t).time = s.time := by
  intros; rename_i h; simp only [execPlace, readThen] at h; (repeat' split at h) <;> (simp only [Host.Outcome.next.injEq, reduceCtorEq] at h) <;> (subst h; simp)

theorem execPlace_frame_boxDie :
    ∀ x0 s t, execPlace x0 s = .next t → (t).boxDie = s.boxDie := by
  intros; rename_i h; simp only [execPlace, readThen] at h; (repeat' split at h) <;> (simp only [Host.Outcome.next.injEq, reduceCtorEq] at h) <;> (subst h; simp)

theorem execPlace_frame_fuses :
    ∀ x0 s t, execPlace x0 s = .next t → (t).fuses = s.fuses := by
  intros; rename_i h; simp only [execPlace, readThen] at h; (repeat' split at h) <;> (simp only [Host.Outcome.next.injEq, reduceCtorEq] at h) <;> (subst h; simp)

theorem execPlace_wf_dram :
    ∀ x0 s t, Memory.wf s.dram = true → execPlace x0 s = .next t → Memory.wf (t).dram = true := by
  intros; rename_i hw h; simp only [execPlace, readThen] at h; (repeat' split at h) <;> (simp only [Host.Outcome.next.injEq, reduceCtorEq] at h) <;> (subst h) <;> (try (simp +contextual [hw]; done))
  exact placeRequest_wf_dram _ _ _ _ _ (readErrors_wf_dram _ _ _ _ (readErrors_wf_dram _ _ _ _ hw))

theorem execPlace_wf_ws :
    ∀ x0 s t, Memory.wf s.ws = true → execPlace x0 s = .next t → Memory.wf (t).ws = true := by
  intros; rename_i hw h; simp only [execPlace, readThen] at h; (repeat' split at h) <;> (simp only [Host.Outcome.next.injEq, reduceCtorEq] at h) <;> (subst h; simp +contextual [hw])

/-! ### Idle -/

@[simp] theorem idleSeed_frame_pending :
    ∀ s, (idleSeed s).pending = s.pending := by
  intros; simp [idleSeed]

@[simp] theorem idleSeed_frame_time :
    ∀ s, (idleSeed s).time = s.time := by
  intros; simp [idleSeed]

@[simp] theorem idleSeed_frame_boxDie :
    ∀ s, (idleSeed s).boxDie = s.boxDie := by
  intros; simp [idleSeed]

@[simp] theorem idleSeed_frame_fuses :
    ∀ s, (idleSeed s).fuses = s.fuses := by
  intros; simp [idleSeed]

@[simp] theorem idleSeed_wf_dram :
    ∀ s, Memory.wf s.dram = true → Memory.wf (idleSeed s).dram = true := by
  intros; unfold idleSeed; (repeat' split) <;> simp +contextual [*]

@[simp] theorem idleSeed_frame_ws :
    ∀ s, (idleSeed s).ws = s.ws := by
  intros; simp [idleSeed]

@[simp] theorem idleDgram_frame_pending :
    ∀ s, (idleDgram s).pending = s.pending := by
  intros; simp [idleDgram]

@[simp] theorem idleDgram_frame_time :
    ∀ s, (idleDgram s).time = s.time := by
  intros; simp [idleDgram]

@[simp] theorem idleDgram_frame_boxDie :
    ∀ s, (idleDgram s).boxDie = s.boxDie := by
  intros; simp [idleDgram]

@[simp] theorem idleDgram_frame_fuses :
    ∀ s, (idleDgram s).fuses = s.fuses := by
  intros; simp [idleDgram]

@[simp] theorem idleDgram_wf_dram :
    ∀ s, Memory.wf s.dram = true → Memory.wf (idleDgram s).dram = true := by
  intros; unfold idleDgram; (repeat' split) <;> simp +contextual [*]

@[simp] theorem idleDgram_wf_ws :
    ∀ s, Memory.wf s.ws = true → Memory.wf (idleDgram s).ws = true := by
  intros; unfold idleDgram; (repeat' split) <;> simp +contextual [*]

@[simp] theorem idle_frame : ∀ s, (idle s).pending = s.pending ∧ (idle s).boxDie = s.boxDie ∧ (idle s).fuses = s.fuses := by
  intro s; simp [idle]

@[simp] theorem idle_wf_dram : ∀ s, Memory.wf s.dram = true → Memory.wf (idle s).dram = true := by
  intro s hw; exact idleDgram_wf_dram _ (idleSeed_wf_dram _ (serveCopies_wf_dram _ (by simpa using hw)))

@[simp] theorem idle_wf_ws : ∀ s, Memory.wf s.ws = true → Memory.wf (idle s).ws = true := by
  intro s hw; exact idleDgram_wf_ws _ (by rw [idleSeed_frame_ws]; exact serveCopies_wf_ws _ (by simpa using hw))

@[simp] theorem idle_time : ∀ s, (idle s).time = s.time + 1 := by
  intro s; simp [idle]

end Sys2Proof.Machine
end

