-- ==== Sys2Proof/Laws/Registers.lean ====
section
/-! SUPPORT. Accesses that reach a register. -/

namespace Sys2Proof.Machine

/-- The offset of a register addresses it, on a boundary of the window span. -/
theorem regAt_regOffset (r : Reg) : regAt (regOffset r) = some r ∧ offsetOk (regOffset r) = true := by
  cases r <;> first | decide | skip
  rename_i n; revert n; decide

/-- A write to a register with no sticky bits is as its fields say; where hardware updates a field too, the write is remembered. -/
theorem writeReg_plain (who : Requester) (sel : Selectors) (v : W64) (s : State) (r : Reg) (h : isW1c r = false) :
    writeReg who sel v s r = noteWrite sel v r (regWrite who sel v s r) := by
  simp [writeReg, h]

/-- A read of a register with no field that a read clears gives its value and changes nothing. -/
theorem read_plain (sel : Selectors) (s : State) (r : Reg) (h : rcFields r = []) :
    readValue sel s r = regValue sel s r ∧ afterRead sel s r = s := by
  have hv : r ≠ .mbxViol := by rintro rfl; simp [rcFields] at h
  simp [readValue, afterRead, h, hv]

/-- A write that reaches a register changes that register, and is counted nowhere. -/
theorem accessWrite_reaches (who : Requester) (r : Reg) (v : W64) (s : State) (h : reaches who r true s = true) (hr : r ≠ .prjStatus) :
    accessWrite who (regOffset r) v s = writeReg who (selOf who s) v s r := by
  simp only [reaches, Bool.and_eq_true, decide_eq_true_eq, Bool.not_eq_true'] at h
  unfold accessWrite
  simp only [(regAt_regOffset r).1, (regAt_regOffset r).2, h.1.2, h.2, sharesOut, if_neg hr]
  simp

theorem writeRow_reaches (who : Requester) (r : Reg) (v : W64) (s : State) (h : reaches who r true s = true) (hr : r ≠ .prjStatus) :
    writeRow r who v s = writeReg who (selOf who s) v s r := by
  have h' := h
  simp only [reaches, Bool.and_eq_true] at h'
  unfold writeRow; rw [if_pos h'.1.1]; exact accessWrite_reaches who r v s h hr

/-- A read that reaches a register with no open bits and no shared ones gives its value and clears what a read of it clears. -/
theorem readRow_reaches (who : Requester) (r : Reg) (s : State) (h : reaches who r false s = true) (hr : r ≠ .prjStatus)
    (ho : readsOpen (selOf who s) s r = false) :
    readRow r who s = emit (.regValue who (readValue (selOf who s) s r)) (afterRead (selOf who s) s r) := by
  have h' := h
  simp only [reaches, Bool.and_eq_true, decide_eq_true_eq, Bool.not_eq_true'] at h'
  unfold readRow; rw [if_pos h'.1.1]
  unfold accessRead
  simp only [(regAt_regOffset r).1, (regAt_regOffset r).2, h'.1.2, h'.2, sharesOut, if_neg hr, ho]
  simp
  rw [show (18446744073709551615#64) = BitVec.allOnes 64 from rfl, BitVec.and_allOnes]

end Sys2Proof.Machine
end

