-- ==== Sys2Proof/Laws/Word.lean ====
section
/-! SUPPORT. What the plain operations of Word.lean do. -/

namespace Sys2Proof

theorem satAdd_le (max a b : Nat) : satAdd max a b ≤ max := Nat.min_le_left _ _

theorem satAdd_mono (max a b : Nat) (h : a ≤ max) : a ≤ satAdd max a b := by
  unfold satAdd; omega

@[simp] theorem vset_same {α : Type} {n : Nat} (v : Vector α n) (i : Fin n) (x : α) : (vset v i x)[i.val] = x := by
  simp [vset]

@[simp] theorem vmod_same {α : Type} {n : Nat} (v : Vector α n) (i : Fin n) (f : α → α) :
    (vmod v i f)[i.val] = f v[i.val] := by
  simp [vmod]

theorem vset_other {α : Type} {n : Nat} (v : Vector α n) (i j : Fin n) (x : α) (h : i ≠ j) :
    (vset v i x)[j.val] = v[j.val] := by
  simp [vset, Fin.val_ne_of_ne h]

theorem vmod_other {α : Type} {n : Nat} (v : Vector α n) (i j : Fin n) (f : α → α) (h : i ≠ j) :
    (vmod v i f)[j.val] = v[j.val] := by
  simp [vmod, Fin.val_ne_of_ne h]

end Sys2Proof
end

