-- ==== Sys2Proof/WellFormed.lean ====
section
/-! DEFINITION. Which operands are well formed: the bounds that hold for anything the outside can send. -/

namespace Sys2Proof

/-- A UDP payload of the host port: a frame is at most 9,216 bytes (Table Host-1), an address 4 or 16 bytes. -/
def addrWf (a : List Byte) : Bool := decide (a.length = 4) || decide (a.length = 16)

/-- A datagram whose payload fits a MAC frame (Table Host-1). -/
def dgramWf (d : Dgram) : Bool := decide (d.bytes.length ≤ 9170) && addrWf d.peer.addr

/-- A packet of one kind whose PLEN is at most 4,076 (R240). -/
def packetWf (kind : Byte) (pk : Packet) : Bool := (pk.kind == kind) && decide (pk.bytes.length ≤ 4076)

/-- A step number is 64 bits, a cue index 16 (Table Cue-3, Table Cue-4). -/
def instWf (step cue : Nat) : Bool := decide (step < 2 ^ 64) && decide (cue < 65536)

/-- An access lies in the data space (R130). -/
def errsWf (errs : List AccErr) : Bool := errs.all (fun e => decide (e.access < 89478485 * 128))

/-- Accesses named by an error of a read lie in the data space (R130). -/
def harnWf : HarnErr → Bool
  | .dram errs => errsWf errs
  | .clean | .corrected | .words _ | .descriptor | .residue => true

/-- A superframe is 1,452 blocks of 65 symbols (R218, Table Lanes-1). -/
def superframeWf (rx : SuperframeRx) : Bool := decide (rx.line.length = 94380)

/-- Every operand is one that the outside can send. -/
def Instr.wf : Instr → Bool
  | .open_ d => dgramWf d
  | .auth d => dgramWf d
  | .close d => dgramWf d
  | .keep d => dgramWf d
  | .post d => dgramWf d
  | .read d => dgramWf d
  | .bulkW d => dgramWf d
  | .bulkR d errs => dgramWf d && errsWf errs
  | .evack d => dgramWf d
  | .registerWrite _ offset _ => decide (offset < 2 ^ 32)
  | .time _ pk => packetWf 0x06 pk
  | .notice _ pk => packetWf 0x07 pk
  | .cueLaunch step cue => instWf step cue
  | .deadline step cue => instWf step cue
  | .actionTick step cue => instWf step cue
  | .contrib _ pk err => packetWf 0x01 pk && harnWf err
  | .partial_ _ pk err => packetWf 0x02 pk && harnWf err
  | .groomIssue _ _ errs err => errsWf errs && harnWf err
  | .headDigestFold _ step _ => decide (step < 2 ^ 64)
  | .window _ pk => packetWf 0x04 pk
  | .mcast _ pk => packetWf 0x03 pk
  | .broadcastRead step cue errs => instWf step cue && errsWf errs
  | .load step cue errs => instWf step cue && errsWf errs
  | .store step cue => instWf step cue
  | .zeroMoments step cue errs => instWf step cue && errsWf errs
  | .convert step cue err => instWf step cue && harnWf err
  | .seedHdr _ pk => packetWf 0x08 pk
  | .seedCopy _ pk => packetWf 0x09 pk
  | .seedAck _ pk errs => packetWf 0x0A pk && errsWf errs
  | .call _ pk => packetWf 0x05 pk
  | .user _ pk => packetWf 0x10 pk
  | .superframeReceived _ rx => superframeWf rx
  | .laneLocked _ _ heads => decide (heads.length = 64)
  | .laneMarked _ m0 m1 next _ => decide (m0.length = 64) && decide (m1.length = 64) && decide (next.length = 64)
  | .blockLoss _ heads => decide (heads.length = 1024)
  | .dataFrame _ n => decide (1 ≤ n) && decide (n ≤ 64)
  | .icmpEcho fr src dst _ body => addrWf src.addr && addrWf dst && decide (body.length + 40 ≤ fr.len)
  | .lldpdu _ chassis portId => decide (chassis.length ≤ 256) && decide (portId.length ≤ 256)
  | .leaveRequest step cue => instWf step cue
  | .windowOpen step entry => decide (step < 2 ^ 64) && decide (entry < 4096)
  | .boxReading bytes _ => decide (bytes.length = 192)
  | .fwWrite _ data => decide (data.length = 256)
  | .resetExit samples => decide (samples.length ≤ 4) && samples.all (fun x => decide (x.length = 8))
  | .optDone reads => decide (reads.length ≤ 3) && reads.all (fun r => match r with | some b => decide (b.length = 4168) | none => true)
  | .moveDone step cue => instWf step cue
  | .convertDone step cue => instWf step cue
  | .spillDone _ err => harnWf err
  | .reloadDone _ err => errsWf err.dram && harnWf err.harn
  | .scaleWindowFill _ _ errs => errsWf errs
  | .digestDone _ _ err => harnWf err
  | .seedHeaderSend errs => errsWf errs
  | .seedHeaderRetry errs => errsWf errs
  | .bandForm _ _ errs err => errsWf errs && harnWf err
  | .bandStage _ _ err => harnWf err
  | .bandSend _ _ err => harnWf err
  | .bandOut _ _ err => harnWf err
  | .auditDone errs => errsWf errs
  | .intakeResume _ err => harnWf err
  | .castIssue _ _ err => harnWf err
  | .slotRelease _ _ err => harnWf err
  | .loadSheet c | .startRun c | .progress c | .loadPlan c | .place c | .shardCreate c | .shardRemove c | .promote c
  | .endorse c _ | .fwStage c _ _ => errsWf c.errs
  | .regRead (.prompter offset) => decide (offset < 2 ^ 32)
  | .regRead (.command _) | .lockoutExpiry | .authTimeout _ | .sessionTimeout _ | .commandEnd _ | .eventResend _ | .info _
  | .stop _ | .stopRecovery _ | .drainEnd | .readmit _ | .pbAck _
  | .setLive _ | .admitLink _ | .admitWithdraw _ | .zeroFillDone _
  | .regWrite _ | .enroll _ | .revoke _ | .operatorTableErase | .ident _ | .attest _
  | .fwActivate _ | .fwCommit _ _ | .fwStatus _ | .keyRevoke _ | .leaveInfo _
  | .boxLast _ | .boxCopy _ | .faultInfo _ | .faultReact _ | .faultInject _ | .epochArm _ _ | .swCold _ _
  | .swWarm _ _ | .softwareResetEnd _ | .rstBlock _ _ | .stateAudit _ _ | .beat _ _ | .fatal _ _ | .nmiAck _ _
  | .fltSrcCtrl _ _ | .schedShaper _ _ | .schedPolicer _ _ | .swcCredit _ _ _ | .localRes _ _ | .swcRtStatic _ _
  | .swcRtSpray _ _ | .leaveCtrl _ _ | .lanePortCtrl _ _ | .outrCtrl _ _ | .wdrOvfCount _ | .wdrVoidCount _
  | .harnSpillCount _ | .harnMbrCnt _ | .outrEvents _ | .laneErrCount _ | .linkErrCount _ | .swcDropCount _
  | .schedQstat _ | .mbxDropCount _ | .mbxViol _ | .tmarkEdge | .gridPointJudged | .slewCorrection | .holdoverExpiry
  | .noticeTimeout | .pllUnlock | .pllRelock | .timeExchangeStart | .noticeSend | .noticeApply | .stepOpen
  | .groomWritesDone _ _ | .multicast _ _ | .patrolScrub _ _ | .seedAbort _ | .passIssue _ _ _ _ _ | .passDone _ _
  | .residualWrite _ _ | .playbillWrite | .signatureComplete | .markLoss _ | .los _ | .infoWordFixed _
  | .superframeStart _ | .idleRequest _ | .idleExitRequest _ | .energyDetected _ | .wakeTimeout _ | .linkCell _
  | .hello _ | .rollcall _ | .linkCellSend _ | .helloSend _ | .rollcallSend _ | .replayTimeout _ | .portUp _
  | .portDown _ | .frameAtOutput _ _ _ | .egressFrameStart _ _ | .historyUpdate | .queueSample
  | .reorderTimeout _ _ _ | .reorderContextFree _ _ _ | .hostLinkUp _ | .dhcpTimeout _ | .dhcpLease _ _ | .lldpSend _
  | .sync _ _ _ _ _ _ _ | .ptpSyncLoss | .prompterRelease _ _ | .heartbeatTimeout | .bootTimeout | .nmiTimeout
  | .restartRelease | .aliveToggle | .leaveGrant | .leaveRelease _ | .windowEnd _ | .issueTailEnd _ | .rampStep _
  | .throttleUpdate _ | .boxRecord _ _ | .logRecord _ | .boxLost | .readingClose _ _ _ | .checkpoint | .boxPowerUp | .sealChange _
  | .readLast | .readId | .readCkpt | .readLog _ | .status | .setCap _ _ | .boxFwCommit _ | .faultRaise _
  | .blockResetEnd | .reactionComplete _ | .conditionGone _ | .quietExpiry _ | .logDrain | .supplyExcursion _
  | .thermalThreshold _ | .standbyPor _ | .mainPor _ _ | .resetN _ | .warmN _ | .warmEntryEnd | .warmEntryTimeout
  | .ondieReady | .refLock | .refclkLate | .lpddr6Trained | .memReady | .sampleCheckEnd _ _ _ _ _ | .hostLinkDown _
  | .arpRequest _ _ _ _ | .neighborDiscovery _ _ | .duplicateAddressDetection _ _ _ | .announce _ _
  | .followUp _ _ _ _ _ | .delayResp _ _ _ _ _ => true

end Sys2Proof
end

