-- ==== Sys2Proof/Tests/Slice0.lean ====
section
/-! SUPPORT. Tests: states to start from; for every statement with hypotheses one theorem with a concrete state and operands for
each of its clauses; ill-formed commands that WellFormed refuses; values that the spec writes out. -/

namespace Sys2Proof.Tests
set_option Elab.async false
open Sys2Proof Sys2Proof.Machine

/-! ### States to start from -/

def peer0 : Peer := ⟨[10, 0, 0, 2], 5000⟩

def sess0 : Session :=
  { id := 7, peer := peer0, port := 0, vlan := none, ready := true, opid := 1, priv := 2, mbxFirst := 0, mbxCount := 4, maxdg := 9146
    keepMs := 1000, evmask := 0, openPay := [], openRPay := [], lastAt := 0, openedAt := 0 }

/-- Out of reset: Prompter running, memory ready, host port 0 up with an address, one session with mailbox 0, door and clock running. -/
def base : State :=
  { time := 4000000000000
    rst := { held := false, ondie := true, memReady := true, refLock := true, asserted := 0, seen := 0 }
    prm := { running := true }
    stg := { released := true, st := .rack, now := 100000 }
    door := { st := .running }
    host :=
      { eth := vset (Vector.replicate 2 ({} : EthPort)) 0 { up := true, lease := some 0x0A000001, addrs6 := [0xFE80_0000_0000_0000_0000_0000_0000_0001] }
        sessions := [sess0], mboxes := vset (Vector.replicate 64 ({} : Mailbox)) 0 { owner := some 7 } } }

def cmd (code : Nat) (args : List Byte) : Cmd := { id := 0, session := 7, mbx := 0, seq := 1, code := BitVec.ofNat 16 code, args := args, priv := 2 }

/-- `s` with one accepted command, number 0. -/
def withCmd (code : Nat) (args : List Byte) (s : State) : State := { s with host := { s.host with cmds := [cmd code args] } }

def dg (kind : Byte) (session seq : BitVec 32) (mbx : Byte) (pay : List Byte) : Dgram := ⟨0, peer0, none, promptBytes 0x10 kind session seq mbx 0 0 pay, .plain⟩

def withSession (x : Session) (s : State) : State := { s with host := { s.host with sessions := [x] } }

def withMbx (m : Mailbox) (s : State) : State := { s with host := { s.host with mboxes := vset s.host.mboxes 0 m } }

/-- A requester of the privileged window. -/
def priv : Requester := .window 7 2

/-- The bytes of a 256-byte liberty sheet with no sections, in the SHEET window. -/
def emptyImage : Mem := [(0, 0x5A), (1, 0x43), (2, 0x55), (3, 0x45), (5, 1), (7, 1), (9, 1), (0x48, 1)].map (fun c => (scratchBase + c.1, c.2))

def head0 : SheetHead :=
  { hid := 5, company := 3, fmt := 3, root := true, parent := 0, pslot := 0, len := 64, expected := 3, segwin := 1, scaleset := 0xFFFF, leads := 0 }

/-- A cue word: kind, HID, LCLASS, deadline, conversion, ARG. -/
def cueW (kind : Nat) (hid : BitVec 16) (lclass deadline conv : Nat) (arg : W64) : CueWord :=
  { w0 := put kind 4 60 ||| put lclass 4 50 ||| put hid.toNat 16 32, w1 := put deadline 32 32, w2 := put conv 16 48 ||| put 0xFFFF_FFFF 32 16, w3 := arg }

/-- A liberty sheet with one head and the cues given. -/
def sheetOf (h : SheetHead) (cues : List CueWord) : Sheet :=
  { length := 256, jobId := 1, seed := 2, firstStep := 4, stepCount := 0, baseTick := 0, period := 0, module := 0, liberty := true
    companies := [⟨3, 4⟩], heads := [h], scaleSets := [], scaleAt := 0, scaleCount := 0, repls := [], preGrants := [], psets := [], cues := cues }

def hd0 : Head := { expected := 3, step := 4 }

def run0 : Run := { nextStep := 4, prevPb := [], signEvery := 0 }

/-- A step that is open, with one instance for each cue. -/
def openOf (insts : List Inst) : OpenStep := { step := 4, openAt := 0, insts := insts, heads := [{ head := 0, expected := 3 }], outrCtrl := 0 }

/-- A run in which step 4 is open, and no other. -/
def runOf (insts : List Inst) : Run := { run0 with nextStep := 5, steps := [openOf insts] }

/-- `s` with a sheet loaded, its head in step 4, and a run. -/
def withRun (sh : Sheet) (r : Option Run) (s : State) : State :=
  { s with cue := { s.cue with sheet := some sh, run := r }, harn := { s.harn with heads := [hd0] } }

/-- A record of HID 5 at index 0, with 64 parameters. -/
def shard0 : Shard :=
  { hid := 5, role := roleOwner, seedout := false, diverged := false, uport := 0, uslot := 0, len := 64, base := 0, age := 0, p1 := 0, p2 := 0
    partner := 0, last := 0 }

def withShard (r : Shard) (s : State) : State := writeShard 0 r s

/-- An equaliser table of default entries with its CRC (R434). -/
def eqHead : List Byte := leBytes 4 0x5451455A ++ leBytes 2 0x0100 ++ leBytes 2 512
def eqTable : List Byte := (eqHead ++ zeros 0x1038) ++ crc32Bytes (eqHead ++ zeros 0x1038)

theorem leBytes_length : ∀ n x, (leBytes n x).length = n := by intro n; induction n <;> simp_all [leBytes]

theorem eqBody_length : (eqHead ++ zeros 0x1038).length = 0x1040 := by
  simp only [eqHead, List.length_append, leBytes_length, zeros, List.length_replicate]

theorem eqTable_ok : tableOk eqTable = true := by
  have h0 : leAt eqTable 0 4 = 0x5451455A ∧ leAt eqTable 4 2 = 0x0100 ∧ leAt eqTable 6 2 = 512 := by decide +kernel
  have hd : (eqTable.drop 0x1040).take 4 = crc32Bytes (eqTable.take 0x1040) := by
    unfold eqTable
    rw [List.drop_left' eqBody_length, List.take_left' eqBody_length, List.take_of_length_le (Nat.le_of_eq (by rw [crc32Bytes, leBytes_length]))]
  simp only [tableOk, h0, hd, decide_true, Bool.and_self]

theorem eqTable_entries (l : Nat) (h : l < 512) : (tableEntry eqTable l).isSome = true := by
  have hz : leAt eqTable (0x40 + 8 * l) 8 = 0 := by
    have e : (eqTable.drop (0x40 + 8 * l)).take 8 = List.replicate 8 0 := by
      have hl : eqHead.length = 8 := by decide
      rw [eqTable, List.drop_append, List.drop_append, List.drop_of_length_le (by omega), List.nil_append, zeros, List.drop_replicate,
        List.take_append_of_le_length (by rw [List.length_replicate]; omega), List.take_replicate, hl]
      congr 1; omega
    rw [leAt, e]; decide
  unfold tableEntry; rw [hz]; decide

/-- A packet of a kind for a class. -/
def pkt (kind : Byte) (vl : Sys2Proof.Class) (bytes : List Byte) : Packet := { kind := kind, vl := vl, dest := 0xFFFF, src := 0, bytes := bytes }

def openLink (p : Port) (s : State) : State := modLink p (fun l => { l with state := .opened }) s

/-- `base` as a leader of its rack whose parent is on port 3. -/
def leader : State :=
  openLink 3 (modLanePort 3 (fun x => { x with startAt := some 1, rxLog := [(9, 500)] }) { base with stg := { base.stg with inForce := 0x43 } })

def plan0 : Plan := { id := 1, dx := 2, dy := 2, dz := 1, rolemap := 1, torus := [(0, 0), (0, 1), (0, 2), (0, 3)], spine := [], penalty := List.replicate 64 0 }

def planHead : List Byte := leBytes 4 0x5058415A ++ [0, 1] ++ leBytes 2 0x0100
def planTail : List Byte := [2, 2, 1, 1] ++ zeros 236 ++ leBytes 8 0 ++ leBytes 8 1 ++ leBytes 8 2 ++ leBytes 8 3
def planImage : List Byte := planHead ++ leBytes 8 (leAt (sha3 (planHead ++ zeros 8 ++ planTail)) 0 8) ++ planTail

theorem leVal_leBytes : ∀ (n v : Nat), v < 256 ^ n → leVal (leBytes n v) = v
  | 0, v, h => by have : v = 0 := by omega
                  simp [leBytes, leVal, this]
  | n + 1, v, h => by
    have hv : v / 256 < 256 ^ n := by rw [Nat.div_lt_iff_lt_mul (by decide)]; rw [Nat.pow_succ] at h; exact h
    simp only [leBytes, leVal, leVal_leBytes n _ hv, BitVec.toNat_ofNat]
    omega

theorem leVal_lt : ∀ l : List Byte, leVal l < 256 ^ l.length
  | [] => by simp [leVal]
  | b :: r => by
    have := leVal_lt r
    have hb := b.isLt
    simp only [leVal, List.length_cons, Nat.pow_succ]; omega

theorem planHead_length : planHead.length = 8 := rfl

theorem planImage_id : planIdOf planImage = leAt planImage 8 8 := by
  have e : planImage.take 8 ++ zeros 8 ++ planImage.drop 16 = planHead ++ zeros 8 ++ planTail := by
    have l8 := leBytes_length 8 (leAt (sha3 (planHead ++ zeros 8 ++ planTail)) 0 8)
    have h16 : (planHead ++ leBytes 8 (leAt (sha3 (planHead ++ zeros 8 ++ planTail)) 0 8)).length = 16 := by
      rw [List.length_append, planHead_length, l8]
    have ht : planImage.take 8 = planHead := by unfold planImage; rw [List.append_assoc]; exact List.take_left' planHead_length
    have hd : planImage.drop 16 = planTail := List.drop_left' h16
    rw [ht, hd]
  have hl : (((sha3 (planHead ++ zeros 8 ++ planTail)).drop 0).take 8).length ≤ 8 := by simp only [List.length_take]; omega
  have hv : leAt (sha3 (planHead ++ zeros 8 ++ planTail)) 0 8 < 256 ^ 8 :=
    Nat.lt_of_lt_of_le (leVal_lt _) (Nat.pow_le_pow_right (by decide) hl)
  unfold planIdOf
  have ht : (planImage.drop 8).take 8 = leBytes 8 (leAt (sha3 (planHead ++ zeros 8 ++ planTail)) 0 8) := by
    unfold planImage
    rw [List.append_assoc, List.drop_left' planHead_length, List.take_left' (leBytes_length _ _)]
  rw [e]
  exact (by rw [← leVal_leBytes 8 _ hv, ← ht]; rfl)

theorem planImage_ok (s : State) (h : s.fuses.serial = 0) (hr : s.cue.run = none) : checkPlan s planImage = none := by
  have h1 : leAt planImage 0 4 = 0x5058415A ∧ leAt planImage 6 2 = 0x0100 ∧ byteAt planImage 5 = 1 ∧ byteAt planImage 4 = 0 ∧
      planImage.length = 256 + 8 * (imgNmod planImage + imgNspine planImage) ∧ planShape planImage = none ∧ planDuplicate planImage = none ∧
      (torusIndex (readPlan planImage) 0).isNone = false := by decide +kernel
  obtain ⟨a, b, c, d, e, f, g, t⟩ := h1
  simp only [checkPlan, a, b, c, d, ← e, f, g, h, t, hr, planImage_id]
  simp

theorem planImage_read   : memRead (memWrite [] planWindow planImage) planWindow 288 = planImage := by
  have e : planImage.length = 288 := by decide +kernel
  rw [← e]; exact memRead_memWrite planImage [] planWindow rfl

def roll0 : Roll := { seen := true, kind := 1, port := 0, modnum := 0, serial := 9, plan := 0, coord := 0, role := 0 }

/-- A plan image in the window. -/
def planMem : Mem := memWrite [] planWindow planImage
def planState : State := withCmd 0x20 (leBytes 4 288) { base with dram := planMem }
theorem planState_dram : planState.dram = planMem := by simp only [planState, withCmd]

theorem planState_read : planImage = memRead planState.dram planWindow (arg (cmd 0x20 (leBytes 4 288)) 0 4) := by
  have e : arg (cmd 0x20 (leBytes 4 288)) 0 4 = 288 := by decide +kernel
  rw [e, planState_dram, planMem, planImage_read]

/-! ### A segment on its way -/

/-- A fired segment of `head0`, with 64 sums. -/
def fslot : Slot :=
  { index := 0, head := 0, seg := 0, st := .fired, fmt := 3, seglen := 64, step := 4, expected := 3, received := 3, acc := List.replicate 64 5
    hasFired := true, zero := false }

def gath : Slot := { fslot with st := .filling, received := 1, hasFired := false }

def pset0 : Sys2Proof.Machine.PSet := ⟨0, 0, 0, 0, 0, 0, 0, 1⟩

/-- REDUCE_UPDATE of HID 5 with no clipping call. -/
def updWord : CueWord := cueW 2 5 1 0 0x0A60 (put 0xFFFF 16 16)
def redWord : CueWord := cueW 1 5 1 0 0x3660 0

def updSheet : Sheet := { sheetOf head0 [updWord] with psets := [pset0] }

def going : Inst := { cue := 0, st := .running, launched := true }

def gr0 : Grant := { id := 3, window := none, step := 4, cue := 0, lclass := 1, watts := 24, ramp := 0, rampUs := 9 }

/-- The sheet's run with step 4 open and cue 0 launched, the shard of HID 5, board leave and the slots given. -/
def stage (sh : Sheet) (slots : List Slot) (jobs : List Job) : State :=
  let s := withShard shard0 (withRun sh (some (runOf [going])) { base with rid := { base.rid with released := true, board := some (950, 50) } })
  { s with harn := { s.harn with slots := slots, jobs := jobs } }

def reqState : State := stage updSheet [fslot] []
def updState : State := { reqState with rid := { reqState.rid with grants := [gr0] } }

/-- A slot that comes back from spill image 3. -/
def relSlot : Slot := { gath with st := .reloading, image := 3 }
def relState : State := stage updSheet [relSlot] []

/-- Bytes of a CONTRIB of member m. -/
def contribOf (m : Nat) : Packet := pkt kContrib 2 (segHeader 5 3 m 4 0 64 ++ zeros 4 ++ List.replicate 128 1)
/-- The head with a format that is added in Z48. -/
def floatSheet : Sheet := { updSheet with heads := [{ head0 with fmt := 5 }] }
def floatSlot : Slot := { gath with fmt := 5 }
def floatContrib (m : Nat) : Packet := pkt kContrib 2 (segHeader 5 5 m 4 0 64 ++ zeros 4 ++ List.replicate 256 1)
def partialOf (m : Nat) : Packet := pkt kPartial 3 (segHeader 5 11 m 4 0 64 ++ zeros 36 ++ List.replicate 768 1)

/-- A die whose power is on. -/
def die : BoxDie := { powered := true, closeAt := 0 }
def dieState (d : BoxDie) : State := { base with boxDie := d }

/-- A reading that starts with its MAGIC. -/
def readingOf (seq : Nat) : List Byte := leBytes 4 readingMagic ++ zeros 4 ++ leBytes 8 seq ++ zeros 176

/-- The segment's update, with new state words. -/
def job0 : Job := { head := 0, seg := 0, step := 4, cue := 0, bcast := false, wReady := true, w := List.replicate 64 7, state := List.replicate 64 9 }

def redSheet : Sheet := sheetOf head0 [redWord]
/-- The cast segment of a REDUCE, and a segment of a BROADCAST. -/
def castJob0 : Job := { head := 0, seg := 0, step := 4, cue := 0, bcast := false, writesDone := true, cast := true, codes := List.replicate 64 1 }
def bjob0 : Job := { head := 0, seg := 0, step := 4, cue := 0, bcast := true, wReady := true, writesDone := true, w := List.replicate 64 7 }

def castWord : CueWord := cueW 3 5 0 0 0x0A60 0
def bcastSheet : Sheet := sheetOf head0 [castWord]
def moveWord (op : Nat) : CueWord := cueW 6 0 0 0 0 (put op 4 60 ||| put 1 14 9)
def zeroWord : CueWord := cueW 6 0 0 0 0 (put 2 4 60 ||| put 5 16 44)
def convWord : CueWord := cueW 5 0 0 0 0x0660 (put 64 19 26)
/-- A step in which a cue of one kind runs. -/
def cueState (w : CueWord) : State := stage (sheetOf head0 [w]) [] []

def mcast0 : Packet := mcastPacket 5 3 false 4 0 64 [] [] (List.replicate 128 1) 0xFFFF 0
def dig0 : SegDigest := ⟨5, 4, 3, 0, zeros 64⟩

def seedOut0 : SeedOut := { hid := 5 }
def partnered : Shard := { shard0 with partner := 9, seedout := true }
def seedState (r : Shard) (g : Groom) : State := withShard r { base with grm := g }

def movingState : State :=
  let s := cueState (moveWord 0)
  { s with cue := { s.cue with run := some (runOf [{ going with started := true }]) } }

/-- A root's cast segment whose group is port 0 and port 1, and an understudy's. -/
def mcastState : State := stage redSheet [fslot] [castJob0]
def mirrorState : State := withShard { shard0 with role := roleUnderstudy } mcastState
/-- The digests of a BROADCAST's segments, buffered. -/
def bcastDig : State := { stage bcastSheet [] [] with dig := { buffer := [{ dig0 with part := 4 }] } }

/-! ### A projection -/

def projHead : SheetHead := { head0 with len := 512 }
def upHead : SheetHead := { head0 with hid := 6, fmt := 1, len := 128 }
/-- PROJECT of HID 5 over HID 6 with RANK code r, 256 columns and bands of 2 rows. -/
def projWord (r : Nat) : CueWord := cueW 4 5 4 0 0x2C60 (put 6 16 48 ||| put r 2 46 ||| put 1 10 28)
def projSheet (r : Nat) : Sheet := { sheetOf projHead [projWord r] with heads := [projHead, upHead] }
def pslot : Slot := { fslot with seglen := 256, acc := List.replicate 256 5 }
def gr4 : Grant := { gr0 with lclass := 4, watts := 55 }
def projState (r : Nat) (bands : List Band) : State :=
  let s := stage (projSheet r) [pslot] []
  { s with
    prj := { s.prj with bands := bands }, rid := { s.rid with grants := [gr4] }
    harn := { s.harn with heads := [{ hd0 with resAt := 100000 }, { hd0 with window := [(0, 0)], scaleAt := 90000 }] } }
def band0 : Band := { head := 0, cue := 0, step := 4, band := 0 }
def z256 : List (BitVec 48) := List.replicate 256 zOne
def pass0 : Pass := { array := 0, head := 0, step := 4, band := 0, tile := 0, grant := 3 }
def sendBand : Band := { band0 with st := .send, p := [(0, List.replicate 64 zOne), (1, List.replicate 64 zOne)] }
def resBand : Band := { band0 with st := .residual, e1 := [(0, List.replicate 256 3), (1, List.replicate 256 4)], l := [(0, z256), (1, z256)], formed := [] }
def outBand : Band := { band0 with st := .out, ghat := [(0, z256), (1, z256)] }
def projBand : Band := { band0 with st := .project, cCodes := (List.range 8).map (fun j => (j, List.replicate 64 1, 0)) }

theorem outBand_vals : ∀ i, i < (bandSegs (projWord 1) projHead.len 0).2 →
    ∃ vs, outVals (projState 1 [outBand]) (projWord 1) outBand ((bandSegs (projWord 1) projHead.len 0).1 + i) = some vs ∧ vs.length ≤ 256 := by
  have h : ∀ i, i < (bandSegs (projWord 1) projHead.len 0).2 →
      (outVals (projState 1 [outBand]) (projWord 1) outBand ((bandSegs (projWord 1) projHead.len 0).1 + i)).any (fun vs => decide (vs.length ≤ 256)) = true := by
    decide +kernel
  intro i hi
  have := h i hi
  revert this
  cases outVals (projState 1 [outBand]) (projWord 1) outBand ((bandSegs (projWord 1) projHead.len 0).1 + i) with
  | none => intro k; cases k
  | some vs => intro k; exact ⟨vs, rfl, of_decide_eq_true k⟩

/-- A band of RANK 0b00 whose two blocks are cast. -/
def sendBand0 : Band := { band0 with st := .send, pCast := [(0, List.replicate 64 1, 0), (1, List.replicate 64 2, 0)] }

/-! ### Calls -/

def callWord : CueWord := cueW 7 0 0 0 0 (put 5 16 32)
def callSheet (root : Bool) : Sheet := sheetOf { head0 with root := root, parent := 3, pslot := 2 } [callWord]
def callState (root : Bool) : State := modLink 1 (fun l => { l with peerRoll := some roll0 }) (stage (callSheet root) [] [])
def call0 : Packet := callPacket 0 1 0 false false 4 1 [0] 0xFFFF 0
def result0 : Packet := callPacket 0 2 2 false true 4 1 [0] 0xFFFF 0

/-! ### The fabric -/

def fabricState : State :=
  openLink 1 (openLink 2 { base with topo := { base.topo with plan := some plan0 }, swc := { base.swc with creditLo := 0x0100010001000100, creditHi := 0x0100010001000100 } })
def user0 (dest : BitVec 16) : Packet := { kind := kUser, vl := 0, dest := dest, src := 0, bytes := [1, 2, 3] }

def laneState (x : Lane) : State := modLane 9 (fun _ => x) base
def portState (x : LanePort) : State := modLanePort 3 (fun _ => x) base

/-! ### Cells and frames -/

def linkState (l : LinkPort) : State := modLink 3 (fun _ => l) fabricState
def frame0 : List Byte := frameBytes 7 (user0 2)
def ackCell : List Byte := controlCell ([0xC3, 0x01] ++ leBytes 2 (5 + 16384) ++ zeros 20)
def nakCell : List Byte := controlCell ([0xC3, 0x01] ++ leBytes 2 32768 ++ zeros 20)
def un (q : BitVec 12) : Unacked := ⟨q, 0, user0 2, 0, 2, some 2⟩
def hello0 : Hello := { seen := true, kind := 0, epoch := 5, vers := [(1, 0)], credit := Vector.replicate 8 100, maxCells := 64 }
def helloCell : List Byte := controlCell ([0xC3, 0x02, 1, 0] ++ leBytes 4 5 ++ [1, 0, 0, 0, 0, 0, 0, 0] ++ (List.replicate 8 (leBytes 2 100)).flatten ++ [64])
def rollCell : List Byte := rollBytes true 4 1 9 1 0 0
/-- `s` with cells delivered on port 3. -/
def rxState (cells : List RxCell) (s : State) : State := modLanePort 3 (fun x => { x with rxCells := cells }) s
def txState (l : LinkPort) : State := modLanePort 3 (fun x => { x with started := true, txActive := 255 }) (linkState l)
def tr (pk : Packet) (o : SwPort) : Transit := ⟨pk, 0, fabric 2, o, some 2⟩
def qd (pk : Packet) (o : SwPort) : Queued := ⟨pk, 0, fabric 2, o, some 2, 50⟩
def ro (next lastAt : Nat) (h : List (Nat × Nat × Queued)) : Reorder := ⟨1, 5, 4, next, h, lastAt⟩
def swState (c : SwitchCore) : State := { modLink 1 (fun l => { l with state := .opened, peerRoll := some roll0, peerHello := some hello0 }) fabricState with swc := c }
def master0 : PtpMaster := ⟨[128], 7⟩
/-- Port 0 takes its time from `master0`. -/
def ptpState (p : Ptp) : State :=
  { base with host := { base.host with ptp := { p with port := some 0 }, eth := vset base.host.eth 0 { base.host.eth[0] with master := some master0, masterAt := base.time } } }

/-! ### The state after a command -/

def goes (c : Instr) (s : State) : Bool := match exec c s with | .next _ => true | _ => false
def after (c : Instr) (s : State) : State := match exec c s with | .next t => t | _ => s

theorem exec_after {c : Instr} {s : State} (h : goes c s = true) : exec c s = .next (after c s) := by
  unfold goes at h; unfold after
  split at h
  next t e => rw [e]
  · cases h

theorem step_front {c : Instr} {s t : State} (h : exec c { s with pending := [] } = .next t) : step { s with pending := [c] } = .next t := h

/-! ### Hypotheses that can be met -/

theorem wit_SessionsOpenAndClose :
    (∃ (d : Dgram) (s : State) (first : Nat), (takes s 0x01 d = true) ∧ (lockedOut s = false) ∧ ((∀ x ∈ s.host.sessions, x.peer ≠ d.peer)) ∧ (offersOne (payload d) = true) ∧ (openOk (payload d) = true) ∧ (s.host.sessions.length < 8) ∧ (freeRun s (leAt (payload d) 10 1) = some first)) ∧
    (∃ (d : Dgram) (s : State) (x : Session), (takes s 0x03 d = true) ∧ (findSession s (hSession d) = some x) ∧ (x.ready = false)) ∧
    (∃ (d : Dgram) (s : State), (takes s 0x05 d = true)) ∧
    (∃ (d : Dgram) (s : State), (takes s 0x07 d = true)) ∧
    (∃ (i : BitVec 32) (s : State) (x : Session), (findSession s i = some x) ∧ (x.ready = false) ∧ (x.openedAt + 1000 * ms ≤ s.time)) ∧
    (∃ (i : BitVec 32) (s : State) (x : Session), (findSession s i = some x) ∧ (x.lastAt + 4 * x.keepMs * ms ≤ s.time)) ∧
    (∃ (s : State) (u : Nat), (s.host.lockUntil = some u) ∧ (u ≤ s.time)) :=
  ⟨⟨(dg 1 0 0 0xFF ([1, 0, 0, 0, 0, 0, 0, 0] ++ leBytes 2 1 ++ [4, 0] ++ leBytes 2 9146 ++ leBytes 2 1000 ++ zeros 48)), { base with host := { base.host with sessions := [], mboxes := Vector.replicate 64 {} } }, 0, by decide +kernel⟩,
   ⟨(dg 3 7 0 0xFF (zeros 4627)), withSession { sess0 with ready := false } base, { sess0 with ready := false }, by decide +kernel⟩,
   ⟨(dg 5 7 0 0xFF []), base, by decide +kernel⟩,
   ⟨(dg 7 7 0 0xFF []), base, by decide +kernel⟩,
   ⟨7, withSession { sess0 with ready := false } base, { sess0 with ready := false }, by decide +kernel⟩,
   ⟨7, base, sess0, by decide +kernel⟩,
   ⟨{ base with host := { base.host with lockUntil := some 5 } }, 5, by refine ⟨rfl, ?_⟩ <;> decide +kernel⟩⟩

theorem wit_MailboxesPostReadAndEnd :
    (∃ (d : Dgram) (s : State) (m : Fin 64), (takes s 0x10 d = true) ∧ (ownMbx s d = some m) ∧ (hSeq d = (s.host.mboxes[m.val]).cseq + 1) ∧ ((s.host.mboxes[m.val]).st ≠ .busy)) ∧
    (∃ (d : Dgram) (s : State) (m : Fin 64), (takes s 0x12 d = true) ∧ (ownMbx s d = some m) ∧ (hSeq d = (s.host.mboxes[m.val]).cseq) ∧ ((s.host.mboxes[m.val]).st = .done)) ∧
    (∃ (id : Nat) (s : State) (c : Cmd) (st : BitVec 16) (l : List Byte), (s.host.cmds.find? (fun c => decide (c.id = id)) = some c) ∧ (c.out = some (st, l)) ∧ ((s.host.mboxes[c.mbx.val]).owner = some c.session) ∧ ((s.host.mboxes[c.mbx.val]).cseq = c.seq) ∧ ((s.host.mboxes[c.mbx.val]).st = .busy)) ∧
    (∃ (d : Dgram) (s : State), (takes s 0x31 d = true)) ∧
    (∃ (i : BitVec 32) (s : State) (x : Session), (findSession s i = some x)) :=
  ⟨⟨(dg 0x10 7 1 0 (leBytes 2 0x01 ++ zeros 6)), base, 0, by decide +kernel⟩,
   ⟨(dg 0x12 7 1 0 []), withMbx { owner := some 7, st := .done, cseq := 1, status := 3, result := [1, 2] } base, 0, by decide +kernel⟩,
   ⟨0, withMbx { owner := some 7, st := .busy, cseq := 1 } { base with host := { base.host with cmds := [{ cmd 1 [] with out := some (3, [1]) }] } }, { cmd 1 [] with out := some (3, [1]) }, 3, [1], by decide +kernel⟩,
   ⟨(dg 0x31 7 2 0xFF []), withSession { sess0 with events := [⟨1, [], 0⟩, ⟨3, [], 0⟩], eseq := 3 } base, by decide +kernel⟩,
   ⟨7, withSession { sess0 with events := [⟨1, [], 0⟩, ⟨3, [], 4000000000000⟩], eseq := 3 } base, { sess0 with events := [⟨1, [], 0⟩, ⟨3, [], 4000000000000⟩], eseq := 3 }, by decide +kernel⟩⟩

theorem wit_BulkWindowsStoreAndLoad :
    (∃ (d : Dgram) (s : State) (x : Session) (r : Nat × Nat), (takes s 0x20 d = true) ∧ (findSession s (hSession d) = some x) ∧ (bulkRefused s x true (payload d).length (readBulk (payload d)) = none) ∧ ((readBulk (payload d)).win ≠ 0x0A) ∧ (winRange s (readBulk (payload d)) = some r) ∧ (Memory.wf s.dram = true)) ∧
    (∃ (d : Dgram) (s : State) (x : Session), (takes s 0x20 d = true) ∧ (findSession s (hSession d) = some x) ∧ (bulkRefused s x true (payload d).length (readBulk (payload d)) = none) ∧ ((readBulk (payload d)).win = 0x0A)) ∧
    (∃ (d : Dgram) (errs : List AccErr) (s u : State) (x : Session) (r : Nat × Nat), (takes s 0x22 d = true) ∧ (findSession s (hSession d) = some x) ∧ (bulkRefused s x false (payload d).length (readBulk (payload d)) = none) ∧ ((readBulk (payload d)).win ≠ 0x04) ∧ (winRange s (readBulk (payload d)) = some r) ∧ (u = readErrors (r.1 + (readBulk (payload d)).offset) (readBulk (payload d)).count errs (noteDgram d s))) ∧
    (∃ (d : Dgram) (errs : List AccErr) (s : State) (x : Session), (takes s 0x22 d = true) ∧ (findSession s (hSession d) = some x) ∧ (bulkRefused s x false (payload d).length (readBulk (payload d)) = none) ∧ ((readBulk (payload d)).win = 0x04)) :=
  ⟨⟨(dg 0x20 7 9 0xFF (leBytes 1 7 ++ zeros 3 ++ leBytes 4 3 ++ leBytes 8 100 ++ [1, 0, 2])), { base with dram := [(scratchBase + 101, 9)] }, sess0, (scratchBase, scratchBytes), by decide +kernel⟩,
   ⟨(dg 0x20 7 9 0xFF (leBytes 1 10 ++ zeros 3 ++ leBytes 4 3 ++ leBytes 8 100 ++ [1, 0, 2])), base, sess0, by decide +kernel⟩,
   ⟨(dg 0x22 7 9 0xFF (leBytes 1 7 ++ zeros 3 ++ leBytes 4 3 ++ leBytes 8 100 )), [⟨scratchBase / 32 + 3, .corrected⟩], { base with dram := [(scratchBase + 101, 9)] }, readErrors (scratchBase + 100) 3 [⟨scratchBase / 32 + 3, .corrected⟩] (noteDgram (dg 0x22 7 9 0xFF (leBytes 1 7 ++ zeros 3 ++ leBytes 4 3 ++ leBytes 8 100 )) { base with dram := [(scratchBase + 101, 9)] }), sess0, (scratchBase, scratchBytes), by refine ⟨?_, ?_, ?_, ?_, ?_, rfl⟩ <;> decide +kernel⟩,
   ⟨(dg 0x22 7 9 0xFF (leBytes 1 4 ++ zeros 3 ++ leBytes 4 3 ++ leBytes 8 100 )), [], base, sess0, by decide +kernel⟩⟩

theorem wit_InfoAndOperatorTable :
    (∃ (id : Nat) (s : State) (c : Cmd), (cmdReady s id 0x0001 = some c)) ∧
    (∃ (id : Nat) (s : State) (c : Cmd), (cmdReady s id 0x0050 = some c) ∧ (s.prm.eraseDue = none) ∧ (installRefused s c = false) ∧ (arg c 0 2 ≠ 0) ∧ (arg c 0 2 < 65536) ∧ (arg c 2 1 ≤ 2) ∧ (s.prm.operators.any (fun o => o.opid == BitVec.ofNat 16 (arg c 0 2)) = false) ∧ (s.prm.operators.length < 16)) ∧
    (∃ (id : Nat) (s : State) (c : Cmd) (rest : List Operator), (cmdReady s id 0x0051 = some c) ∧ (s.prm.eraseDue = none) ∧ (rest = s.prm.operators.filter (fun o => !(o.opid == BitVec.ofNat 16 (arg c 0 2)))) ∧ (rest.length ≠ s.prm.operators.length) ∧ (rest.any (fun o => decide (o.priv = 2)) = true)) ∧
    (∃ (s : State) (k : Fin 2) (u : Nat), (s.prm.eraseDue = some (k, u))) :=
  ⟨⟨0, withCmd 0x01 [] base, cmd 0x01 [], by decide +kernel⟩,
   ⟨0, withCmd 0x50 [5, 0, 2] base, cmd 0x50 [5, 0, 2], by decide +kernel⟩,
   ⟨0, withCmd 0x51 [5, 0] { base with prm := { base.prm with operators := [⟨5, 1, []⟩, ⟨6, 2, []⟩] } }, cmd 0x51 [5, 0], [⟨6, 2, []⟩], by refine ⟨?_, ?_, rfl, ?_, ?_⟩ <;> decide +kernel⟩,
   ⟨{ base with prm := { base.prm with eraseDue := some (1, 3) } }, 1, 3, by decide +kernel⟩⟩

theorem wit_IdentityAndAttestation :
    (∃ (id : Nat) (s : State) (c : Cmd), (cmdReady s id 0x0060 = some c) ∧ (Memory.wf s.dram = true) ∧ (pageOk s (arg c 0 4) (idRecord s ++ (endorsement s).getD []).length = true)) ∧
    (∃ (id : Nat) (s : State) (c : Cmd), (cmdReady s id 0x0061 = some c) ∧ (s.dig.signing = none) ∧ (pageOk s (arg c 32 4) 5120 = true) ∧ (Memory.wf s.dram = true)) ∧
    (∃ (m : MemCmd) (ok : Bool) (s u : State) (c : Cmd), (cmdReady s m.id 0x0062 = some c) ∧ (Reads s u m 0x0062 fwBase 7227)) :=
  ⟨⟨0, withCmd 0x60 [2, 0, 0, 0] base, cmd 0x60 [2, 0, 0, 0], by decide +kernel⟩,
   ⟨0, withCmd 0x61 (zeros 32 ++ [2, 0, 0, 0]) base, cmd 0x61 (zeros 32 ++ [2, 0, 0, 0]), by decide +kernel⟩,
   ⟨⟨0, [⟨fwBase / 32, .corrected⟩]⟩, true, withCmd 0x62 [0, 0, 0, 0] base, readErrors fwBase (7227) [⟨fwBase / 32, .corrected⟩] (withCmd 0x62 [0, 0, 0, 0] base), cmd 0x62 [0, 0, 0, 0], by refine ⟨?_, ⟨rfl, ?_⟩⟩ <;> decide +kernel⟩⟩

theorem wit_FirmwareUpdateAndRollback :
    (∃ (m : MemCmd) (s u : State) (c : Cmd) (ok ctlOk : Bool), (cmdReady s m.id 0x0063 = some c) ∧ (s.cue.run = none) ∧ ((ctlNow s).try_ = 0xFF) ∧ (s.prm.trial = false) ∧ (Reads s u m 0x0063 fwBase (min (arg c 0 4) 8388608))) ∧
    (∃ (id : Nat) (s : State) (c : Cmd), (cmdReady s id 0x0064 = some c) ∧ (s.cue.run = none) ∧ ((ctlNow s).try_ ≠ 0xFF)) ∧
    (∃ (id : Nat) (ok : Bool) (s : State) (c : Cmd), (cmdReady s id 0x0065 = some c) ∧ (s.prm.trial = true)) ∧
    (∃ (id : Nat) (s : State) (c : Cmd), (cmdReady s id 0x0066 = some c)) ∧
    (∃ (id : Nat) (s : State) (c : Cmd), (cmdReady s id 0x0067 = some c) ∧ (arg c 0 1 ≤ 3) ∧ (arg c 0 1 ≠ s.prm.keyIdx) ∧ (onlyKey s (arg c 0 1) = false)) ∧
    (∃ (s : State) (tiles : BitVec 8) (ok : Bool), (s.door.st = .booting) ∧ (s.prm.running = false) ∧ (s.prm.halted = false)) :=
  ⟨⟨⟨0, []⟩, withCmd 0x63 [0, 32, 0, 0] base, readErrors fwBase (min (arg (cmd 0x63 [0, 32, 0, 0]) 0 4) 8388608) [] (withCmd 0x63 [0, 32, 0, 0] base), cmd 0x63 [0, 32, 0, 0], true, true, by refine ⟨?_, ?_, ?_, ?_, ⟨rfl, ?_⟩⟩ <;> decide +kernel⟩,
   ⟨0, withCmd 0x64 [] { base with flash := { base.flash with ctl0 := ctlBytes { gen := 1, active := 0, try_ := 1, tried := 0 } } }, cmd 0x64 [], by decide +kernel⟩,
   ⟨0, true, withCmd 0x65 [1] { base with prm := { base.prm with trial := true, svn := 3 } }, cmd 0x65 [1], by decide +kernel⟩,
   ⟨0, withCmd 0x66 [] base, cmd 0x66 [], by decide +kernel⟩,
   ⟨0, withCmd 0x67 [2] base, cmd 0x67 [2], by decide +kernel⟩,
   ⟨{ base with prm := {}, door := { base.door with st := .booting } }, 0xFF, true, by decide +kernel⟩⟩

theorem wit_SheetLoadsAndRunStarts :
    (∃ (m : MemCmd) (s u : State) (c : Cmd) (img : List Byte), (cmdReady s m.id 0x0010 = some c) ∧ (arg c 0 8 ≤ 939524096) ∧ (checkSheet s (memRead s.dram scratchBase (arg c 0 8)) ≠ .waiting) ∧ (Reads s u m 0x0010 scratchBase (arg c 0 8)) ∧ (img = memRead u.dram scratchBase (arg c 0 8)) ∧ (checkSheet u img = .accepted) ∧ (Memory.wf s.dram = true)) ∧
    (∃ (m : MemCmd) (s u : State) (c : Cmd) (sh : Sheet), (cmdReady s m.id 0x0011 = some c) ∧ (s.cue.sheet = some sh) ∧ (checkStart s (memRead s.dram scratchBase sh.length) ≠ .waiting) ∧ (Reads s u m 0x0011 scratchBase sh.length) ∧ (u.cue.sheet = some sh) ∧ (checkStart u (memRead u.dram scratchBase sh.length) = .accepted) ∧ (Memory.wf s.dram = true)) :=
  ⟨⟨⟨0, []⟩, withCmd 0x10 (leBytes 8 256) { base with dram := emptyImage }, readErrors scratchBase (arg (cmd 0x10 (leBytes 8 256)) 0 8) [] (withCmd 0x10 (leBytes 8 256) { base with dram := emptyImage }), cmd 0x10 (leBytes 8 256), memRead emptyImage scratchBase 256, by refine ⟨?_, ?_, ?_, ⟨rfl, ?_⟩, rfl, ?_, ?_⟩ <;> decide +kernel⟩,
   ⟨⟨0, []⟩, withCmd 0x11 [] { base with dram := emptyImage, cue := { sheet := some (readSheet (memRead emptyImage scratchBase 256)) } }, readErrors scratchBase ((readSheet (memRead emptyImage scratchBase 256)).length) [] (withCmd 0x11 [] { base with dram := emptyImage, cue := { sheet := some (readSheet (memRead emptyImage scratchBase 256)) } }), cmd 0x11 [], readSheet (memRead emptyImage scratchBase 256), by refine ⟨?_, ?_, ?_, ⟨rfl, ?_⟩, ?_, ?_, ?_⟩ <;> decide +kernel⟩⟩

theorem wit_RunStopsAndDrains :
    (∃ (id : Nat) (s : State) (c : Cmd) (r : Run), (cmdReady s id 0x0012 = some c) ∧ (arg c 0 1 = 0) ∧ (s.cue.run = some r) ∧ (r.ending ≠ .recovery)) ∧
    (∃ (id : Nat) (s : State) (c : Cmd) (r : Run), (cmdReady s id 0x0012 = some c) ∧ (arg c 0 1 = 1) ∧ (s.cue.run = some r) ∧ (r.ending ≠ .recovery)) ∧
    (∃ (s : State) (r : Run), (s.cue.run = some r) ∧ (r.ending = .recovery) ∧ ((drainBusy s = false ∨ r.drainAt + 100 * ms ≤ s.time))) :=
  ⟨⟨0, withCmd 0x12 [0] (withRun (sheetOf head0 [(cueW 0 0 0 0 0 0)]) (some (runOf [{ cue := 0 }])) base), cmd 0x12 [0], runOf [{ cue := 0 }], by decide +kernel⟩,
   ⟨0, withCmd 0x12 [1] (withRun (sheetOf head0 [(cueW 0 0 0 0 0 0)]) (some (runOf [{ cue := 0 }])) base), cmd 0x12 [1], runOf [{ cue := 0 }], by decide +kernel⟩,
   ⟨withRun (sheetOf head0 [(cueW 0 0 0 0 0 0)]) (some { runOf [{ cue := 0 }] with ending := .recovery }) base, { runOf [{ cue := 0 }] with ending := .recovery }, by decide +kernel⟩⟩

theorem wit_ReadmissionProgressAndRing :
    (∃ (id : Nat) (s : State) (c : Cmd) (sh : Sheet), (cmdReady s id 0x0013 = some c) ∧ (s.cue.sheet = some sh) ∧ (sh.companies.any (fun x => decide (x.number.toNat = arg c 0 2)) = true) ∧ (arg c 2 1 ≤ 64)) ∧
    (∃ (m : MemCmd) (s u v : State) (c : Cmd) (i : Nat), (cmdReady s m.id 0x0014 = some c) ∧ (Reads s u m 0x0014 shardTable tableBytes) ∧ (findShard u (BitVec.ofNat 16 (arg c 0 2)) = some i) ∧ (Reads u v m 0x0014 (progressTable + 64 * i) 64)) ∧
    (∃ (id : Nat) (s : State) (c : Cmd) (r : Nat × Nat × Bool), (cmdReady s id 0x0015 = some c) ∧ (s.dig.ready = []) ∧ (s.dig.records.find? (fun r => decide (arg c 0 8 ≤ ringBytes) && decide (r.1 % ringBytes = arg c 0 8 % ringBytes)) = some r)) :=
  ⟨⟨0, withCmd 0x13 [3, 0, 1] { withRun (sheetOf head0 [(cueW 0 0 0 0 0 0)]) none base with harn := { base.harn with heads := [{ hd0 with lost := 2 }] } }, cmd 0x13 [3, 0, 1], sheetOf head0 [(cueW 0 0 0 0 0 0)], by decide +kernel⟩,
   ⟨⟨0, []⟩, withCmd 0x14 [5, 0] (withShard shard0 base), readErrors shardTable (tableBytes) [] (withCmd 0x14 [5, 0] (withShard shard0 base)), readErrors (progressTable + 64 * 0) (64) [] (readErrors shardTable (tableBytes) [] (withCmd 0x14 [5, 0] (withShard shard0 base))), cmd 0x14 [5, 0], 0, by refine ⟨?_, ⟨rfl, ?_⟩, ?_, ⟨rfl, ?_⟩⟩ <;> decide +kernel⟩,
   ⟨0, withCmd 0x15 (leBytes 8 1024) { base with dig := { base.dig with writtenTo := 2048, records := [(1024, 4, false), (2048, 5, false)] } }, cmd 0x15 (leBytes 8 1024), (1024, 4, false), by decide +kernel⟩⟩

theorem wit_PlaybillsAndSignaturesEnterTheRing :
    (∃ (s : State) (sh : Sheet) (r : Run) (o : OpenStep) (rest : List OpenStep) (fin : W64 × BitVec 4 × W64) (pb : List Byte) (n : Nat), (s.cue.sheet = some sh) ∧ (s.cue.run = some r) ∧ (r.steps = o :: rest) ∧ (o.ended = some fin) ∧ (s.prm.running = true) ∧ (recovering s = false) ∧ (foldPending s sh o.step = false) ∧ (carriageClear s 4 = true) ∧ (s.dig.ready = []) ∧ (s.dig.pbAhead.getD 0 = 0) ∧ (pb = playbill s sh r o fin (playbillDue sh r o.step)) ∧ (n = (pb.length + 63) / 64 * 64) ∧ (ringRoom s n = true) ∧ (Memory.wf s.dram = true)) ∧
    (∃ (s : State) (x : Signing), (s.dig.signing = some x) ∧ (s.prm.running = true) ∧ (s.prm.keymem ≠ []) ∧ (carriageClear s 4 = true) ∧ (s.dig.ready = []) ∧ (s.dig.pbAhead ≠ some 0) ∧ (ringRoom s 4800 = true) ∧ (Memory.wf s.dram = true)) :=
  ⟨⟨withRun (sheetOf head0 [(cueW 0 0 0 0 0 0)]) (some { run0 with nextStep := 5, steps := [{ openOf [{ cue := 0, st := .done }] with ended := some (0, 1, 0) }] }) base, sheetOf head0 [(cueW 0 0 0 0 0 0)], { run0 with nextStep := 5, steps := [{ openOf [{ cue := 0, st := .done }] with ended := some (0, 1, 0) }] }, { openOf [{ cue := 0, st := .done }] with ended := some (0, 1, 0) }, [], (0, 1, 0), playbill (withRun (sheetOf head0 [(cueW 0 0 0 0 0 0)]) (some { run0 with nextStep := 5, steps := [{ openOf [{ cue := 0, st := .done }] with ended := some (0, 1, 0) }] }) base) (sheetOf head0 [(cueW 0 0 0 0 0 0)]) ({ run0 with nextStep := 5, steps := [{ openOf [{ cue := 0, st := .done }] with ended := some (0, 1, 0) }] }) ({ openOf [{ cue := 0, st := .done }] with ended := some (0, 1, 0) }) (0, 1, 0) (playbillDue (sheetOf head0 [(cueW 0 0 0 0 0 0)]) ({ run0 with nextStep := 5, steps := [{ openOf [{ cue := 0, st := .done }] with ended := some (0, 1, 0) }] }) 4), ((playbill (withRun (sheetOf head0 [(cueW 0 0 0 0 0 0)]) (some { run0 with nextStep := 5, steps := [{ openOf [{ cue := 0, st := .done }] with ended := some (0, 1, 0) }] }) base) (sheetOf head0 [(cueW 0 0 0 0 0 0)]) ({ run0 with nextStep := 5, steps := [{ openOf [{ cue := 0, st := .done }] with ended := some (0, 1, 0) }] }) ({ openOf [{ cue := 0, st := .done }] with ended := some (0, 1, 0) }) (0, 1, 0) (playbillDue (sheetOf head0 [(cueW 0 0 0 0 0 0)]) ({ run0 with nextStep := 5, steps := [{ openOf [{ cue := 0, st := .done }] with ended := some (0, 1, 0) }] }) 4)).length + 63) / 64 * 64, by and_intros; (iterate 10 decide +kernel); exact rfl; exact rfl; all_goals decide +kernel⟩,
   ⟨{ base with prm := { base.prm with keymem := [1] }, dig := { base.dig with signing := some ⟨4, 1, [], 0⟩ } }, ⟨4, 1, [], 0⟩, by decide +kernel⟩⟩

theorem wit_StateAuditsStartAndEnd :
    (∃ (who : Requester) (v : W64) (s : State), (reaches who .digAudit true s = true) ∧ (s.dig.auditJob = none) ∧ (fld v 63 63 = 1)) ∧
    (∃ (errs : List AccErr) (s u : State) (j : AuditJob) (r q : Shard), (s.dig.auditJob = some j) ∧ (carriageTurn s 3 j.issue = true) ∧ (shardOf s j.hid = some r) ∧ (u = readErrors (stateAddr r 0) (8 * r.len) errs s) ∧ (shardOf u j.hid = some q) ∧ (Memory.wf s.dram = true)) :=
  ⟨⟨priv, put 1 1 63 ||| put 5 16 32 ||| put 2 18 14, withShard shard0 base, by decide +kernel⟩,
   ⟨[], { withShard shard0 base with dig := { base.dig with auditJob := some ⟨5, 2, 0⟩ } }, readErrors (stateAddr shard0 0) (8 * shard0.len) [] { withShard shard0 base with dig := { base.dig with auditJob := some ⟨5, 2, 0⟩ } }, ⟨5, 2, 0⟩, shard0, shard0, by refine ⟨?_, ?_, ?_, rfl, ?_, ?_⟩ <;> decide +kernel⟩⟩

theorem wit_RegisterAccessesReachTheirRegister :
    (∃ (who : Requester) (r : Reg) (v : W64) (s : State), (reaches who r true s = true) ∧ (rwMask r ≠ 0)) ∧
    (∃ (who : Requester) (r : Reg) (v : W64) (s : State), (reaches who r true s = true) ∧ (isW1c r = true) ∧ (r ≠ .fltFirst)) ∧
    (∃ (who : Requester) (v : W64) (s : State), (reaches who .fltFirst true s = true)) ∧
    (∃ (who : Requester) (off : Nat) (v : W64) (s : State), (mayAccess who true s = true) ∧ (off % 8 = 0) ∧ (off < 0x100_0000) ∧ (regAt off = none)) ∧
    (∃ (who : Requester) (r : Reg) (v : W64) (s : State), (mayAccess who true s = true) ∧ (limitKind who r true ≠ 0)) ∧
    (∃ (who : Requester) (r : Reg) (v : W64) (s : State), (mayAccess who true s = true) ∧ (limitKind who r true = 0) ∧ (blockOut s r = true)) ∧
    (∃ (id : Nat) (s : State) (c : Cmd) (r : Reg) (w : Requester), (cmdReady s id 0x0040 = some c) ∧ (accessRefused c false = none) ∧ (w = .window c.session (Fin.ofNat 3 (arg c 0 1))) ∧ (arg c 1 8 = regOffset r) ∧ (limitKind w r false = 0) ∧ (blockOut s r = false) ∧ (rcFields r = []) ∧ (r ≠ .prjStatus) ∧ (readsOpen (selOf w s) s r = false)) ∧
    (∃ (id : Nat) (s : State) (c : Cmd) (w : Requester), (cmdReady s id 0x0040 = some c) ∧ (accessRefused c false = none) ∧ (w = .window c.session (Fin.ofNat 3 (arg c 0 1)))) ∧
    (∃ (r : Reg) (s : State), (s.prm.running = true) ∧ (blockOut s r = false) ∧ (rcFields r = []) ∧ (r ≠ .prjStatus) ∧ (readsOpen s.prm.sel s r = false)) ∧
    (∃ (off : Nat) (s : State), (s.prm.running = true) ∧ (off % 8 = 0) ∧ (off < 0x100_0000) ∧ (regAt off = none)) ∧
    (∃ (id : Nat) (s : State) (c : Cmd) (w : Requester), (cmdReady s id 0x0041 = some c) ∧ (accessRefused c true = none) ∧ (w = .window c.session (Fin.ofNat 3 (arg c 0 1))) ∧ (mayAccess w true s = true)) :=
  ⟨⟨priv, .laneSel, 7, base, by decide +kernel⟩,
   ⟨priv, .wdrSticky, 7, { base with wdr := { sticky := 5 } }, by decide +kernel⟩,
   ⟨priv, 0x8000_0000_0000_0000, { base with flt := { base.flt with first := 0x8000_0000_0000_0001 } }, by decide +kernel⟩,
   ⟨priv, 0x120000, 7, base, by decide +kernel⟩,
   ⟨.window 7 0, .rstCtrl, 7, base, by decide +kernel⟩,
   ⟨priv, .wdrSticky, 7, { base with rst := { base.rst with block := 0x2000 } }, by decide +kernel⟩,
   ⟨0, withCmd 0x40 ([0] ++ leBytes 8 (regOffset .stgNow)) base, cmd 0x40 ([0] ++ leBytes 8 (regOffset .stgNow)), .stgNow, .window 7 0, by refine ⟨?_, ?_, rfl, ?_, ?_, ?_, ?_, ?_, ?_⟩ <;> decide +kernel⟩,
   ⟨0, withCmd 0x40 ([0] ++ leBytes 8 0x120000) base, cmd 0x40 ([0] ++ leBytes 8 0x120000), .window 7 0, by refine ⟨?_, ?_, rfl⟩ <;> decide +kernel⟩,
   ⟨.stgNow, base, by decide +kernel⟩,
   ⟨0x120000, base, by decide +kernel⟩,
   ⟨0, withCmd 0x41 ([2] ++ leBytes 8 (regOffset .stgEpoch) ++ leBytes 8 9) base, cmd 0x41 ([2] ++ leBytes 8 (regOffset .stgEpoch) ++ leBytes 8 9), .window 7 2, by refine ⟨?_, ?_, rfl, ?_⟩ <;> decide +kernel⟩⟩

theorem wit_ReadsThatClear :
    (∃ (sel : Selectors) (s : State) (r : Reg), (cycleWord sel s r = regValue sel s r)) ∧
    (∃ (who : Requester) (s : State), (reaches who .wdrOvfCount false s = true)) ∧
    (∃ (who : Requester) (s : State), (reaches who .wdrVoidCount false s = true)) ∧
    (∃ (who : Requester) (s : State), (reaches who .harnSpillCount false s = true)) ∧
    (∃ (who : Requester) (s : State) (m : Fin 65), (reaches who .harnMbrCnt false s = true) ∧ (selMember (selOf who s) = some m)) ∧
    (∃ (who : Requester) (s : State), (reaches who .outrEvents false s = true)) ∧
    (∃ (who : Requester) (s : State), (reaches who .laneErrCount false s = true)) ∧
    (∃ (who : Requester) (s : State), (reaches who .linkErrCount false s = true)) ∧
    (∃ (who : Requester) (s : State), (reaches who .swcDropCount false s = true)) ∧
    (∃ (who : Requester) (s : State), (reaches who .schedQstat false s = true)) ∧
    (∃ (who : Requester) (s : State), (reaches who .mbxDropCount false s = true)) ∧
    (∃ (who : Requester) (s : State), (reaches who .mbxViol false s = true)) :=
  ⟨⟨{}, base, .wdrOvfCount, by decide +kernel⟩,
   ⟨.prompter, { base with wdr := { ovf := 3 } }, by decide +kernel⟩,
   ⟨priv, { base with wdr := { void := 3 } }, by decide +kernel⟩,
   ⟨priv, { base with harn := { spills := 3 } }, by decide +kernel⟩,
   ⟨priv, { base with harn := { members := Vector.replicate 65 { dup := 2 } } }, 0, by decide +kernel⟩,
   ⟨.prompter, base, by decide +kernel⟩,
   ⟨priv, laneState { corr := 3 }, by decide +kernel⟩,
   ⟨.prompter, fabricState, by decide +kernel⟩,
   ⟨priv, fabricState, by decide +kernel⟩,
   ⟨.prompter, swState {}, by decide +kernel⟩,
   ⟨priv, leader, by decide +kernel⟩,
   ⟨priv, base, by decide +kernel⟩⟩

theorem wit_AccessRowsWriteTheirFields :
    (∃ (who : Requester) (v : W64) (s : State), (reaches who .stgCtrl true s = true) ∧ (s.stg.released = true) ∧ (s.cue.run = none) ∧ (v.getLsbD 12 = true)) ∧
    (∃ (who : Requester) (v : W64) (s : State) (p : Port), (reaches who .schedShaper true s = true) ∧ (selFabric (selOf who s) = some p)) ∧
    (∃ (who : Requester) (v : W64) (s : State) (x : Port × Fin 2), (reaches who .schedPolicer true s = true) ∧ (selPolicer (selOf who s) = some x)) ∧
    (∃ (who : Requester) (v : W64) (s : State) (high : Bool), (reaches who (if high then .swcCreditHi else .swcCreditLo) true s = true)) ∧
    (∃ (who : Requester) (v : W64) (s : State), (reaches who .swcCtrl true s = true)) ∧
    (∃ (who : Requester) (v : W64) (s : State), (reaches who .swcRtStatic true s = true)) ∧
    (∃ (who : Requester) (v : W64) (s : State), (reaches who .swcRtSpray true s = true)) ∧
    (∃ (who : Requester) (v : W64) (s : State), (reaches who .leaveCtrl true s = true)) ∧
    (∃ (who : Requester) (v : W64) (s : State), (reaches who .lanePortCtrl true s = true)) ∧
    (∃ (who : Requester) (v : W64) (s : State), (reaches who .outrCtrl true s = true)) ∧
    (∃ (who : Requester) (v : W64) (s : State) (i : SrcId), (reaches who .fltSrcCtrl true s = true) ∧ (selSource (selOf who s) = some i)) :=
  ⟨⟨priv, ones 12 12, base, by decide +kernel⟩,
   ⟨priv, put 5 16 0, base, 0, by decide +kernel⟩,
   ⟨priv, put 5 16 0, base, (0, 0), by decide +kernel⟩,
   ⟨priv, put 5 16 0, base, true, by decide +kernel⟩,
   ⟨priv, put 5 16 8, base, by decide +kernel⟩,
   ⟨priv, ones 63 63 ||| 3, base, by decide +kernel⟩,
   ⟨priv, 5, base, by decide +kernel⟩,
   ⟨priv, put 700 16 48, base, by decide +kernel⟩,
   ⟨priv, ones 0 0, base, by decide +kernel⟩,
   ⟨priv, ones 0 0, base, by decide +kernel⟩,
   ⟨priv, 1, base, 0, by decide +kernel⟩⟩

theorem wit_DoorBeatsAndRestarts :
    (∃ (v : W64) (s : State), (reaches .prompter .fltBeat true s = true) ∧ (v.getLsbD 17 = false) ∧ (v.getLsbD 16 = false)) ∧
    (∃ (v : W64) (s : State), (reaches .prompter .fltBeat true s = true) ∧ (v.getLsbD 17 = true) ∧ ((s.flt.sources[srcFwFatal.val]).st ≠ .active) ∧ ((s.flt.sources[srcFwFatal.val]).react = 4) ∧ (s.door.st = .running) ∧ (mayRestart s = true)) ∧
    (∃ (v : W64) (s : State), (reaches .prompter .fltBeat true s = true) ∧ (v.getLsbD 17 = false) ∧ (v.getLsbD 16 = true) ∧ (s.door.st = .running) ∧ (v.setWidth 16 = s.door.beat + 1)) ∧
    (∃ (s : State), (s.door.st = .running) ∧ (s.door.beatAt + hbTo s + aoCycle ≤ s.time)) ∧
    (∃ (s : State), (s.door.st = .booting) ∧ (s.door.bootAt + bootTo s + aoCycle ≤ s.time) ∧ (mayRestart s = true)) ∧
    (∃ (s : State) (u : Nat), (s.flt.nmiAt = some u) ∧ (u + 10 * ms ≤ s.time) ∧ (s.door.st = .running) ∧ (mayRestart s = true)) ∧
    (∃ (s : State), (s.door.st = .restarting) ∧ (s.door.restartAt + ms ≤ s.time)) ∧
    (∃ (s : State), (s.rst.porAt < s.time) ∧ ((s.time - s.rst.porAt) % togglePeriod = 0) ∧ (s.door.toggleAt ≠ s.time) ∧ (aliveOk s = true)) :=
  ⟨⟨5, { base with door := { base.door with beat := 9 } }, by decide +kernel⟩,
   ⟨ones 17 17, base, by decide +kernel⟩,
   ⟨ones 16 16 ||| 1, base, by decide +kernel⟩,
   ⟨base, by decide +kernel⟩,
   ⟨{ base with door := { base.door with st := .booting } }, by decide +kernel⟩,
   ⟨{ base with flt := { base.flt with nmiAt := some 0 } }, 0, by refine ⟨rfl, ?_, ?_, ?_⟩ <;> decide +kernel⟩,
   ⟨{ base with door := { base.door with st := .restarting } }, by decide +kernel⟩,
   ⟨base, by decide +kernel⟩⟩

theorem wit_FaultSourcesRaiseAndClear :
    (∃ (r : Raise) (s : State), (r.index.toNat < indexCount r.src) ∧ (r.src ≠ srcHeartbeat) ∧ ((s.flt.sources[r.src.val]).st ≠ .active) ∧ (reactOf s r.src ≠ 5)) ∧
    (∃ (r : Raise) (s : State), (r.index.toNat < indexCount r.src) ∧ (r.src ≠ srcHeartbeat) ∧ ((s.flt.sources[r.src.val]).st = .active)) ∧
    (∃ (ev : RailEvent) (s : State), (ev.out = true) ∧ ((s.flt.sources[srcSupply.val]).st ≠ .active) ∧ (reactOf s srcSupply ≠ 5)) ∧
    (∃ (ev : RailEvent) (s : State), (ev.out = false)) ∧
    (∃ (trip : Bool) (s : State), ((s.flt.sources[(if trip then srcThermTrip else srcThermWarn).val]).st ≠ .active) ∧ (reactOf s (if trip then srcThermTrip else srcThermWarn) ≠ 5)) ∧
    (∃ (i : SrcId) (s : State), (isLevel i = false) ∧ (i ≠ srcHeartbeat) ∧ (reactionDone s i = true) ∧ ((s.flt.sources[i.val]).st = .active)) ∧
    (∃ (i : SrcId) (s : State), (isLevel i = true) ∧ (conditionGone s i = true) ∧ ((s.flt.sources[i.val]).st = .active)) ∧
    (∃ (s : State), ((s.flt.sources[srcSupply.val]).st = .active) ∧ (s.rst.asserted.getLsbD 1 = false) ∧ ((∀ x ∈ s.rst.rails, ∃ u, x.2 = some u ∧ u + ms ≤ s.time))) ∧
    (∃ (s : State), ((s.rst.asserted.getLsbD 1 = true ∨ ∃ x ∈ s.rst.rails, ∀ u, x.2 = some u → s.time < u + ms))) ∧
    (∃ (i : SrcId) (s : State), ((s.flt.sources[i.val]).st = .quiet) ∧ ((s.flt.sources[i.val]).since + quietTime s + aoCycle ≤ s.time)) ∧
    (∃ (s : State) (r : LogRec) (rest : List LogRec), (s.flt.queue = r :: rest) ∧ (s.prm.running = true) ∧ (s.rst.memReady = true) ∧ (carriageClear s 4 = true) ∧ (Memory.wf s.dram = true)) :=
  ⟨⟨{ src := 2 }, base, by decide +kernel⟩,
   ⟨{ src := 0x06 }, modSource 0x06 (fun x => { x with st := .active }) base, by decide +kernel⟩,
   ⟨⟨3, true⟩, base, by decide +kernel⟩,
   ⟨⟨3, false⟩, { base with rst := { base.rst with rails := [(3, none)] } }, by decide +kernel⟩,
   ⟨false, base, by decide +kernel⟩,
   ⟨2, modSource 2 (fun x => { x with st := .active }) base, by decide +kernel⟩,
   ⟨1, modSource 1 (fun x => { x with st := .active }) base, by decide +kernel⟩,
   ⟨modSource srcSupply (fun x => { x with st := .active }) { base with rst := { base.rst with rails := [(3, some 5)] } }, ⟨by decide +kernel, by decide +kernel, fun x hx => ⟨5, by simp only [modSource, List.mem_singleton] at hx; subst hx; decide +kernel⟩⟩⟩,
   ⟨{ base with rst := { base.rst with rails := [(3, none)] } }, .inr ⟨(3, none), by decide +kernel⟩⟩,
   ⟨2, modSource 2 (fun x => { x with st := .quiet }) base, by decide +kernel⟩,
   ⟨{ base with flt := { base.flt with queue := [⟨3, 1, 0, 0, 0, 0, 0, 0, 0⟩] } }, ⟨3, 1, 0, 0, 0, 0, 0, 0, 0⟩, [], by decide +kernel⟩⟩

theorem wit_FaultCommandsEnd :
    (∃ (id : Nat) (s : State) (c : Cmd), (cmdReady s id 0x0080 = some c)) ∧
    (∃ (id : Nat) (s : State) (c : Cmd) (i : SrcId), (cmdReady s id 0x0081 = some c) ∧ (arg c 0 1 = i.val) ∧ ((allowedReacts i).contains (arg c 1 1) = true)) ∧
    (∃ (id : Nat) (s : State) (c : Cmd) (i : SrcId), (cmdReady s id 0x0082 = some c) ∧ (s.cue.run = none) ∧ (arg c 0 1 = i.val) ∧ (i ≠ srcHeartbeat) ∧ (arg c 1 1 < indexCount i) ∧ ((s.flt.sources[i.val]).st ≠ .active) ∧ (reactOf s i ≠ 4) ∧ (reactOf s i ≠ 5)) :=
  ⟨⟨0, withCmd 0x80 [] base, cmd 0x80 [], by decide +kernel⟩,
   ⟨0, withCmd 0x81 [0, 5] base, cmd 0x81 [0, 5], 0, by decide +kernel⟩,
   ⟨0, withCmd 0x82 [2, 0] base, cmd 0x82 [2, 0], 2, by decide +kernel⟩⟩

theorem wit_ResetSourcesAndReaches :
    (∃ (who : Requester) (v : W64) (s : State), (reaches who .rstCtrl true s = true) ∧ (fld v 63 56 = 0xB7) ∧ (v.getLsbD 1 = true) ∧ (s.rst.exiting = false)) ∧
    (∃ (who : Requester) (v : W64) (s : State), (reaches who .rstCtrl true s = true) ∧ (fld v 63 56 = 0xB7) ∧ (v.getLsbD 1 = false) ∧ (v.getLsbD 0 = true) ∧ (s.rst.held = false) ∧ (s.rst.exiting = false)) ∧
    (∃ (who : Requester) (v : W64) (s : State), (reaches who .rstBlock true s = true)) ∧
    (∃ (b : Fin 7) (s : State), (4 ≤ b.val) ∧ (s.rst.asserted.getLsbD b.val = true) ∧ (s.rst.warmFor.getLsbD b.val = false) ∧ (timerEnd s b ≤ s.time)) ∧
    (∃ (s : State), (s.rst.asserted.getLsbD 0 = false)) ∧
    (∃ (s : State), (s.rst.asserted.getLsbD 0 = true)) ∧
    (∃ (rail : Fin 8) (s : State), (rail.val ≠ 7) ∧ (s.rst.asserted.getLsbD 1 = false)) ∧
    (∃ (rail : Fin 8) (s : State), (rail.val ≠ 7) ∧ (s.rst.asserted.getLsbD 0 = true)) ∧
    (∃ (rail : Fin 8) (s : State), (rail.val ≠ 7) ∧ (s.rst.asserted.getLsbD 0 = false) ∧ (s.rst.asserted.getLsbD 1 = true)) ∧
    (∃ (s : State), (s.rst.asserted.getLsbD 2 = false)) ∧
    (∃ (s : State), (s.rst.asserted.getLsbD 2 = true)) ∧
    (∃ (s : State), (s.rst.asserted.getLsbD 3 = false) ∧ (s.rst.held = false) ∧ (s.rst.exiting = false)) :=
  ⟨⟨priv, put 0xB7 8 56 ||| 2, base, by decide +kernel⟩,
   ⟨priv, put 0xB7 8 56 ||| 1, base, by decide +kernel⟩,
   ⟨priv, ones 13 13, base, by decide +kernel⟩,
   ⟨4, { base with rst := { base.rst with asserted := 0x10, held := true } }, by decide +kernel⟩,
   ⟨{ base with boxDie := { base.boxDie with powered := true } }, by decide +kernel⟩,
   ⟨{ base with rst := { base.rst with asserted := 1, held := true } }, by decide +kernel⟩,
   ⟨0, base, by decide +kernel⟩,
   ⟨3, { base with rst := { base.rst with asserted := 3 } }, by decide +kernel⟩,
   ⟨3, { base with rst := { base.rst with asserted := 2 } }, by decide +kernel⟩,
   ⟨base, by decide +kernel⟩,
   ⟨{ base with rst := { base.rst with asserted := 4, held := true } }, by decide +kernel⟩,
   ⟨base, by decide +kernel⟩⟩

set_option maxRecDepth 100000 in
theorem wit_WarmEntryAndExit :
    (∃ (s : State) (u : Nat), (s.rst.warmAt = some u) ∧ (s.time < u + 50 * us)) ∧
    (∃ (s : State) (u : Nat), (s.rst.warmAt = some u) ∧ (u + 50 * us ≤ s.time)) ∧
    (∃ (s : State) (samples : List (List (BitVec 6))), (s.rst.held = true) ∧ (s.rst.asserted = 0) ∧ (s.rst.warmAt = none)) ∧
    (∃ (s : State) (u : Nat), (s.rst.warmAt = some u) ∧ (u + 50 * us ≤ s.time)) ∧
    (∃ (s : State), (s.rst.exiting = true) ∧ (s.rst.ondie = false)) ∧
    (∃ (s : State), (s.rst.held = false) ∧ (s.rst.warmAt = none) ∧ (s.rst.refLock = false)) ∧
    (∃ (s : State), (s.rst.held = false) ∧ (s.rst.warmAt = none) ∧ (s.rst.refLock = false) ∧ (s.rst.exitAt + 10 * ms ≤ s.time)) ∧
    (∃ (s : State), (s.rst.exiting = true) ∧ (s.rst.ondie = true) ∧ (s.rst.exit ≠ 1)) ∧
    (∃ (s : State) (reads : List (Option (List Byte))) (b : List Byte), (s.rst.held = false) ∧ (s.rst.optDone = false) ∧ (readsEnded s reads = true) ∧ (((reads.take 3).find? (fun x => x.isSome)).bind id = some b) ∧ (tableOk b = true) ∧ ((∀ l, l < 512 → (tableEntry b l).isSome = true))) ∧
    (∃ (s : State), (s.rst.held = false) ∧ (s.rst.optDone = false) ∧ (s.rst.choice.getLsbD 1 = false) ∧ (reactOf s srcLane ≠ 5)) ∧
    (∃ (s : State), (s.rst.choice.getLsbD 1 = false)) ∧
    (∃ (s : State), (s.rst.exiting = true) ∧ (s.rst.ondie = true) ∧ ((s.rst.exit = 1 ∨ s.rst.trained = true))) :=
  ⟨⟨{ base with rst := { base.rst with warmAt := some 3999999999999, warmFor := 0x20 } }, 3999999999999, by decide +kernel⟩,
   ⟨{ base with rst := { base.rst with warmAt := some 0, warmFor := 0x20 } }, 0, by refine ⟨rfl, ?_⟩ <;> decide +kernel⟩,
   ⟨{ base with rst := { base.rst with held := true, widest := .cold } }, [List.replicate 8 20], by decide +kernel⟩,
   ⟨{ base with rst := { base.rst with warmAt := some 5, warmFor := 0x20 } }, 5, by decide +kernel⟩,
   ⟨{ base with rst := { base.rst with exiting := true, ondie := false } }, by decide +kernel⟩,
   ⟨{ base with rst := { base.rst with refLock := false } }, by decide +kernel⟩,
   ⟨{ base with rst := { base.rst with refLock := false } }, by decide +kernel⟩,
   ⟨{ base with rst := { base.rst with exiting := true } }, by decide +kernel⟩,
   ⟨base, [some eqTable], eqTable, ⟨by decide +kernel, by decide +kernel, by decide +kernel, rfl, eqTable_ok, eqTable_entries⟩⟩,
   ⟨base, by decide +kernel⟩,
   ⟨base, by decide +kernel⟩,
   ⟨{ base with rst := { base.rst with exiting := true, exit := 1, memReady := false } }, by decide +kernel⟩⟩

theorem wit_StageClockFollowsTheGrid :
    (∃ (s : State) (c : W64), (s.stg.released = true) ∧ (s.stg.st ≠ .stopped) ∧ (c = (if (lastWrite s .stgCtrl 0).isSome then cycleWord {} s .stgCtrl else s.stg.ctrl))) ∧
    (∃ (s : State), (s.stg.released = true) ∧ (tracking s = true) ∧ (gridPoint s s.stg.nextK + 16 < (s.stg.now.toNat : Int)) ∧ (reactOf s srcStageHold ≠ 5)) ∧
    (∃ (s : State), (s.stg.released = true) ∧ (tracking s = true) ∧ (s.stg.slew ≠ 0) ∧ (s.stg.sinceSlew + 1 ≥ 4096)) ∧
    (∃ (s : State), (s.stg.st = .holdover) ∧ (s.stg.holdAt + 1000 * ms ≤ s.time)) ∧
    (∃ (s : State), (s.stg.st = .machine) ∧ (stgRoot s = false) ∧ (s.stg.noticeAt + 64 * tmarkPeriod ≤ s.time)) ∧
    (∃ (s : State), (s.stg.released = true) ∧ (s.stg.st ≠ .stopped) ∧ (reactOf s srcStagePll ≠ 5)) ∧
    (∃ (s : State), (s.stg.st = .stopped)) :=
  ⟨⟨{ base with stg := { base.stg with ctrl := ones 12 12, epochReg := 77 } }, ones 12 12, by refine ⟨?_, ?_, rfl⟩ <;> decide +kernel⟩,
   ⟨{ base with stg := { base.stg with captured := some 3 } }, by decide +kernel⟩,
   ⟨{ base with stg := { base.stg with slew := -3, sinceSlew := 4095 } }, by decide +kernel⟩,
   ⟨{ base with stg := { base.stg with st := .holdover } }, by decide +kernel⟩,
   ⟨{ base with stg := { base.stg with st := .machine } }, by decide +kernel⟩,
   ⟨base, by decide +kernel⟩,
   ⟨{ base with stg := { base.stg with st := .stopped } }, by decide +kernel⟩⟩

theorem wit_TimeTreeAndNotices :
    (∃ (s : State), (s.stg.released = true) ∧ (stgLeader s = true) ∧ (tracking s = true) ∧ (s.stg.exchangeK ≠ some (periodNow s)) ∧ (isOpen s (stgParent s) = true) ∧ ((s.lane.ports[(stgParent s).val]).startAt.isSome = true)) ∧
    (∃ (s : State) (pk : Packet) (sfc : BitVec 16) (t1 t4 : W64), (pk.kind = kTime) ∧ (lengthOk pk = true) ∧ (s.stg.released = true) ∧ ((byteAt pk.bytes 0).getLsbD 0 = true) ∧ ((byteAt pk.bytes 0).getLsbD 1 = true) ∧ ((byteAt pk.bytes 0).getLsbD 2 = false) ∧ (s.stg.exchange = some (sfc, t1)) ∧ (stgLeader s = true) ∧ (leAt pk.bytes 2 2 = sfc.toNat) ∧ (sfcTick s (stgParent s) (BitVec.ofNat 16 (leAt pk.bytes 4 2)) = some t4)) ∧
    (∃ (s : State), (s.stg.released = true) ∧ (stgLeader s = true) ∧ (tracking s = true) ∧ (s.stg.noticeK ≠ some (periodNow s))) ∧
    (∃ (s : State) (p : Port) (pk : Packet), (pk.kind = kNotice) ∧ (lengthOk pk = true) ∧ (s.stg.released = true) ∧ (s.stg.seen.contains (BitVec.ofNat 10 (leAt pk.bytes 0 2), BitVec.ofNat 64 (leAt pk.bytes 8 8)) = false) ∧ (BitVec.ofNat 10 (leAt pk.bytes 0 2) = stgRack s)) ∧
    (∃ (s : State) (n : NoticeRec) (rest : List NoticeRec), (s.stg.released = true) ∧ (tracking s = true) ∧ (s.stg.notices = n :: rest) ∧ (gridPoint s n.k.toNat ≤ (s.stg.now.toNat : Int))) :=
  ⟨⟨leader, by decide +kernel⟩,
   ⟨{ leader with stg := { leader.stg with exchange := some (7, 400) } }, (pkt kTime 7 ([3, 0] ++ leBytes 2 7 ++ leBytes 2 9 ++ zeros 10 ++ leBytes 8 450 ++ leBytes 8 460)), 7, 400, 500, by decide +kernel⟩,
   ⟨leader, by decide +kernel⟩,
   ⟨base, 2, (pkt kNotice 7 (zeros 16)), by decide +kernel⟩,
   ⟨{ base with stg := { base.stg with notices := [⟨0, 5, true, false⟩] } }, ⟨0, 5, true, false⟩, [], by decide +kernel⟩⟩

theorem wit_StepsOpenAndCuesLaunch :
    (∃ (s : State) (sh : Sheet) (r : Run), (s.cue.sheet = some sh) ∧ (s.cue.run = some r) ∧ (mayOpen s sh r = true)) ∧
    (∃ (s : State) (sh : Sheet) (r : Run) (o : OpenStep) (i : Inst) (w : CueWord) (step cue : Nat), (s.cue.sheet = some sh) ∧ (s.cue.run = some r) ∧ (openStep s step = some o) ∧ (instOf s step cue = some i) ∧ (cueWord s cue = some w) ∧ (mayLaunch s sh r o i w = true)) ∧
    (∃ (s : State) (i : Inst) (w : CueWord) (step cue : Nat), (instOf s step cue = some i) ∧ (cueWord s cue = some w) ∧ (i.st = .running) ∧ (tickReached s i w 0 = true)) ∧
    (∃ (s : State) (i : Inst) (w : CueWord) (step cue : Nat), (instOf s step cue = some i) ∧ (cueWord s cue = some w) ∧ (i.acted = false) ∧ (tickReached s i w (cGrace w) = true) ∧ (headed (cKind w) = false)) ∧
    (∃ (s : State) (i : Inst) (w : CueWord) (step cue h : Nat) (sh : SheetHead) (hd : Head), (instOf s step cue = some i) ∧ (cueWord s cue = some w) ∧ (i.acted = false) ∧ (tickReached s i w (cGrace w) = true) ∧ (headed (cKind w) = true) ∧ (headIdx s (cHid w) = some h) ∧ (sheetHead s h = some sh) ∧ (s.harn.heads[h]? = some hd)) ∧
    (∃ (s : State) (i : Inst) (w : CueWord) (step cue h m : Nat) (sh : SheetHead) (hd : Head), (instOf s step cue = some i) ∧ (cueWord s cue = some w) ∧ (i.acted = false) ∧ (tickReached s i w (cGrace w) = true) ∧ (headed (cKind w) = true) ∧ (headIdx s (cHid w) = some h) ∧ (sheetHead s h = some sh) ∧ (s.harn.heads[h]? = some hd) ∧ (i.st ≠ .done) ∧ (m ∈ slotsOf hd.expected) ∧ (unreceived s h step m > 0)) :=
  ⟨⟨withRun (sheetOf head0 [cueW 1 5 0 10 0 0, cueW 0 0 0 10 0 0]) (some run0) base, (sheetOf head0 [cueW 1 5 0 10 0 0, cueW 0 0 0 10 0 0]), run0, by decide +kernel⟩,
   ⟨withRun (sheetOf head0 [cueW 1 5 0 10 0 0, cueW 0 0 0 10 0 0]) (some (runOf [{ cue := 0 }, { cue := 1 }])) base, (sheetOf head0 [cueW 1 5 0 10 0 0, cueW 0 0 0 10 0 0]), runOf [{ cue := 0 }, { cue := 1 }], openOf [{ cue := 0 }, { cue := 1 }], { cue := 1 }, cueW 0 0 0 10 0 0, 4, 1, by decide +kernel⟩,
   ⟨withRun (sheetOf head0 [cueW 1 5 0 10 0 0, cueW 0 0 0 10 0 0]) (some (runOf [{ cue := 0, st := .running, launched := true }, { cue := 1 }])) base, { cue := 0, st := .running, launched := true }, cueW 1 5 0 10 0 0, 4, 0, by decide +kernel⟩,
   ⟨withRun (sheetOf head0 [cueW 1 5 0 10 0 0, cueW 0 0 0 10 0 0]) (some (runOf [{ cue := 0 }, { cue := 1, st := .running, launched := true }])) base, { cue := 1, st := .running, launched := true }, cueW 0 0 0 10 0 0, 4, 1, by decide +kernel⟩,
   ⟨withRun (sheetOf head0 [cueW 1 5 0 10 0 0, cueW 0 0 0 10 0 0]) (some (runOf [{ cue := 0, st := .running, launched := true }, { cue := 1 }])) base, { cue := 0, st := .running, launched := true }, cueW 1 5 0 10 0 0, 4, 0, 0, head0, hd0, by decide +kernel⟩,
   ⟨withRun (sheetOf head0 [cueW 1 5 0 10 0 0, cueW 0 0 0 10 0 0]) (some (runOf [{ cue := 0, st := .running, launched := true }, { cue := 1 }])) base |> (fun s => { s with harn := { s.harn with slots := [gath] } }), { cue := 0, st := .running, launched := true }, cueW 1 5 0 10 0 0, 4, 0, 0, 1, head0, hd0, by decide +kernel⟩⟩

theorem wit_PlansLiveSetAndAdmissions :
    (∃ (m : MemCmd) (s u : State) (c : Cmd) (b : List Byte), (cmdReady s m.id 0x0020 = some c) ∧ (arg c 0 4 ≤ 1048576) ∧ (Reads s u m 0x0020 planWindow (arg c 0 4)) ∧ (b = memRead u.dram planWindow (arg c 0 4)) ∧ (checkPlan u b = none)) ∧
    (∃ (id : Nat) (s : State) (c : Cmd) (p : Plan), (cmdReady s id 0x0021 = some c) ∧ (s.cue.run = none) ∧ (s.topo.plan = some p)) ∧
    (∃ (id : Nat) (s : State) (c : Cmd) (p : Port) (r : Roll), (cmdReady s id 0x0023 = some c) ∧ (arg c 1 1 = 1) ∧ (arg c 0 1 = p.val) ∧ ((s.link[p.val]).state = .offBook) ∧ ((s.link[p.val]).peerRoll = some r)) ∧
    (∃ (id : Nat) (s : State) (c : Cmd) (p : Port) (r : Roll), (cmdReady s id 0x0023 = some c) ∧ (arg c 1 1 = 0) ∧ (arg c 0 1 = p.val) ∧ ((s.link[p.val]).state = .opened) ∧ ((s.link[p.val]).peerRoll = some r) ∧ (peerMatches s p r = false)) ∧
    (∃ (m : MemCmd) (s u v : State) (c : Cmd) (p : Plan) (req : List PlaceShard) (cs : List PlaceCompany), (cmdReady s m.id 0x0022 = some c) ∧ (s.cue.run = none) ∧ (s.topo.plan = some p) ∧ (72 * arg c 0 2 + 32 * arg c 2 4 ≤ 133169152) ∧ (Reads s u m 0x0022 placeWindow (72 * arg c 0 2 + 32 * arg c 2 4)) ∧ (Reads u v m 0x0022 shardTable tableBytes) ∧ (cs = (List.range (arg c 0 2)).map (fun i => readPlaceCompany (memRead v.dram (placeWindow + 72 * i) 72))) ∧ (req = (List.range (arg c 2 4)).map (fun i => readPlaceShard (memRead v.dram (placeWindow + 72 * arg c 0 2 + 32 * i) 32)))) :=
  ⟨⟨⟨0, []⟩, planState, planState, cmd 0x20 (leBytes 4 288), planImage, ⟨by decide +kernel, by decide +kernel, ⟨rfl, by decide +kernel⟩, planState_read, planImage_ok _ rfl rfl⟩⟩,
   ⟨0, withCmd 0x21 [3] { base with topo := { base.topo with plan := some plan0 } }, cmd 0x21 [3], plan0, by decide +kernel⟩,
   ⟨0, withCmd 0x23 [2, 1] (modLink 2 (fun l => { l with state := .offBook, peerRoll := some roll0 }) base), cmd 0x23 [2, 1], 2, roll0, by decide +kernel⟩,
   ⟨0, withCmd 0x23 [2, 0] (modLink 2 (fun l => { l with state := .opened, peerRoll := some roll0 }) base), cmd 0x23 [2, 0], 2, roll0, by decide +kernel⟩,
   ⟨⟨0, []⟩, withCmd 0x22 (zeros 6) { base with topo := { base.topo with plan := some plan0, live := planSerials plan0 } }, readErrors placeWindow (72 * arg (cmd 0x22 (zeros 6)) 0 2 + 32 * arg (cmd 0x22 (zeros 6)) 2 4) [] (withCmd 0x22 (zeros 6) { base with topo := { base.topo with plan := some plan0, live := planSerials plan0 } }), readErrors shardTable (tableBytes) [] (readErrors placeWindow (72 * arg (cmd 0x22 (zeros 6)) 0 2 + 32 * arg (cmd 0x22 (zeros 6)) 2 4) [] (withCmd 0x22 (zeros 6) { base with topo := { base.topo with plan := some plan0, live := planSerials plan0 } })), cmd 0x22 (zeros 6), plan0, [], [], by refine ⟨?_, ?_, ?_, ?_, ⟨rfl, ?_⟩, ⟨rfl, ?_⟩, rfl, rfl⟩ <;> decide +kernel⟩⟩

theorem wit_ShardsCreateFillRemoveAndPromote :
    (∃ (m : MemCmd) (s u : State) (c : Cmd) (i base : Nat), (cmdReady s m.id 0x0030 = some c) ∧ (arg c 2 8 ≠ 0) ∧ (arg c 2 8 ≤ 2 ^ 32) ∧ (Reads s u m 0x0030 shardTable tableBytes) ∧ (findShard u (BitVec.ofNat 16 (arg c 0 2)) = none) ∧ (freeRecord u = some i) ∧ (findRoom u (arg c 2 8) = some base) ∧ (Memory.wf u.dram = true)) ∧
    (∃ (ri : Fin 4096) (s : State) (n : Nat), ((ri.val, n) ∈ s.grm.fills) ∧ (carriageTurn s 3 n = true)) ∧
    (∃ (m : MemCmd) (s u : State) (c : Cmd) (i : Nat), (cmdReady s m.id 0x0031 = some c) ∧ (Reads s u m 0x0031 shardTable tableBytes) ∧ (findShard u (BitVec.ofNat 16 (arg c 0 2)) = some i) ∧ (runNames u (BitVec.ofNat 16 (arg c 0 2)) = false) ∧ (Memory.wf u.dram = true)) ∧
    (∃ (m : MemCmd) (s u : State) (c : Cmd) (i : Nat), (cmdReady s m.id 0x0032 = some c) ∧ (s.cue.run = none) ∧ (Reads s u m 0x0032 shardTable tableBytes) ∧ (findShard u (BitVec.ofNat 16 (arg c 0 2)) = some i) ∧ ((readShard u i).role = roleUnderstudy) ∧ (Memory.wf u.dram = true)) :=
  ⟨⟨⟨0, []⟩, withCmd 0x30 (leBytes 2 9 ++ leBytes 8 64) base, readErrors shardTable (tableBytes) [] (withCmd 0x30 (leBytes 2 9 ++ leBytes 8 64) base), cmd 0x30 (leBytes 2 9 ++ leBytes 8 64), 0, 0, by refine ⟨?_, ?_, ?_, ⟨rfl, ?_⟩, ?_, ?_, ?_, ?_⟩ <;> decide +kernel⟩,
   ⟨0, { withShard shard0 base with grm := { base.grm with fills := [(0, 4)] } }, 4, by decide +kernel⟩,
   ⟨⟨0, []⟩, withCmd 0x31 [5, 0] (withShard shard0 base), readErrors shardTable (tableBytes) [] (withCmd 0x31 [5, 0] (withShard shard0 base)), cmd 0x31 [5, 0], 0, by refine ⟨?_, ⟨rfl, ?_⟩, ?_, ?_, ?_⟩ <;> decide +kernel⟩,
   ⟨⟨0, []⟩, withCmd 0x32 [5, 0] (withShard { shard0 with role := roleUnderstudy } base), readErrors shardTable (tableBytes) [] (withCmd 0x32 [5, 0] (withShard { shard0 with role := roleUnderstudy } base)), cmd 0x32 [5, 0], 0, by refine ⟨?_, ?_, ⟨rfl, ?_⟩, ?_, ?_, ?_⟩ <;> decide +kernel⟩⟩

theorem wit_LeaveIsGrantedRampedAndEnded :
    (∃ (id : Nat) (s : State) (c : Cmd), (cmdReady s id 0x0070 = some c)) ∧
    (∃ (step cue : Nat) (s : State) (i : Inst) (w : CueWord), (instOf s step cue = some i) ∧ (cueWord s cue = some w) ∧ (mayRequest s step cue i w = true)) ∧
    (∃ (s : State) (q : LeaveReq) (rest : List LeaveReq), (s.rid.requests = q :: rest) ∧ (endsFirst s = false) ∧ (windowsFirst s = false) ∧ (grantFits s (classWatts q.lclass.toNat + (if libertyMode s then 0 else soonWatts s)) (ordinaryRamp s) = true)) ∧
    (∃ (grant : Nat) (s : State) (g : Grant) (win : Bool), (findGrant s grant = some g) ∧ ((if win then endDue s g else releaseDue s g) = true)) ∧
    (∃ (step entry tk : Nat) (s : State) (p : PreGrant), (openTick s step entry = some tk) ∧ (endsFirst s = false) ∧ (earlierWindow s tk step entry = false) ∧ (windowGrant s step entry = none) ∧ (preGrantOf s entry = some p)) ∧
    (∃ (grant : Nat) (s : State) (g : Grant), (findGrant s grant = some g) ∧ (g.st = .tail) ∧ (g.inFlight = 0)) ∧
    (∃ (grant : Nat) (s : State) (g : Grant), (findGrant s grant = some g) ∧ (ramping g = true) ∧ (g.rampAt + us ≤ s.time)) ∧
    (∃ (pest : BitVec 16) (s : State) (cap : Nat), (s.rid.released = true) ∧ (s.rid.throttleAt + us ≤ s.time) ∧ (capNow s = some cap)) :=
  ⟨⟨0, withCmd 0x70 [] base, cmd 0x70 [], by decide +kernel⟩,
   ⟨4, 0, reqState, going, updWord, by decide +kernel⟩,
   ⟨{ base with rid := { base.rid with released := true, board := some (950, 50), requests := [⟨4, 0, 1, 0⟩] } }, ⟨4, 0, 1, 0⟩, [], by decide +kernel⟩,
   ⟨3, { base with rid := { base.rid with released := true, board := some (950, 50), grants := [{ id := 3, window := none, step := 4, cue := 0, lclass := 1, watts := 24, ramp := 25 }] } }, { id := 3, window := none, step := 4, cue := 0, lclass := 1, watts := 24, ramp := 25 }, false, by decide +kernel⟩,
   ⟨4, 0, 0, withRun { sheetOf head0 [cueW 2 5 1 0 0 0] with liberty := false, period := 1000000, preGrants := [⟨0, 500000, 30, 1, 25⟩] } (some (runOf [{ cue := 0 }])) { base with rid := { base.rid with released := true, board := some (950, 50), grants := [] } }, ⟨0, 500000, 30, 1, 25⟩, by decide +kernel⟩,
   ⟨3, { base with rid := { base.rid with released := true, board := some (950, 50), grants := [{ id := 3, window := none, step := 4, cue := 0, lclass := 1, watts := 24, ramp := 25, st := .tail }] } }, { id := 3, window := none, step := 4, cue := 0, lclass := 1, watts := 24, ramp := 25, st := .tail }, by decide +kernel⟩,
   ⟨3, { base with rid := { base.rid with released := true, board := some (950, 50), grants := [{ id := 3, window := none, step := 4, cue := 0, lclass := 1, watts := 24, ramp := 25 }] } }, { id := 3, window := none, step := 4, cue := 0, lclass := 1, watts := 24, ramp := 25 }, by decide +kernel⟩,
   ⟨700, { base with rid := { base.rid with released := true, board := some (950, 50), grants := [] } }, 950, by decide +kernel⟩⟩

theorem wit_BoxOfficeReceiverKeepsAndCopies :
    (∃ (s : State), (s.rid.released = true) ∧ (s.rid.lost = false) ∧ (s.rid.lastAt + 10 * ms ≤ s.time) ∧ (reactOf s srcBox ≠ 5)) ∧
    (∃ (id : Nat) (s : State) (c : Cmd) (r : List Byte) (rest : List (List Byte)), (cmdReady s id 0x0071 = some c) ∧ (s.boxRx.readings = r :: rest)) ∧
    (∃ (id : Nat) (s : State) (c : Cmd) (r : List Byte) (rest : List (List Byte)) (out : List Byte), (cmdReady s id 0x0072 = some c) ∧ ((s.boxRx.readings.reverse.filter (fun r => decide (arg c 0 8 ≤ leAt r 8 8))).take (arg c 8 4) = r :: rest) ∧ (out = (r :: rest).flatten ++ s.boxRx.ckpts.reverse.flatten ++ s.boxRx.ident ++ s.boxRx.logs.reverse.flatten) ∧ (pageOk s (arg c 12 4) out.length = true) ∧ (Memory.wf s.dram = true)) :=
  ⟨⟨{ base with rid := { base.rid with released := true } }, by decide +kernel⟩,
   ⟨0, withCmd 0x71 [] { base with boxRx := { base.boxRx with readings := [readingOf 7] } }, cmd 0x71 [], readingOf 7, [], by decide +kernel⟩,
   ⟨0, withCmd 0x72 (leBytes 8 5 ++ leBytes 4 1 ++ leBytes 4 3) { base with boxRx := { base.boxRx with readings := [readingOf 7, readingOf 4] } }, cmd 0x72 (leBytes 8 5 ++ leBytes 4 1 ++ leBytes 4 3), readingOf 7, [], readingOf 7, by decide +kernel⟩⟩

theorem wit_BoxOfficeDieMeters :
    (∃ (energy : Vector W64 8) (power : Vector (BitVec 16) 8) (slow : W64) (s : State), (s.boxDie.powered = true) ∧ (s.boxDie.closeAt ≤ s.time) ∧ (ckptLate s.boxDie = false)) ∧
    (∃ (energy : Vector W64 8) (power : Vector (BitVec 16) 8) (slow : W64) (s : State), (ckptLate s.boxDie = true)) ∧
    (∃ (s : State) (seq : W64) (chain : List Byte), (s.boxDie.ckptDue = some (seq, chain)) ∧ (s.boxDie.powered = true)) ∧
    (∃ (cause : LogCause) (s : State), (logIsDue s.boxDie cause = true) ∧ (s.boxDie.powered = true)) ∧
    (∃ (s : State), (s.boxDie.powered = false) ∧ (s.rst.asserted.getLsbD 0 = false)) ∧
    (∃ (s : State), (s.boxDie.powered = false) ∧ (s.boxDie.sealOpen = true)) ∧
    (∃ (high : Bool) (s : State), (s.boxDie.powered = true) ∧ (s.boxDie.sealOpen ≠ high)) :=
  ⟨⟨(Vector.replicate 8 3), (Vector.replicate 8 4), 9, dieState { die with capNext := some (700, 20) }, by decide +kernel⟩,
   ⟨(Vector.replicate 8 3), (Vector.replicate 8 4), 9, dieState { die with ckptDue := some (5, [1]), seq := 506 }, by decide +kernel⟩,
   ⟨dieState { die with ckptDue := some (5, [1, 2]), energy := Vector.replicate 8 6 }, 5, [1, 2], by decide +kernel⟩,
   ⟨.powerUp, dieState { die with logDue := [.powerUp, .firmware] }, by decide +kernel⟩,
   ⟨dieState { die with powered := false, stored := some (Vector.replicate 8 2, [3], 2053) }, by decide +kernel⟩,
   ⟨dieState { die with powered := false, sealOpen := true, staged := some [(0, 1)] }, by decide +kernel⟩,
   ⟨false, dieState { die with staged := some [(0, 1)] }, by decide +kernel⟩⟩

theorem wit_BoxOfficePortAnswers :
    (∃ (s : State), (s.boxDie.powered = true) ∧ (s.boxDie.last ≠ [])) ∧
    (∃ (s : State), (s.boxDie.powered = true)) ∧
    (∃ (s : State), (s.boxDie.powered = true) ∧ (s.boxDie.ckpt ≠ [])) ∧
    (∃ (index : BitVec 32) (s : State) (r : List Byte), (s.boxDie.powered = true) ∧ (s.boxDie.logs[index.toNat]? = some r) ∧ (r ≠ [])) ∧
    (∃ (s : State), (s.boxDie.powered = true)) ∧
    (∃ (cap didt : BitVec 16) (s : State), (s.boxDie.powered = true)) ∧
    (∃ (offset : BitVec 32) (data : List Byte) (s : State), (s.boxDie.powered = true)) ∧
    (∃ (len : BitVec 32) (s : State), (s.boxDie.powered = true)) ∧
    (∃ (offset : BitVec 32) (data : List Byte) (dummy : Byte), (data.length = 256)) :=
  ⟨⟨dieState { die with last := [1, 2] }, by decide +kernel⟩,
   ⟨dieState { die with lastOk := true }, by decide +kernel⟩,
   ⟨dieState { die with ckpt := [3] }, by decide +kernel⟩,
   ⟨0, dieState { die with logs := [[4]] }, [4], by decide +kernel⟩,
   ⟨dieState { die with lastOk := true }, by decide +kernel⟩,
   ⟨700, 20, dieState die, by decide +kernel⟩,
   ⟨2, [9, 8], dieState { die with staged := some [(3, 1)] }, by decide +kernel⟩,
   ⟨4, dieState { die with staged := some [(3, 1)] }, by decide +kernel⟩,
   ⟨7, zeros 256, 9, by decide +kernel⟩⟩

theorem wit_ContributionsAreAddedOnce :
    (∃ (fromChild : Bool) (p : Port) (pk : Packet) (s u : State) (h : Nat) (x : Slot), (pk.kind = (if fromChild then kPartial else kContrib)) ∧ (lengthOk pk = true) ∧ (chunkRoom s (chunks pk) = true) ∧ (u = takeHanded p pk s) ∧ (behind u pk u.harn.intake = false) ∧ (intakeTest pk u = .take h) ∧ (slotOf u h (pSeg pk) = some x) ∧ (teamOut u (slotTeam u x) = false) ∧ (slotAcc x ≠ 6) ∧ (Memory.wf s.dram = true)) ∧
    (∃ (fromChild : Bool) (p : Port) (pk : Packet) (s u : State) (h : Nat) (sh : SheetHead) (hd : Head) (x : Slot), (pk.kind = (if fromChild then kPartial else kContrib)) ∧ (lengthOk pk = true) ∧ (chunkRoom s (chunks pk) = true) ∧ (u = takeHanded p pk s) ∧ (behind u pk u.harn.intake = false) ∧ (intakeTest pk u = .take h) ∧ (slotOf u h (pSeg pk) = none) ∧ (sheetHead u h = some sh) ∧ (u.harn.heads[h]? = some hd) ∧ (Memory.wf s.dram = true) ∧ (((∃ i, freeResident u = some i ∧ x.index = i ∧ x.st = .armed) ∨ (freeResident u = none ∧ ∃ i, freeImage u = some i ∧ x.index = residents + i ∧ x.st = .spilled))) ∧ (x = { index := x.index, head := h, seg := pSeg pk, st := x.st, fmt := sh.fmt, seglen := segLen sh (pSeg pk), step := hd.step, scale := (windowEntry hd (pSeg pk)).getD 0, expected := hd.expected, acc := List.replicate (segLen sh (pSeg pk)) 0 }) ∧ (slotAcc x ≠ 6) ∧ (teamOut u (slotTeam u x) = false)) ∧
    (∃ (fromChild : Bool) (p : Port) (pk : Packet) (s u : State) (h : Nat) (x z : Slot), (pk.kind = (if fromChild then kPartial else kContrib)) ∧ (lengthOk pk = true) ∧ (chunkRoom s (chunks pk) = true) ∧ (u = takeHanded p pk s) ∧ (behind u pk u.harn.intake = false) ∧ (intakeTest pk u = .take h) ∧ (slotOf u h (pSeg pk) = some x) ∧ (teamOut u (slotTeam u x) = false) ∧ (slotAcc x = 6) ∧ (x.st ≠ .spilled) ∧ (z = { x with received := x.received ||| slotBit (pMslot pk), blkovf := x.blkovf ||| contrOvf x pk })) ∧
    (∃ (fromChild : Bool) (p : Port) (pk : Packet) (s u : State) (bit : Nat), (pk.kind = (if fromChild then kPartial else kContrib)) ∧ (lengthOk pk = true) ∧ (chunkRoom s (chunks pk) = true) ∧ (u = takeHanded p pk s) ∧ (behind u pk u.harn.intake = false) ∧ (intakeTest pk u = .drop bit)) ∧
    (∃ (k : Nat) (s : State) (w : Waiting) (h : Nat) (x : Slot), (s.harn.intake[k]? = some w) ∧ (behind s w.packet (s.harn.intake.take k) = false) ∧ (intakeTest w.packet s = .take h) ∧ (slotOf s h (pSeg w.packet) = some x) ∧ (teamOut s (slotTeam s x) = false) ∧ (slotAcc x ≠ 6)) ∧
    (∃ (p : Port) (pk : Packet) (s : State) (h : Nat) (sh : SheetHead), (pk.kind = kWindow) ∧ (lengthOk pk = true) ∧ (headIdx s (pHid pk) = some h) ∧ (sheetHead s h = some sh)) :=
  ⟨⟨false, 3, contribOf 1, stage updSheet [gath] [], takeHanded 3 (contribOf 1) (stage updSheet [gath] []), 0, gath, by and_intros; (iterate 3 decide +kernel); exact rfl; all_goals decide +kernel⟩,
   ⟨false, 3, contribOf 1, stage updSheet [] [], takeHanded 3 (contribOf 1) (stage updSheet [] []), 0, head0, hd0, { index := 0, head := 0, seg := 0, st := .armed, fmt := 3, seglen := 64, step := 4, scale := (windowEntry hd0 0).getD 0, expected := 3, acc := List.replicate 64 0 }, by and_intros; (iterate 3 decide +kernel); exact rfl; (iterate 6 decide +kernel); exact .inl ⟨0, by decide +kernel⟩; all_goals decide +kernel⟩,
   ⟨false, 3, floatContrib 1, stage floatSheet [floatSlot] [], takeHanded 3 (floatContrib 1) (stage floatSheet [floatSlot] []), 0, floatSlot, { floatSlot with received := 3, blkovf := contrOvf floatSlot (floatContrib 1) }, by and_intros; (iterate 3 decide +kernel); exact rfl; (iterate 6 decide +kernel); exact rfl⟩,
   ⟨true, 3, partialOf 2, stage updSheet [gath] [], takeHanded 3 (partialOf 2) (stage updSheet [gath] []), 3, by refine ⟨?_, ?_, ?_, rfl, ?_, ?_⟩ <;> decide +kernel⟩,
   ⟨0, { stage updSheet [gath] [] with harn := { (stage updSheet [gath] []).harn with intake := [⟨contribOf 1⟩] } }, ⟨contribOf 1⟩, 0, gath, by decide +kernel⟩,
   ⟨3, windowPacket 5 4 1 0, stage updSheet [{ fslot with forwarded := true }] [], 0, head0, by decide +kernel⟩⟩

theorem wit_SlotsSpillReloadAndRelease :
    (∃ (idx : Fin 32768) (s : State) (x : Slot), (s.harn.slots.find? (fun x => decide (x.index = idx.val) && decide (x.st = .spilling)) = some x) ∧ (slotOf s x.head x.seg = some x) ∧ (carriageTurn s 2 x.issue = true) ∧ (Memory.wf s.dram = true)) ∧
    (∃ (idx : Fin 32768) (ws : List Nat) (s : State) (x : Slot), (s.harn.slots.find? (fun x => decide (x.index = idx.val) && decide (x.st = .spilling)) = some x) ∧ (slotOf s x.head x.seg = some x) ∧ (carriageTurn s 2 x.issue = true) ∧ (reactOf s srcArenaCorr ≠ 5) ∧ (reactOf s srcArenaUncorr ≠ 5)) ∧
    (∃ (idx : Fin 32768) (s : State) (x : Slot), (s.harn.slots.find? (fun x => decide (x.index = idx.val) && decide (x.st = .reloading)) = some x) ∧ (slotOf s x.head x.seg = some x) ∧ (carriageTurn s 2 x.issue = true) ∧ (reactOf s srcArenaUncorr ≠ 5)) ∧
    (∃ (idx : Fin 32768) (errs : List AccErr) (s u : State) (x y : Slot) (acc : List (BitVec 96)), (s.harn.slots.find? (fun x => decide (x.index = idx.val) && decide (x.st = .reloading)) = some x) ∧ (carriageTurn s 2 x.issue = true) ∧ (u = (if x.zero then s else readErrors (spillAddr x.image) 3072 errs s)) ∧ (slotOf u x.head x.seg = some y) ∧ (y.st ≠ .fenced) ∧ (y.hasFired = false) ∧ (sheetHead u x.head ≠ none) ∧ (acc = (if y.zero then List.replicate y.seglen 0 else (imageAcc u.dram y y.image).zipIdx.map (fun a => if y.void.getLsbD a.2 then 0 else a.1)))) ∧
    (∃ (head : Fin 4096) (seg : BitVec 24) (errs : List AccErr) (s u : State) (sh : SheetHead) (hd x : Head), (mayFill s head.val seg.toNat = true) ∧ (carriageClear s 2 = true) ∧ (s.harn.heads[head.val]? = some x) ∧ (u = readErrors (scaleAddr x seg.toNat 0) 4 errs s) ∧ (sheetHead u head.val = some sh) ∧ (u.harn.heads[head.val]? = some hd)) ∧
    (∃ (head : Fin 4096) (seg : BitVec 24) (s : State) (hd : Head), (slotReady (endJobs head.val seg.toNat s) head.val seg.toNat = true) ∧ (s.harn.heads[head.val]? = some hd) ∧ (hd.base ≤ seg.toNat) ∧ (seg.toNat < hd.base + 256)) :=
  ⟨⟨0, stage updSheet [{ gath with st := .spilling, image := 3 }] [], { gath with st := .spilling, image := 3 }, by decide +kernel⟩,
   ⟨0, [1], stage updSheet [{ gath with st := .spilling, image := 3 }] [], { gath with st := .spilling, image := 3 }, by decide +kernel⟩,
   ⟨0, relState, relSlot, by decide +kernel⟩,
   ⟨0, [⟨spillAddr 3 / 32, .corrected⟩], relState, readErrors (spillAddr 3) 3072 [⟨spillAddr 3 / 32, .corrected⟩] (relState), relSlot, relSlot, (imageAcc (relState).dram relSlot 3).zipIdx.map (fun a => if relSlot.void.getLsbD a.2 then 0 else a.1), by refine ⟨?_, ?_, (if_neg (show ¬relSlot.zero = true by decide)).symm, ?_, ?_, ?_, ?_, ?_⟩ <;> decide +kernel⟩,
   ⟨0, 0, [], stage { updSheet with heads := [{ head0 with fmt := 2 }] } [] [], readErrors (scaleAddr hd0 0 0) 4 [] (stage { updSheet with heads := [{ head0 with fmt := 2 }] } [] []), { head0 with fmt := 2 }, hd0, hd0, by refine ⟨?_, ?_, ?_, rfl, ?_, ?_⟩ <;> decide +kernel⟩,
   ⟨0, 0, stage updSheet [{ fslot with st := .draining }] [{ job0 with cast := true, sent := true, digest := true, writesDone := true }], hd0, by decide +kernel⟩⟩

theorem wit_UpdatesComputeAndWriteState :
    (∃ (head : Fin 4096) (seg : BitVec 24) (s u : State) (sh : SheetHead) (x : Slot) (c : Nat) (w : CueWord) (img : Sheet) (r q : Shard) (p : Sys2Proof.Machine.PSet) (cf : ZF) (gr : Grant), (sheetHead s head.val = some sh) ∧ (firedSlot s head.val seg.toNat = some x) ∧ (reducerWord s head.val = some (c, w)) ∧ (s.cue.sheet = some img) ∧ (shardOf s sh.hid = some r) ∧ (img.psets[cPset w]? = some p) ∧ (sh.root = true) ∧ (cKind w = cReduceUpdate) ∧ (jobOf s head.val seg.toNat x.step = none) ∧ (writesQueued s head.val seg.toNat = false) ∧ (permitted s x.step c = true) ∧ (filling s sh.hid = false) ∧ (unitHeld s unitGroom = false) ∧ (zeroPending s sh.hid x.step c = false) ∧ (resumeDone s sh.hid x.step seg.toNat = false) ∧ (r.role ≠ roleSeeding) ∧ (clipFactor s x.step w p = some cf) ∧ (grantFor s x.step c w = some gr) ∧ (mayIssueGroom s gr = true) ∧ (sheetFirst s x.step c (groomReady s) = true) ∧ (u = advanceAge sh.hid x.step c p s) ∧ (shardOf u sh.hid = some q)) ∧
    (∃ (head : Fin 4096) (seg : BitVec 24) (s : State) (sh : SheetHead) (j : Job) (r : Shard) (i : Nat), (sheetHead s head.val = some sh) ∧ (s.harn.jobs.find? (fun j => decide (j.head = head.val) && decide (j.seg = seg.toNat) && !j.bcast && !j.band && !j.writesDone && j.wReady) = some j) ∧ (carriageTurn s 1 j.issue = true) ∧ (findShard s sh.hid = some i) ∧ (readShard s i = r) ∧ (stateAddr r (256 * seg.toNat + j.state.length) ≤ stateBytes) ∧ (Memory.wf s.dram = true)) :=
  ⟨⟨0, 0, updState, advanceAge 5 4 0 pset0 updState, head0, fslot, 0, updWord, updSheet, shard0, shard0, pset0, ⟨zOne, 0⟩, gr0, by and_intros; (iterate 20 decide +kernel); exact rfl; all_goals decide +kernel⟩,
   ⟨0, 0, stage updSheet [{ fslot with st := .draining }] [job0], head0, job0, shard0, 0, by decide +kernel⟩⟩

theorem wit_SegmentsAreCast :
    (∃ (head : Fin 4096) (seg : BitVec 24) (s : State) (sh : SheetHead) (img : Sheet) (x : Slot) (c : Nat) (w : CueWord), (sheetHead s head.val = some sh) ∧ (s.cue.sheet = some img) ∧ (unitHeld s unitWardrobe = false) ∧ (shardRole s sh.hid ≠ roleUnderstudy) ∧ (firedSlot s head.val seg.toNat = some x) ∧ (reducerWord s head.val = some (c, w)) ∧ (sh.root = true) ∧ (permitted s x.step c = true) ∧ (cKind w = cReduce) ∧ (jobOf s head.val seg.toNat x.step = none) ∧ (wardrobeTurn s x.step c = true)) ∧
    (∃ (head : Fin 4096) (seg : BitVec 24) (s : State) (sh : SheetHead) (img : Sheet) (x : Slot) (c : Nat) (w : CueWord) (j : Job), (sheetHead s head.val = some sh) ∧ (s.cue.sheet = some img) ∧ (unitHeld s unitWardrobe = false) ∧ (shardRole s sh.hid ≠ roleUnderstudy) ∧ (firedSlot s head.val seg.toNat = some x) ∧ (reducerWord s head.val = some (c, w)) ∧ (sh.root = true) ∧ (permitted s x.step c = true) ∧ (cKind w = cReduceUpdate) ∧ (jobOf s head.val seg.toNat x.step = some j) ∧ (j.wReady = true) ∧ (j.cast = false) ∧ (shardRole s sh.hid ≠ roleSeeding) ∧ (wardrobeTurn s x.step c = true)) ∧
    (∃ (head : Fin 4096) (seg : BitVec 24) (s : State) (sh : SheetHead) (img : Sheet) (w : CueWord) (j : Job), (sheetHead s head.val = some sh) ∧ (s.cue.sheet = some img) ∧ (unitHeld s unitWardrobe = false) ∧ (shardRole s sh.hid ≠ roleUnderstudy) ∧ (firedSlot s head.val seg.toNat = none) ∧ (s.harn.jobs.find? (fun j => decide (j.head = head.val) && decide (j.seg = seg.toNat) && j.bcast && !j.cast) = some j) ∧ (cueWord s j.cue = some w) ∧ (s.harn.jobs.find? (isJob head.val seg.toNat j.step true false) = some j) ∧ (wardrobeTurn s j.step j.cue = true)) :=
  ⟨⟨0, 0, stage redSheet [fslot] [], head0, redSheet, fslot, 0, redWord, by decide +kernel⟩,
   ⟨0, 0, stage updSheet [fslot] [job0], head0, updSheet, fslot, 0, updWord, job0, by decide +kernel⟩,
   ⟨0, 0, stage bcastSheet [] [bjob0], head0, bcastSheet, castWord, bjob0, by decide +kernel⟩⟩

theorem wit_MulticastsGoToTheGroup :
    (∃ (head : Fin 4096) (seg : BitVec 24) (s u : State) (sh : SheetHead) (j : Job) (w : LocalWait), (sheetHead s head.val = some sh) ∧ (unsentJob s head.val seg.toNat = some j) ∧ (shardRole s sh.hid ≠ roleUnderstudy) ∧ (w = mcastWait head.val sh (jobPacket s sh (castDst s j.cue) j) s) ∧ (w.ports ≠ []) ∧ (u = modJob head.val seg.toNat j.step j.bcast j.band (fun y => { y with sent := true, bufs := y.bufs ++ [s.swc.nextBuf] }) s)) ∧
    (∃ (head : Fin 4096) (seg : BitVec 24) (s : State) (sh : SheetHead) (j : Job) (own : Compare), (sheetHead s head.val = some sh) ∧ (unsentJob s head.val seg.toNat = some j) ∧ (shardRole s sh.hid = roleUnderstudy) ∧ (own = ⟨sh.hid, BitVec.ofNat 32 j.step, seg.toNat, true, compareBytes (jobPacket s sh (castDst s j.cue) j)⟩)) ∧
    (∃ (p : Port) (pk : Packet) (s u : State) (h : Nat) (sh : SheetHead) (q : Packet), (pk.kind = kMcast) ∧ (lengthOk pk = true) ∧ (compareFull s pk = false) ∧ (u = takeHanded p pk s) ∧ (headIdx u (pHid pk) = some h) ∧ (sheetHead u h = some sh) ∧ (pSeg pk < segsOf sh.len) ∧ (pCount pk = segLen sh (pSeg pk)) ∧ (q = { pk with dest := 0xFFFF, src := srcAddr u, resend := false })) :=
  ⟨⟨0, 0, mcastState, modJob 0 0 castJob0.step castJob0.bcast castJob0.band (fun y => { y with sent := true, bufs := y.bufs ++ [mcastState.swc.nextBuf] }) mcastState, head0, castJob0, mcastWait 0 head0 (jobPacket mcastState head0 (castDst mcastState castJob0.cue) castJob0) mcastState, by refine ⟨?_, ?_, ?_, rfl, ?_, rfl⟩ <;> decide +kernel⟩,
   ⟨0, 0, mirrorState, head0, castJob0, ⟨5, BitVec.ofNat 32 4, 0, true, compareBytes (jobPacket mirrorState head0 (castDst mirrorState castJob0.cue) castJob0)⟩, by refine ⟨?_, ?_, ?_, rfl⟩ <;> decide +kernel⟩,
   ⟨3, mcast0, stage redSheet [] [], takeHanded 3 mcast0 (stage redSheet [] []), 0, head0, { mcast0 with dest := 0xFFFF, src := srcAddr (takeHanded 3 mcast0 (stage redSheet [] [])), resend := false }, by refine ⟨?_, ?_, ?_, rfl, ?_, ?_, ?_, ?_, rfl⟩ <;> decide +kernel⟩⟩

theorem wit_DigestsAreBufferedAndFolded :
    (∃ (head : Fin 4096) (seg : BitVec 24) (s : State) (sh : SheetHead) (j : Job), (sheetHead s head.val = some sh) ∧ (unitHeld s unitDigest = false) ∧ (digRoom s = true) ∧ (s.harn.jobs.find? (fun j => decide (j.head = head.val) && decide (j.seg = seg.toNat) && j.cast && !j.digest) = some j) ∧ (digestTurn s j.step j.cue = true) ∧ ((j.bcast = true ∨ j.band = true ∨ ∃ x, slotOf s head.val seg.toNat = some x))) ∧
    (∃ (head : Fin 4096) (seg : BitVec 24) (s : State) (sh : SheetHead) (x : Slot) (c : Nat) (w : CueWord), (sheetHead s head.val = some sh) ∧ (unitHeld s unitDigest = false) ∧ (digRoom s = true) ∧ (s.harn.jobs.find? (fun j => decide (j.head = head.val) && decide (j.seg = seg.toNat) && j.cast && !j.digest) = none) ∧ (slotOf s head.val seg.toNat = some x) ∧ (x.hasFired = true) ∧ (x.inDigest = false) ∧ (reducerWord s head.val = some (c, w)) ∧ ((sh.root = false ∨ x.dropped = true ∨ cKind w = cProject)) ∧ (digestTurn s x.step c = true)) ∧
    (∃ (head : Fin 4096) (step : Nat) (part : DigestPart) (s : State) (sh : SheetHead) (o : OpenStep) (mine : List SegDigest) (fmt : Nat), (sheetHead s head.val = some sh) ∧ (openStep s step = some o) ∧ (head.val < o.heads.length) ∧ (unitHeld s unitDigest = false) ∧ (mine = s.dig.buffer.filter (fun d => d.hid == sh.hid && decide (d.step = step) && decide (d.part = partCode part))) ∧ (segsOf sh.len ≤ mine.length) ∧ ((part = .inp → fmt = wantedFmt sh true)) ∧ ((part = .w → fmt = 5)) ∧ ((part = .out → ∀ c, reducer s head.val = some c → fmt = castDst s c)) ∧ ((part = .out → ∃ c, reducer s head.val = some c)) ∧ ((part = .bcast → ∃ img w, s.cue.sheet = some img ∧ img.cues.find? (fun c => decide (cKind c = cBroadcast) && cHid c == sh.hid) = some w ∧ fmt = (cConv w).dst))) :=
  ⟨⟨0, 0, stage redSheet [fslot] [castJob0], head0, castJob0, by refine ⟨?_, ?_, ?_, ?_, ?_, .inr (.inr ⟨fslot, ?_⟩)⟩ <;> decide +kernel⟩,
   ⟨0, 0, stage { redSheet with heads := [{ head0 with root := false }] } [fslot] [], { head0 with root := false }, fslot, 0, redWord, by decide +kernel⟩,
   ⟨0, 4, .bcast, bcastDig, head0, openOf [going], [{ dig0 with part := 4 }], (cConv castWord).dst, by refine ⟨?_, ?_, ?_, ?_, ?_, ?_, ?_, ?_, (fun h => by cases h), (fun h => by cases h), (fun _ => ⟨bcastSheet, castWord, ?_, ?_, ?_⟩)⟩ <;> decide +kernel⟩⟩

theorem wit_BroadcastsMovesAndConversions :
    (∃ (step cue : Nat) (s : State) (i : Inst) (w : CueWord) (h : Nat) (r : Shard) (sh : SheetHead), (running s step cue cBroadcast = some (i, w)) ∧ (headIdx s (cHid w) = some h) ∧ (shardOf s (cHid w) = some r) ∧ (sheetHead s h = some sh) ∧ (i.nextSeg < segsOf sh.len) ∧ (filling s sh.hid = false) ∧ (unitHeld s unitGroom = false) ∧ (carriageClear s 1 = true) ∧ (sheetFirst s step cue (groomReady s) = true)) ∧
    (∃ (step cue : Nat) (errs : List AccErr) (s u : State) (i : Inst) (w : CueWord), (running s step cue cMove = some (i, w)) ∧ (i.started = false) ∧ (cMoveOp w = 0) ∧ (moveFirst s step cue = true) ∧ (u = readErrors (scratchBase + 4096 * cPage w) (4096 * cPages w) errs s) ∧ (Memory.wf u.ws = true)) ∧
    (∃ (step cue : Nat) (s : State) (i : Inst) (w : CueWord), (running s step cue cMove = some (i, w)) ∧ (i.started = false) ∧ (cMoveOp w = 1) ∧ (moveFirst s step cue = true) ∧ (Memory.wf s.dram = true)) ∧
    (∃ (step cue : Nat) (s : State) (i : Inst) (w : CueWord) (r : Shard) (k : Nat), (running s step cue cMove = some (i, w)) ∧ (i.started = false) ∧ (cMoveOp w = 2) ∧ (findShard s (cZeroHid w) = some k) ∧ (readShard s k = r) ∧ (updatePending s r.hid step cue = false) ∧ (filling s r.hid = false) ∧ (moveFirst s step cue = true) ∧ (stateAddr r r.len ≤ stateBytes) ∧ (Memory.wf s.dram = true)) ∧
    (∃ (step cue : Nat) (s : State) (i : Inst) (w : CueWord) (img : Sheet) (f : SFmt), (running s step cue cConvert = some (i, w)) ∧ (s.cue.sheet = some img) ∧ (i.started = false) ∧ (movePending s step cue = false) ∧ (unitHeld s unitWardrobe = false) ∧ (fmtOf (cConv w).dst = some f) ∧ (wardrobeTurn s step cue = true)) ∧
    (∃ (step cue : Nat) (conv : Bool) (s : State) (i : Inst) (w : CueWord), (running s step cue (if conv then cConvert else cMove) = some (i, w)) ∧ (i.started = true) ∧ ((conv = false → i.finished = false ∧ carriageTurn s 3 i.issue = true))) :=
  ⟨⟨4, 0, cueState castWord, going, castWord, 0, shard0, head0, by decide +kernel⟩,
   ⟨4, 0, [⟨scratchBase / 32, .uncorrectable⟩], cueState (moveWord 0), readErrors (scratchBase + 4096 * cPage (moveWord 0)) (4096 * cPages (moveWord 0)) [⟨scratchBase / 32, .uncorrectable⟩] (cueState (moveWord 0)), going, moveWord 0, by refine ⟨?_, ?_, ?_, ?_, rfl, ?_⟩ <;> decide +kernel⟩,
   ⟨4, 0, cueState (moveWord 1), going, moveWord 1, by decide +kernel⟩,
   ⟨4, 0, cueState zeroWord, going, zeroWord, shard0, 0, by decide +kernel⟩,
   ⟨4, 0, cueState convWord, going, convWord, sheetOf head0 [convWord], .z16, by decide +kernel⟩,
   ⟨4, 0, false, movingState, { going with started := true }, moveWord 0, by decide +kernel⟩⟩

theorem wit_ScrubsAndSampleChecks :
    (∃ (access : Nat) (e : Option AccErrKind) (s : State), (access < dataSpaceAccesses) ∧ (carriageClear s 6 = true) ∧ ((e = none ∨ e = some (.tag (tagOf s access))))) ∧
    (∃ (access : Nat) (s : State), (access < dataSpaceAccesses) ∧ (carriageClear s 6 = true) ∧ (reactOf s srcDramCorr ≠ 5)) ∧
    (∃ (access : Nat) (e : AccErrKind) (s : State), (32 * access + 32 ≤ stateBytes) ∧ (carriageClear s 6 = true) ∧ (reactOf s srcDramUncorr ≠ 5) ∧ ((e = .uncorrectable ∨ ∃ b, e = .tag b ∧ b ≠ tagOf s access)) ∧ (Memory.wf s.dram = true)) ∧
    (∃ (access : Nat) (err : Option AccErrKind) (s : State), (dataSpaceAccesses ≤ access)) ∧
    (∃ (head : Fin 4096) (seg : BitVec 24) (block : Fin 4) (check : Fin 7) (seen : CheckSeen) (s : State) (x : Sample) (sh : SheetHead) (l r : List Sample) (p : Sample → Bool), (p = (fun y => decide (y.head = head.val) && decide (y.seg = seg.toNat) && decide (y.block = block.val) && y.checks.contains check.val && y.ready.contains check.val)) ∧ (s.outr.ctxs = l ++ x :: r) ∧ ((∀ y ∈ l, p y = false)) ∧ (p x = true) ∧ (unitHeld s unitOutrider = false) ∧ (sheetHead s head.val = some sh) ∧ ((check.val < 5 → reactOf s srcOutrider ≠ 5))) ∧
    (∃ (head : Fin 4096) (seg : BitVec 24) (block : Fin 4) (check : Fin 7) (seen : CheckSeen) (s : State) (x : Sample) (sh : SheetHead) (hd : Head) (g : Int) (b : Baseline), (5 ≤ check.val) ∧ (s.outr.ctxs.find? (fun x => decide (x.head = head.val) && decide (x.seg = seg.toNat) && decide (x.block = block.val) && x.checks.contains check.val && x.ready.contains check.val) = some x) ∧ (unitHeld s unitOutrider = false) ∧ (sheetHead s head.val = some sh) ∧ ((∀ k ∈ x.checks, 5 ≤ k → k = check.val)) ∧ (s.harn.heads[head.val]? = some hd) ∧ (x.gmax = some g) ∧ (b = hd.baseline)) :=
  ⟨⟨5, some (.tag (tagOf base 5)), base, by decide +kernel⟩,
   ⟨5, base, by decide +kernel⟩,
   ⟨5, .uncorrectable, { base with dram := [(100, 1), (161, 2)] }, by decide +kernel⟩,
   ⟨89478485 * 128, none, base, by decide +kernel⟩,
   ⟨0, 0, 0, 2, .differs 3, { stage redSheet [] [] with outr := { ctxs := [{ head := 0, seg := 0, block := 0, step := 4, checks := [2], ready := [2] }] } }, { head := 0, seg := 0, block := 0, step := 4, checks := [2], ready := [2] }, head0, [], [], (fun y => decide (y.head = 0) && decide (y.seg = 0) && decide (y.block = 0) && y.checks.contains 2 && y.ready.contains 2), ⟨rfl, rfl, by simp, by decide +kernel, by decide +kernel, by decide +kernel, by decide +kernel⟩⟩,
   ⟨0, 0, 0, 5, .same, { stage redSheet [] [] with outr := { ctxs := [{ head := 0, seg := 0, block := 0, step := 4, checks := [5], ready := [5], gmax := some (-6), drift := some 2 }] } }, { head := 0, seg := 0, block := 0, step := 4, checks := [5], ready := [5], gmax := some (-6), drift := some 2 }, head0, hd0, -6, hd0.baseline, by refine ⟨?_, ?_, ?_, ?_, ?_, ?_, ?_, rfl⟩ <;> decide +kernel⟩⟩

theorem wit_SeedingCopiesAShard :
    (∃ (errs : List AccErr) (s u : State) (q : SeedOut) (i : Nat) (r : Shard) (retry : Bool) (pk : Packet), (s.grm.seedQueue.head? = some q) ∧ (q.headerSent = false) ∧ (betweenSteps s q.hid = true) ∧ (carriageClear s 5 = true) ∧ ((if retry then ∃ d, q.retryAt = some d ∧ d ≤ s.time else q.retryAt = none)) ∧ (findShard s q.hid = some i) ∧ (u = readErrors (shardAddr i) 64 errs s) ∧ (u.grm.seedQueue = s.grm.seedQueue) ∧ (shardOf u q.hid = some r) ∧ (pk = seedHdrPacket q.hid [r.age, r.p1.setWidth 64, r.p2.setWidth 64, r.last] 0xFFFF (srcAddr u))) ∧
    (∃ (p : Port) (pk : Packet) (s u : State) (i : Nat) (r : Shard), (pk.kind = kSeedHdr) ∧ (lengthOk pk = true) ∧ (u = takeHanded p pk s) ∧ (findShard u (pHid pk) = some i) ∧ (readShard u i = r) ∧ (r.role = roleSeeding) ∧ (Memory.wf s.dram = true)) ∧
    (∃ (p : Port) (pk : Packet) (s u : State) (i : Nat) (r : Shard) (x : SeedIn), (pk.kind = kSeedCopy) ∧ (lengthOk pk = true) ∧ (filling s (pHid pk) = false) ∧ (u = takeHanded p pk s) ∧ (findShard u (pHid pk) = some i) ∧ (readShard u i = r) ∧ (r.role = roleSeeding) ∧ (u.grm.seedIn = some x) ∧ (x.hid = r.hid) ∧ (copySeg pk < shardSegs r) ∧ (copyCount pk = min 256 (r.len - 256 * copySeg pk)) ∧ (copySeg pk ∉ x.map) ∧ (stateAddr r (256 * copySeg pk + copyCount pk) ≤ stateBytes) ∧ (Memory.wf s.dram = true)) ∧
    (∃ (p : Port) (pk : Packet) (s u : State) (q : SeedOut) (i : Nat) (r : Shard), (pk.kind = kSeedAck) ∧ (lengthOk pk = true) ∧ (u = takeHanded p pk s) ∧ (u.grm.seedQueue.head? = some q) ∧ (q.hid = pHid pk) ∧ (q.headerSent = true) ∧ (findShard u (pHid pk) = some i) ∧ (readShard u i = r) ∧ (Memory.wf s.dram = true) ∧ (u.grm.seedErrs = [])) ∧
    (∃ (hid : BitVec 16) (s : State) (i : Nat) (r : Shard), (findShard s hid = some i) ∧ (readShard s i = r) ∧ (r.role = roleOwner) ∧ (r.seedout = true) ∧ (reachable s r = false) ∧ (Memory.wf s.dram = true) ∧ (s.grm.seedErrs = [])) :=
  ⟨⟨[], seedState partnered { seedQueue := [seedOut0] }, readErrors (shardAddr 0) 64 [] (seedState partnered { seedQueue := [seedOut0] }), seedOut0, 0, partnered, false, seedHdrPacket 5 [0, 0, 0, 0] 0xFFFF (srcAddr (seedState partnered { seedQueue := [seedOut0] })), by refine ⟨?_, ?_, ?_, ?_, ?_, ?_, rfl, ?_, ?_, ?_⟩ <;> decide +kernel⟩,
   ⟨3, seedHdrPacket 5 [1, 2, 3, 4] 0 0, seedState { shard0 with role := roleSeeding } {}, takeHanded 3 (seedHdrPacket 5 [1, 2, 3, 4] 0 0) (seedState { shard0 with role := roleSeeding } {}), 0, { shard0 with role := roleSeeding }, by refine ⟨?_, ?_, rfl, ?_, ?_, ?_, ?_⟩ <;> decide +kernel⟩,
   ⟨3, seedCopyPacket 5 0 64 (List.replicate 512 1) 0 0, seedState { shard0 with role := roleSeeding } { seedIn := some { hid := 5 } }, takeHanded 3 (seedCopyPacket 5 0 64 (List.replicate 512 1) 0 0) (seedState { shard0 with role := roleSeeding } { seedIn := some { hid := 5 } }), 0, { shard0 with role := roleSeeding }, { hid := 5 }, by and_intros; (iterate 3 decide +kernel); exact rfl; all_goals decide +kernel⟩,
   ⟨3, seedAckPacket 5 0 0 0 0, seedState partnered { seedQueue := [{ seedOut0 with headerSent := true, headerOk := true, nextSeg := 1, unacked := [0] }] }, takeHanded 3 (seedAckPacket 5 0 0 0 0) (seedState partnered { seedQueue := [{ seedOut0 with headerSent := true, headerOk := true, nextSeg := 1, unacked := [0] }] }), { seedOut0 with headerSent := true, headerOk := true, nextSeg := 1, unacked := [0] }, 0, partnered, by and_intros; (iterate 2 decide +kernel); exact rfl; all_goals decide +kernel⟩,
   ⟨5, seedState partnered { seedQueue := [seedOut0] }, 0, partnered, by decide +kernel⟩⟩

theorem wit_BandsFormAndStage :
    (∃ (head : Fin 4096) (seg : BitVec 24) (errs : List AccErr) (s u : State) (sh : SheetHead) (x : Slot) (c : Nat) (w : CueWord) (hd : Head) (b : Band), (projectSlot s head.val seg.toNat = some (sh, x, c, w)) ∧ (s.harn.heads[head.val]? = some hd) ∧ (teamOut s (slotTeam s x) = false) ∧ (carriageClear s 3 = true) ∧ ((∀ y ∈ s.prj.bands, y.head = head.val → y.step < x.step → y.band = bandOf w seg.toNat → stagingHeld y = false)) ∧ (b = (findBand s head.val x.step (bandOf w seg.toNat)).getD { head := head.val, cue := c, step := x.step, band := bandOf w seg.toNat }) ∧ (((findBand s head.val x.step (bandOf w seg.toNat)).isSome = true ∨ stagingFits s w sh.len (bandOf w seg.toNat) = true)) ∧ ((∀ y ∈ b.formed, y.1 ≠ seg.toNat)) ∧ (seg.toNat ∉ b.staged) ∧ (sheetFirst s x.step c (formReady s (slotTeam s x)) = true) ∧ (u = (if residualZero s x.step w then s else readErrors (hd.resAt + 512 * seg.toNat) (2 * x.seglen) errs s)) ∧ (u.prj.bands = s.prj.bands) ∧ (slotOf u head.val seg.toNat = some x)) ∧
    (∃ (head : Fin 4096) (seg : BitVec 24) (s : State) (sh : SheetHead) (x : Slot) (c : Nat) (w : CueWord) (img : Sheet) (b : Band) (zs : List (BitVec 48)) (o : CastOut), (projectSlot s head.val seg.toNat = some (sh, x, c, w)) ∧ (s.cue.sheet = some img) ∧ (findBand s head.val x.step (bandOf w seg.toNat) = some b) ∧ (b.cue = c) ∧ (b.formed.find? (fun y => decide (y.1 = seg.toNat)) = some (seg.toNat, zs)) ∧ (seg.toNat ∉ b.staged) ∧ (unitHeld s unitWardrobe = false) ∧ (wardrobeTurn s x.step c = true) ∧ ((cRank w = 0 → ∃ a u v e, upperOpen s w x.step = some (a, u, v) ∧ windowEntry v seg.toNat = some e)) ∧ (o = castSeg ⟨1, 6, 1, cPrnd w, false, 2⟩ (zs.map zVal) (fun _ => 0) (fun i => srDraw img.seed (BitVec.ofNat 64 x.step) sh.hid 0x21 (BitVec.ofNat 32 (256 * seg.toNat + i))))) :=
  ⟨⟨0, 0, [], projState 1 [], projState 1 [], projHead, pslot, 0, projWord 1, { hd0 with resAt := 100000 }, band0, by and_intros; (iterate 5 decide +kernel); exact rfl; (iterate 4 decide +kernel); exact rfl; all_goals decide +kernel⟩,
   ⟨0, 0, projState 1 [{ band0 with formed := [(0, z256)] }], projHead, pslot, 0, projWord 1, projSheet 1, { band0 with formed := [(0, z256)] }, z256, castSeg ⟨1, 6, 1, cPrnd (projWord 1), false, 2⟩ (z256.map zVal) (fun _ => 0) (fun i => srDraw (projSheet 1).seed (BitVec.ofNat 64 4) 5 0x21 (BitVec.ofNat 32 (256 * (0 : BitVec 24).toNat + i))), by refine ⟨?_, ?_, ?_, ?_, ?_, ?_, ?_, ?_, fun h => absurd h (by decide +kernel), rfl⟩ <;> decide +kernel⟩⟩

theorem wit_BandsSendAndRestore :
    (∃ (head : Fin 4096) (band : Nat) (s : State) (b : Band) (sh ush : SheetHead) (w : CueWord) (a : Nat) (uhd : Head) (bl : List (List (BitVec 32) × Byte)), (bandIn s head.val band (fun b => b.st == .send) = some b) ∧ (findBand s head.val b.step band = some b) ∧ (bandWord s b = some (sh, w)) ∧ (upperOpen s w b.step = some (a, ush, uhd)) ∧ (unitHeld s unitWardrobe = false) ∧ (permitted s b.step b.cue = true) ∧ (wardrobeTurn s b.step b.cue = true) ∧ (cRank w = 0) ∧ (castBlocks s head.val b.step band ush.len = some bl) ∧ (chunkRoom s (upperChunks ush band) = true)) ∧
    (∃ (head : Fin 4096) (band g : Nat) (s : State) (b : Band) (img : Sheet) (sh ush : SheetHead) (w : CueWord) (a : Nat) (uhd : Head), (bandIn s head.val band (fun b => b.st == .send) = some b) ∧ (findBand s head.val b.step band = some b) ∧ (bandWord s b = some (sh, w)) ∧ (upperOpen s w b.step = some (a, ush, uhd)) ∧ (unitHeld s unitWardrobe = false) ∧ (permitted s b.step b.cue = true) ∧ (wardrobeTurn s b.step b.cue = true) ∧ (s.cue.sheet = some img) ∧ (cRank w ≠ 0) ∧ (g ∈ upperSegs w sh.len band) ∧ (dueBlocks w sh.len uhd b g ≠ []) ∧ (chunkRoom s (upperChunks ush g) = true)) ∧
    (∃ (head : Fin 4096) (band : Nat) (s : State) (b : Band) (sh : SheetHead) (w : CueWord) (hd : Head), (bandIn s head.val band (fun b => b.st == .residual) = some b) ∧ (findBand s head.val b.step band = some b) ∧ (bandWord s b = some (sh, w)) ∧ (s.harn.heads[head.val]? = some hd) ∧ (unitHeld s unitGroom = false) ∧ (permitted s b.step b.cue = true) ∧ (carriageClear s 3 = true) ∧ (Memory.wf s.dram = true) ∧ (sheetFirst s b.step b.cue (groomReady s) = true) ∧ ((∀ i, i < (bandSegs w sh.len band).2 → (residualsOf s w b ((bandSegs w sh.len band).1 + i)).length ≤ 256))) ∧
    (∃ (head : Fin 4096) (band : Nat) (s : State) (b : Band) (sh : SheetHead) (w : CueWord), (bandIn s head.val band (fun b => b.st == .out) = some b) ∧ (findBand s head.val b.step band = some b) ∧ (bandWord s b = some (sh, w)) ∧ (unitHeld s unitWardrobe = false) ∧ (permitted s b.step b.cue = true) ∧ (wardrobeTurn s b.step b.cue = true) ∧ (Memory.wf s.dram = true) ∧ ((∀ i, i < (bandSegs w sh.len band).2 → ∃ vs, outVals s w b ((bandSegs w sh.len band).1 + i) = some vs ∧ vs.length ≤ 256))) :=
  ⟨⟨0, 0, projState 0 [sendBand0], sendBand0, projHead, upHead, projWord 0, 1, { hd0 with window := [(0, 0)], scaleAt := 90000 }, [(List.replicate 64 1, 0), (List.replicate 64 2, 0)], by decide +kernel⟩,
   ⟨0, 0, 0, projState 1 [sendBand], sendBand, projSheet 1, projHead, upHead, projWord 1, 1, { hd0 with window := [(0, 0)], scaleAt := 90000 }, by decide +kernel⟩,
   ⟨0, 0, projState 1 [resBand], resBand, projHead, projWord 1, { hd0 with resAt := 100000 }, by decide +kernel⟩,
   ⟨0, 0, projState 1 [outBand], outBand, projHead, projWord 1, by refine ⟨?_, ?_, ?_, ?_, ?_, ?_, ?_, fun i hi => ?_⟩; (iterate 7 decide +kernel); exact outBand_vals i hi⟩⟩

theorem wit_PassesIssueAndEnd :
    (∃ (array : Fin 4) (head : Fin 4096) (band tile : Nat) (s : State) (b : Band) (sh : SheetHead) (w : CueWord) (rank : Nat) (g : Grant), (bandIn s head.val band (fun b => tileReady s b tile) = some b) ∧ (bandWord s b = some (sh, w)) ∧ (passRank b.st = some rank) ∧ (grantFor s b.step b.cue w = some g) ∧ (tileArray s tile = array.val) ∧ (sheetFirst s b.step b.cue (arrayReady s array b.st) = true) ∧ (arrayOut s array.val = false) ∧ (arrayFree s array = true) ∧ (mayIssuePass s g array = true) ∧ (outranked s array rank = false)) ∧
    (∃ (array : Fin 4) (s : State) (x : Pass) (b : Band) (img : Sheet) (sh : SheetHead) (w : CueWord), (s.prj.running.find? (fun x => decide (x.array = array)) = some x) ∧ (findBand s x.head x.step x.band = some b) ∧ (s.cue.sheet = some img) ∧ (bandWord s b = some (sh, w))) ∧
    (∃ (array : Fin 4) (s : State) (x : Pass) (b : Band), (s.prj.running.find? (fun x => decide (x.array = array)) = some x) ∧ (findBand s x.head x.step x.band = some b) ∧ (reactOf s srcArray ≠ 5)) :=
  ⟨⟨0, 0, 0, 0, projState 1 [projBand], projBand, projHead, projWord 1, 0, gr4, by decide +kernel⟩,
   ⟨0, { projState 1 [{ projBand with issued := [0] }] with prj := { (projState 1 [{ projBand with issued := [0] }]).prj with running := [pass0] } }, pass0, { projBand with issued := [0] }, projSheet 1, projHead, projWord 1, by decide +kernel⟩,
   ⟨0, { projState 1 [{ projBand with issued := [0] }] with prj := { (projState 1 [{ projBand with issued := [0] }]).prj with running := [pass0] } }, pass0, { projBand with issued := [0] }, by decide +kernel⟩⟩

theorem wit_CallsAndUserPacketsArrive :
    (∃ (p : Port) (pk : Packet) (s u : State) (n : Int) (w : CueWord), (pk.kind = kCall) ∧ (lengthOk pk = true) ∧ (unitHeld s unitCallboard = false) ∧ (recovering s = false) ∧ (u = takeHanded p pk s) ∧ (u.stg.st ≠ .stopped) ∧ (callMatches u p pk.bytes = true) ∧ (n = nearStep (runBounds u).2.toNat (BitVec.ofNat 32 (leAt pk.bytes 4 4))) ∧ ((runBounds u).1 ≤ n) ∧ (n ≤ (runBounds u).2 + 1) ∧ (0 ≤ n) ∧ (cueWord u (callCue pk.bytes) = some w) ∧ (callRole pk.bytes ≠ 2) ∧ (((callCtx u n.toNat (callCue pk.bytes)).map (fun y => y.received.getLsbD (callSlot pk.bytes))).getD false = false)) ∧
    (∃ (p : Port) (pk : Packet) (s u : State) (n : Int) (w : CueWord), (pk.kind = kCall) ∧ (lengthOk pk = true) ∧ (unitHeld s unitCallboard = false) ∧ (recovering s = false) ∧ (u = takeHanded p pk s) ∧ (u.stg.st ≠ .stopped) ∧ (callMatches u p pk.bytes = true) ∧ (n = nearStep (runBounds u).2.toNat (BitVec.ofNat 32 (leAt pk.bytes 4 4))) ∧ ((runBounds u).1 ≤ n) ∧ (n ≤ (runBounds u).2 + 1) ∧ (0 ≤ n) ∧ (cueWord u (callCue pk.bytes) = some w) ∧ (callRole pk.bytes = 2) ∧ (((callCtx u n.toNat (callCue pk.bytes)).bind (·.result)).isSome = false)) ∧
    (∃ (p : Port) (pk : Packet) (s u : State), (pk.kind = kCall) ∧ (lengthOk pk = true) ∧ (unitHeld s unitCallboard = false) ∧ (recovering s = false) ∧ (u = takeHanded p pk s) ∧ (u.stg.st ≠ .stopped) ∧ (callMatches u p pk.bytes = false)) ∧
    (∃ (p : Port) (pk : Packet) (s : State), (pk.kind = kCall) ∧ (lengthOk pk = true) ∧ (unitHeld s unitCallboard = false) ∧ (callWaits s p pk.bytes = true)) ∧
    (∃ (p : Port) (pk : Packet) (s : State), (pk.kind = kCall) ∧ (recovering s = true)) ∧
    (∃ (p : Port) (pk : Packet) (s : State) (o : SwPort), (isOpen s p = true) ∧ (pk.kind = kUser) ∧ (lengthOk pk = true) ∧ (classOk pk = true) ∧ (mirrors s p false pk = false) ∧ (pk.dest ≠ 0xFFFF) ∧ (pk.dest ≠ ownAddr s) ∧ ((∀ h : pk.vl.val < 2, ((s.sched.policer[p.val])[pk.vl.val]).rate = 0)) ∧ ((pkCells pk : Int) ≤ lossyFree s) ∧ ((resolve (some p) none pk s).1 = .out o)) ∧
    (∃ (p : Port) (pk : Packet) (s : State), (isOpen s p = true) ∧ (pk.kind = kUser) ∧ (lengthOk pk = true) ∧ (classOk pk = true) ∧ (mirrors s p false pk = false) ∧ ((pk.dest = 0xFFFF ∨ pk.dest = ownAddr s))) :=
  ⟨⟨1, call0, callState true, takeHanded 1 call0 (callState true), 4, callWord, by and_intros; (iterate 4 decide +kernel); exact rfl; (iterate 2 decide +kernel); exact rfl; all_goals decide +kernel⟩,
   ⟨3, result0, callState false, takeHanded 3 result0 (callState false), 4, callWord, by and_intros; (iterate 4 decide +kernel); exact rfl; (iterate 2 decide +kernel); exact rfl; all_goals decide +kernel⟩,
   ⟨1, { call0 with bytes := [7] ++ call0.bytes.drop 1 }, callState true, takeHanded 1 { call0 with bytes := [7] ++ call0.bytes.drop 1 } (callState true), by refine ⟨?_, ?_, ?_, ?_, rfl, ?_, ?_⟩ <;> decide +kernel⟩,
   ⟨1, callPacket 0 1 0 false false 9 1 [0] 0xFFFF 0, callState true, by decide +kernel⟩,
   ⟨1, call0, withRun (callSheet true) (some { run0 with ending := .recovery }) base, by decide +kernel⟩,
   ⟨1, user0 2, fabricState, fabric 2, by decide +kernel⟩,
   ⟨1, user0 64, fabricState, by decide +kernel⟩⟩

theorem wit_LanesLockAndLose :
    (∃ (lane : LaneId) (rx : SuperframeRx) (s : State) (x : Lane) (q : LanePort) (f : LineFrame), (x = s.lane.lanes[lane.val]) ∧ (x.lock = .marked) ∧ (q = s.lane.ports[(portOfLane lane).val]) ∧ (f = readLine (x.entry.getLsbD 25) rx.line) ∧ (reactOf s srcLane ≠ 5)) ∧
    (∃ (lane : LaneId) (heads : List Level) (s : State) (x : Lane), (x = s.lane.lanes[lane.val]) ∧ (x.lock = .hunt) ∧ (heads.length = 64)) ∧
    (∃ (lane : LaneId) (m0 m1 next : List Level) (shift : Nat) (s : State) (x : Lane), (x = s.lane.lanes[lane.val]) ∧ (distance (bodyOfLine (x.entry.getLsbD 25) m0) mark0 ≤ 8) ∧ (distance (bodyOfLine (x.entry.getLsbD 25) m1) mark1 ≤ 8) ∧ (((x.lock = .locked ∧ distance (bodyOfLine (x.entry.getLsbD 25) next) mark0 ≤ 8) ∨ (x.lock = .idle ∧ x.energyAt.isSome = true ∧ shift ≤ 16)))) ∧
    (∃ (lane : LaneId) (heads : List Level) (s : State) (x : Lane), (x = s.lane.lanes[lane.val]) ∧ ((x.lock = .locked ∨ x.lock = .marked)) ∧ (heads.length = 1024) ∧ (32 ≤ heads.countP (fun v => !headValid (headOfLevel (x.entry.getLsbD 25) v))) ∧ (reactOf s srcLane ≠ 5)) ∧
    (∃ (lane : LaneId) (s : State), ((s.lane.lanes[lane.val]).lock = .marked) ∧ (4 ≤ (s.lane.lanes[lane.val]).badMarks) ∧ (reactOf s srcLane ≠ 5)) ∧
    (∃ (lane : LaneId) (s : State), ((s.lane.lanes[lane.val]).lock ≠ .off) ∧ ((s.lane.lanes[lane.val]).lock ≠ .idle) ∧ (reactOf s srcLane ≠ 5)) ∧
    (∃ (lane : LaneId) (s : State), ((s.lane.lanes[lane.val]).lock = .idle) ∧ ((s.lane.lanes[lane.val]).energyAt = none)) ∧
    (∃ (lane : LaneId) (s : State) (d : Nat), ((s.lane.lanes[lane.val]).lock = .idle) ∧ ((s.lane.lanes[lane.val]).late = false) ∧ ((s.lane.lanes[lane.val]).energyAt = some d) ∧ (d + 6656 ≤ s.time) ∧ (reactOf s srcLane ≠ 5)) :=
  ⟨⟨9, ⟨blockLine false trainBlock, 5⟩, laneState { lock := .marked }, { lock := .marked }, base.lane.ports[(portOfLane 9).val], readLine false (blockLine false trainBlock), by refine ⟨rfl, ?_, rfl, rfl, ?_⟩ <;> decide +kernel⟩,
   ⟨9, List.replicate 64 (levelOf true false), laneState { lock := .hunt }, { lock := .hunt }, by refine ⟨rfl, ?_, ?_⟩ <;> decide +kernel⟩,
   ⟨9, (blockLine false (block headMark mark0)).tail, (blockLine false (block headMark mark1)).tail, (blockLine false (block headMark mark0)).tail, 0, laneState { lock := .locked }, { lock := .locked }, by refine ⟨rfl, ?_, ?_, ?_⟩ <;> decide +kernel⟩,
   ⟨9, List.replicate 1024 (levelOf true true), laneState { lock := .marked }, { lock := .marked }, by refine ⟨rfl, ?_, ?_, ?_, ?_⟩ <;> decide +kernel⟩,
   ⟨9, laneState { lock := .marked, badMarks := 4 }, by decide +kernel⟩,
   ⟨9, laneState { lock := .marked }, by decide +kernel⟩,
   ⟨9, laneState { lock := .idle }, by decide +kernel⟩,
   ⟨9, laneState { lock := .idle, energyAt := some 5 }, 5, by decide +kernel⟩⟩

theorem wit_SuperframesStartAndIdle :
    (∃ (p : Port) (s : State), ((s.lane.ports[p.val]).started = true) ∧ ((∀ u, (s.lane.ports[p.val]).startAt = some u → u < s.time + 32 ∧ (s.time + 32 - u) % 1664 = 0))) ∧
    (∃ (p : Port) (s : State) (f : InfoFix) (x : LanePort), (x = s.lane.ports[p.val]) ∧ (x.fixed = some f) ∧ (f.setAt + 32 = s.time)) ∧
    (∃ (p : Port) (s : State), (wantsIdle s p = true) ∧ ((s.lane.ports[p.val]).started = true) ∧ (((s.lane.ports[p.val]).txIdle = false ∨ (s.lane.ports[p.val]).exiting.isSome = true))) ∧
    (∃ (p : Port) (s : State), (wantsExit s p = true)) :=
  ⟨⟨3, portState { started := true, startAt := some (base.time - 1632) }, by decide +kernel⟩,
   ⟨3, portState { started := true, startAt := some 5, fixed := some ⟨1, 2, false, 7, 3999999999968⟩ }, ⟨1, 2, false, 7, 3999999999968⟩, { started := true, startAt := some 5, fixed := some ⟨1, 2, false, 7, 3999999999968⟩ }, by refine ⟨rfl, ?_, ?_⟩ <;> decide +kernel⟩,
   ⟨3, modLink 3 (fun l => { l with state := .opened, linkLast := true, ctrl := 1, rollAt := some 4000000000000, peerRoll := some roll0, rollSeen := true }) (portState { started := true }), by decide +kernel⟩,
   ⟨3, portState { started := true, txIdle := true }, by decide +kernel⟩⟩

theorem wit_LinksReceive :
    (∃ (p : Port) (b : List Byte) (r rest : List RxCell) (s : State) (vl k plen : Nat) (seq : BitVec 12) (f : List Byte), (linkLive s.link[p.val] = true) ∧ (controlOk b = false) ∧ (dataHeader b = some (vl, seq, k, plen)) ∧ ((some b :: r).length = k) ∧ ((s.link[p.val]).offer.toList.getD vl 0 ≠ 0) ∧ ((s.lane.ports[p.val]).rxCells = (some b :: r) ++ rest) ∧ (f = (some b :: r).flatMap (fun c => c.getD []))) ∧
    (∃ (p : Port) (bad : List (BitVec 12)) (b : List Byte) (rest : List RxCell) (s : State) (i : Nat), ((s.lane.ports[p.val]).rxCells = some b :: rest) ∧ ((s.link[p.val]).state ≠ .down) ∧ (controlOk b = true) ∧ ((byteAt b 1).toNat = 1) ∧ ((leAt b 2 2).testBit 14 = true) ∧ ((leAt b 2 2).testBit 15 = false) ∧ ((s.link[p.val]).unacked.findIdx? (fun u => decide (u.seq = BitVec.ofNat 12 (leAt b 2 2))) = some i)) ∧
    (∃ (p : Port) (b : List Byte) (rest : List RxCell) (s : State) (u : Unacked) (us : List Unacked), ((s.lane.ports[p.val]).rxCells = some b :: rest) ∧ (isOpen s p = true) ∧ (controlOk b = true) ∧ ((byteAt b 1).toNat = 1) ∧ ((leAt b 2 2).testBit 14 = false) ∧ ((leAt b 2 2).testBit 15 = true) ∧ ((s.link[p.val]).lastNak = none) ∧ ((s.link[p.val]).unacked = u :: us) ∧ (u.replays < replayLimit s.link[p.val])) ∧
    (∃ (p : Port) (b : List Byte) (rest : List RxCell) (s : State), ((s.lane.ports[p.val]).rxCells = some b :: rest) ∧ ((s.link[p.val]).state = .hello) ∧ (controlOk b = true) ∧ ((byteAt b 1).toNat = 2)) ∧
    (∃ (p : Port) (b : List Byte) (rest : List RxCell) (s : State), ((s.lane.ports[p.val]).rxCells = some b :: rest) ∧ ((s.link[p.val]).state = .rollcall) ∧ ((s.link[p.val]).hostAdmit = false) ∧ (controlOk b = true) ∧ ((byteAt b 1).toNat = 3) ∧ ((rollOf b).seen = true)) :=
  ⟨⟨3, frame0, [], [], rxState [some frame0] (linkState { state := .opened, offer := Vector.replicate 8 100, rxExpect := 7 }), 0, 1, 3, 7, frame0, by refine ⟨?_, ?_, ?_, ?_, ?_, ?_, rfl⟩ <;> decide +kernel⟩,
   ⟨3, [4], ackCell, [], rxState [some ackCell] (linkState { state := .opened, unacked := [un 4, un 5, un 6] }), 1, by decide +kernel⟩,
   ⟨3, nakCell, [], rxState [some nakCell] (linkState { state := .opened, unacked := [un 4, un 5] }), un 4, [un 5], by decide +kernel⟩,
   ⟨3, helloCell, [], rxState [some helloCell] (linkState { state := .hello }), by decide +kernel⟩,
   ⟨3, rollCell, [], rxState [some rollCell] (linkState { state := .rollcall }), by decide +kernel⟩⟩

theorem wit_LinksSendAndGoDown :
    (∃ (p : Port) (s : State), (txReady s p = true) ∧ (linkDue s s.link[p.val] = true)) ∧
    (∃ (p : Port) (s : State), (txReady s p = true) ∧ (helloDue s s.link[p.val] = true)) ∧
    (∃ (p : Port) (s : State), (txReady s p = true) ∧ (rollDue s s.link[p.val] = true)) ∧
    (∃ (p : Port) (s : State) (u : Unacked) (rest : List Unacked), ((s.link[p.val]).unacked = u :: rest) ∧ ((s.link[p.val]).pausedAt = none) ∧ (isOpen s p = true) ∧ ((s.link[p.val]).timerAt + replayTo s.link[p.val] ≤ s.time) ∧ (reactOf s srcLink ≠ 5)) ∧
    (∃ (p : Port) (bad : List (BitVec 12)) (s : State) (u : Unacked), ((s.link[p.val]).unacked = [u]) ∧ ((s.link[p.val]).pausedAt = none) ∧ (isOpen s p = true) ∧ ((s.link[p.val]).timerAt + replayTo s.link[p.val] ≤ s.time) ∧ (u.replays < replayLimit s.link[p.val]) ∧ (u.seq ∈ bad) ∧ (u.arrival = none) ∧ (reactOf s srcBufUncorr ≠ 5)) ∧
    (∃ (p : Port) (s : State), ((s.link[p.val]).state = .down) ∧ (portUp s p = true)) ∧
    (∃ (p : Port) (s : State), ((s.link[p.val]).state ≠ .down) ∧ (portUp s p = false) ∧ (reactOf s srcLink ≠ 5)) :=
  ⟨⟨3, txState { state := .opened, owed := true }, by decide +kernel⟩,
   ⟨3, txState { state := .hello }, by decide +kernel⟩,
   ⟨3, txState { state := .rollcall }, by decide +kernel⟩,
   ⟨3, txState { state := .opened, unacked := [un 4, un 5] }, un 4, [un 5], by decide +kernel⟩,
   ⟨3, [4], txState { state := .opened, unacked := [{ un 4 with arrival := none }] }, { un 4 with arrival := none }, by decide +kernel⟩,
   ⟨3, modLanePort 3 (fun x => { x with txActive := 1, rxActive := 1 }) (linkState {}), by decide +kernel⟩,
   ⟨3, linkState { state := .opened, unacked := [un 4] }, by decide +kernel⟩⟩

theorem wit_SwitchQueuesAndSends :
    (∃ (input output : Fin 128) (cls : Sys2Proof.Class) (s : State) (f : Transit), (s.swc.transit.find? (fun t => decide (t.input = input) && decide (t.output = output) && decide (t.packet.vl = cls)) = some f) ∧ ((∀ h : output.val < 64, s.swc.ctrl.getLsbD 1 = true → peerAccel s ⟨output.val, h⟩ = true → f.packet.kind ≠ kMcast))) ∧
    (∃ (input output : Fin 128) (cls : Sys2Proof.Class) (s : State) (f : Transit) (h : output.val < 64) (c : Reorder), (s.swc.transit.find? (fun t => decide (t.input = input) && decide (t.output = output) && decide (t.packet.vl = cls)) = some f) ∧ (s.swc.ctrl.getLsbD 1 = true) ∧ (peerAccel s ⟨output.val, h⟩ = true) ∧ (f.packet.kind = kMcast) ∧ (s.swc.reorder.find? (ctxIs ⟨output.val, h⟩ (pHid f.packet) (pStep f.packet)) = some c) ∧ (c.next ≠ pSeg f.packet)) ∧
    (∃ (p : Port) (c : Sys2Proof.Class) (q : Queued) (s : State), ((pickClass s (fabric p)).1 = some c) ∧ (headOf s (fabric p) c = some q)) ∧
    (∃ (p : Port) (c : Sys2Proof.Class) (q : Queued) (s : State), ((pickClass s (localPort p)).1 = some c) ∧ (headOf s (localPort p) c = some q)) ∧
    (∃ (s : State), (deckCycles s.swc.histAt + 256 ≤ deckCycles s.time)) ∧
    (∃ (s : State), (s.sched.interval ≠ 0) ∧ (s.stg.now.toNat % (s.sched.interval.toNat * 1024) = 0) ∧ (s.sched.lastSample ≠ some s.stg.now)) ∧
    (∃ (p : Port) (hid : BitVec 16) (step : BitVec 32) (s : State) (c : Reorder), (s.swc.reorder.find? (ctxIs p hid step) = some c) ∧ ((∃ h ∈ c.held, h.2.1 + reorderTo s ≤ s.time))) ∧
    (∃ (p : Port) (hid : BitVec 16) (step : BitVec 32) (s : State) (c : Reorder), (s.swc.reorder.find? (ctxIs p hid step) = some c) ∧ (c.held = []) ∧ (c.lastAt + 4 * reorderTo s ≤ s.time)) :=
  ⟨⟨2, 1, 0, swState { ctrl := 0, transit := [tr (user0 1) 1] }, tr (user0 1) 1, ⟨by decide +kernel, fun _ _ _ => by decide +kernel⟩⟩,
   ⟨2, 1, 3, swState { transit := [tr mcast0 1], reorder := [ro 2 0 []] }, tr mcast0 1, by decide, ro 2 0 [], by decide +kernel⟩,
   ⟨1, 7, qd (pkt kNotice 7 (zeros 16)) 1, modLanePort 1 (fun x => { x with started := true, txActive := 255 }) (swState { queued := [qd (pkt kNotice 7 (zeros 16)) 1] }), by decide +kernel⟩,
   ⟨1, 7, qd (pkt kNotice 7 (zeros 16)) 65, swState { queued := [qd (pkt kNotice 7 (zeros 16)) 65] }, by decide +kernel⟩,
   ⟨swState {}, by decide +kernel⟩,
   ⟨{ base with stg := { base.stg with now := 16384 } }, by decide +kernel⟩,
   ⟨1, 5, 4, swState { reorder := [ro 2 0 [(3, 0, qd mcast0 1)]] }, ro 2 0 [(3, 0, qd mcast0 1)], by decide +kernel⟩,
   ⟨1, 5, 4, swState { reorder := [ro 2 0 []] }, ro 2 0 [], by decide +kernel⟩⟩

theorem wit_EthernetPortsTakeAddressesAndAnswer :
    (∃ (hp : Fin 2) (s : State), ((s.host.eth[hp.val]).up = false) ∧ (unitHeld s (unitMac hp.val) = false) ∧ (s.rst.ondie = true) ∧ ((hp = 1 → s.rst.choice.getLsbD 0 = false))) ∧
    (∃ (hp : Fin 2) (s : State), (ethRuns s hp = true) ∧ ((s.host.eth[hp.val]).lease = none) ∧ ((s.host.eth[hp.val]).linkLocal4 = none) ∧ ((s.host.eth[hp.val]).upAt + 10000 * ms ≤ s.time)) ∧
    (∃ (fr : EthFrame) (a : BitVec 32) (s : State), (ethTakes s fr false = true)) ∧
    (∃ (fr : EthFrame) (sender : BitVec 32) (mac : BitVec 48) (target : BitVec 32) (s : State), (ethTakes s fr false = true) ∧ (addr4 s.host.eth[fr.port.val] = some target)) ∧
    (∃ (fr : EthFrame) (source target : BitVec 128) (s : State), (ethTakes s fr true = true) ∧ (target ∈ (s.host.eth[fr.port.val]).addrs6)) ∧
    (∃ (fr : EthFrame) (prefixes : List (BitVec 64)) (s : State), (ethTakes s fr true = true)) ∧
    (∃ (hp : Fin 2) (a : BitVec 128) (unique : Bool) (s : State), (ethRuns s hp = true) ∧ (a ∈ (s.host.eth[hp.val]).tentative)) ∧
    (∃ (fr : EthFrame) (src : Peer) (dst : List Byte) (vlan : Option (BitVec 16)) (body : List Byte) (s : State), (ethTakes s fr false = true) ∧ (holdsAddr s.host.eth[fr.port.val] dst = true)) ∧
    (∃ (hp : Fin 2) (s : State), (ethRuns s hp = true) ∧ ((∀ u, (s.host.eth[hp.val]).lldpAt = some u → u + 30000 * ms ≤ s.time))) ∧
    (∃ (fr : EthFrame) (c p : List Byte) (s : State), (ethTakes s fr true = true)) :=
  ⟨⟨1, base, by decide +kernel⟩,
   ⟨0, { base with host := { base.host with eth := vset base.host.eth 0 { up := true } } }, by decide +kernel⟩,
   ⟨⟨0, .plain, 64, false⟩, 7, base, by decide +kernel⟩,
   ⟨⟨0, .plain, 64, false⟩, 9, 8, 0x0A000001, base, by decide +kernel⟩,
   ⟨⟨0, .multicast, 86, false⟩, 9, 0xFE80_0000_0000_0000_0000_0000_0000_0001, base, by decide +kernel⟩,
   ⟨⟨0, .multicast, 110, false⟩, [5], base, by decide +kernel⟩,
   ⟨0, 77, true, { base with host := { base.host with eth := vset base.host.eth 0 { up := true, tentative := [77] } } }, by decide +kernel⟩,
   ⟨⟨0, .plain, 9216, false⟩, peer0, [10, 0, 0, 1], none, [1, 2], base, by decide +kernel⟩,
   ⟨0, base, by decide +kernel⟩,
   ⟨⟨0, .multicast, 64, false⟩, [4, 1], [3, 2], base, by decide +kernel⟩⟩

theorem wit_PtpFollowsItsMaster :
    (∃ (fr : EthFrame) (seq : BitVec 16) (origin received : Nat) (correction : Int) (ident : W64) (s : State), (fromMaster (choosePort s) fr ident = true)) ∧
    (∃ (fr : EthFrame) (seq : BitVec 16) (origin received : Nat) (correction : Int) (ident : W64) (s : State), (fromMaster (choosePort s) fr ident = true)) ∧
    (∃ (fr : EthFrame) (seq : BitVec 16) (origin : Nat) (correction rx : Int) (ident : W64) (s : State), (fromMaster (choosePort s) fr ident = true) ∧ ((choosePort s).host.ptp.twoStep = some (seq, rx))) ∧
    (∃ (fr : EthFrame) (sent received : Nat) (correction : Int) (ident : W64) (s : State), (fromMaster (choosePort s) fr ident = true) ∧ ((choosePort s).host.ptp.reqAt = some sent)) ∧
    (∃ (fr : EthFrame) (seq : BitVec 16) (twoStep : Bool) (origin received : Nat) (correction : Int) (ident : W64) (s : State), (fromMaster (choosePort s) fr ident = false)) ∧
    (∃ (fr : EthFrame) (master : PtpMaster) (s : State), (ethTakes s fr true = true)) ∧
    (∃ (s : State), (s.host.ptp.synced = true) ∧ (s.host.ptp.lastSync + 4 * s.host.ptp.interval ≤ s.time)) :=
  ⟨⟨⟨0, .multicast, 86, true⟩, 3, 100, 150, 5, 7, ptpState {}, by decide +kernel⟩,
   ⟨⟨0, .multicast, 86, false⟩, 3, 100, 150, 5, 7, ptpState {}, by decide +kernel⟩,
   ⟨⟨0, .multicast, 86, false⟩, 3, 100, 5, 140, 7, ptpState { twoStep := some (3, 140) }, by decide +kernel⟩,
   ⟨⟨0, .multicast, 86, true⟩, 9, 150, 5, 7, ptpState { reqSeq := 3, reqAt := some 9 }, by decide +kernel⟩,
   ⟨⟨0, .multicast, 86, true⟩, 3, false, 100, 150, 5, 8, ptpState {}, by decide +kernel⟩,
   ⟨⟨0, .multicast, 86, false⟩, master0, base, by decide +kernel⟩,
   ⟨{ base with host := { base.host with ptp := { synced := true } } }, by decide +kernel⟩⟩

theorem wit_StepRunsTheCommandInFront :
    (∃ (c : Instr) (s : State) (rest : List Instr), (s.pending = c :: rest)) ∧
    (∃ (s : State), (s.pending = [])) :=
  ⟨⟨.boxPowerUp, { base with pending := [.boxPowerUp, .status] }, [.status], by decide +kernel⟩,
   ⟨base, by decide +kernel⟩⟩

theorem wit_CommandsLeaveTheQueueAlone :
    (∃ (c : Instr) (s t : State), (exec c s = .next t)) ∧
    (∃ (s t : State), (step s = .next t)) :=
  ⟨⟨.setCap 700 20, dieState die, after (.setCap 700 20) (dieState die), exec_after (by decide +kernel)⟩,
   ⟨{ dieState die with pending := [.setCap 700 20] }, after (.setCap 700 20) ({ dieState die with pending := [] }), exec_after (c := .setCap 700 20) (by decide +kernel)⟩⟩

theorem wit_MemoriesStayCanonical :
    (∃ (s t : State), (step s = .next t) ∧ (Memory.wf s.dram = true) ∧ (Memory.wf s.ws = true)) :=
  ⟨{ cueState (moveWord 1) with pending := [.store 4 0] }, after (.store 4 0) ({ cueState (moveWord 1) with pending := [] }), ⟨step_front (exec_after (by decide +kernel)), by decide +kernel, by decide +kernel⟩⟩

theorem wit_FusesAreWrittenByTwoCommands :
    (∃ (c : Instr) (s t : State), (exec c s = .next t) ∧ (t.fuses ≠ s.fuses)) ∧
    (∃ (c : Instr) (s t : State), (exec c s = .next t)) ∧
    (∃ (id : Nat) (ok : Bool) (s : State) (c : Cmd), (cmdReady s id 0x0065 = some c) ∧ (s.prm.trial = true) ∧ (arg c 0 1 = 1) ∧ (64 < s.prm.svn)) :=
  ⟨⟨.keyRevoke 0, withCmd 0x67 [2] base, after (.keyRevoke 0) (withCmd 0x67 [2] base), ⟨exec_after (by decide +kernel), by decide +kernel⟩⟩,
   ⟨.keyRevoke 0, withCmd 0x67 [2] base, after (.keyRevoke 0) (withCmd 0x67 [2] base), exec_after (by decide +kernel)⟩,
   ⟨0, true, withCmd 0x65 [1] { base with prm := { base.prm with trial := true, svn := 65 } }, cmd 0x65 [1], by decide +kernel⟩⟩

theorem wit_BoxOfficeStandsAlone :
    (∃ (c : Instr) (s t : State), (exec c s = .next t) ∧ (t.boxDie ≠ s.boxDie)) :=
  ⟨.setCap 700 20, dieState die, after (.setCap 700 20) (dieState die), ⟨exec_after (by decide +kernel), by decide +kernel⟩⟩

theorem wit_SetCapTakesEffectAtTheIntervalEnd :
    (∃ (cap didt : BitVec 16) (s : State), (s.boxDie.powered = true) ∧ (600 ≤ cap.toNat) ∧ (cap.toNat ≤ 950) ∧ (10 ≤ didt.toNat) ∧ (didt.toNat ≤ 200)) ∧
    (∃ (cap didt : BitVec 16) (s : State), (s.boxDie.powered = true) ∧ (¬(600 ≤ cap.toNat ∧ cap.toNat ≤ 950 ∧ 10 ≤ didt.toNat ∧ didt.toNat ≤ 200))) ∧
    (∃ (energy : Vector W64 8) (power : Vector (BitVec 16) 8) (slow : W64) (s : State), (s.boxDie.powered = true) ∧ (s.boxDie.closeAt ≤ s.time) ∧ (ckptLate s.boxDie = false) ∧ (s.boxDie.capNext = none)) :=
  ⟨⟨600, 10, dieState die, by decide +kernel⟩,
   ⟨599, 200, dieState die, by decide +kernel⟩,
   ⟨(Vector.replicate 8 3), (Vector.replicate 8 4), 9, dieState die, by decide +kernel⟩⟩

theorem wit_PlanIdIsTheDigestOfTheImage :
    (∃ (m : MemCmd) (s u : State) (c : Cmd) (img : List Byte), (cmdReady s m.id 0x0020 = some c) ∧ (arg c 0 4 ≤ 1048576) ∧ (Reads s u m 0x0020 planWindow (arg c 0 4)) ∧ (img = memRead u.dram planWindow (arg c 0 4))) :=
  ⟨⟨0, []⟩, planState, planState, cmd 0x20 (leBytes 4 288), planImage, ⟨by decide +kernel, by decide +kernel, ⟨rfl, by decide +kernel⟩, planState_read⟩⟩

theorem wit_OneUnitCommandsKeepTheRest :
    (∃ (c : Instr) (s t : State) (p : Part), ((mayChange c).length ≤ 2) ∧ (exec c s = .next t) ∧ (p ∉ mayChange c)) :=
  ⟨.setCap 700 20, dieState die, after (.setCap 700 20) (dieState die), .boxRx, ⟨by decide +kernel, exec_after (by decide +kernel), by decide +kernel⟩⟩

theorem wit_SeveralUnitCommandsKeepTheRest :
    (∃ (c : Instr) (s t : State) (p : Part), (2 < (mayChange c).length) ∧ ((mayChange c).length ≤ 13) ∧ (exec c s = .next t) ∧ (p ∉ mayChange c)) :=
  ⟨.post (dg 0x10 7 1 0 (leBytes 2 0x01 ++ zeros 6)), base, after (.post (dg 0x10 7 1 0 (leBytes 2 0x01 ++ zeros 6))) (base), .flash, ⟨by decide +kernel, by decide +kernel, exec_after (by decide +kernel), by decide +kernel⟩⟩

theorem wit_ReactionsAndResetsKeepTheRest :
    (∃ (c : Instr) (s t : State) (p : Part), (13 < (mayChange c).length) ∧ (exec c s = .next t) ∧ (p ∉ mayChange c)) :=
  ⟨.boxLost, { base with rid := { base.rid with released := true } }, after (.boxLost) ({ base with rid := { base.rid with released := true } }), .fuses, ⟨by decide +kernel, exec_after (by decide +kernel), by decide +kernel⟩⟩

/-! ### Values the spec writes out -/

/-- The example "one sum, three ways" (02_number_formats.md, R51): 1,234,567 units of Z8e under RNE, RTZ and SR. -/
theorem test_round_one_sum :
    (roundTo .z8e ⟨false, 1234567, -16⟩ .rne false 0).1 = 0x4D ∧ (roundTo .z8e ⟨false, 1234567, -16⟩ .rtz false 0).1 = 0x4C ∧
    (roundTo .z8e ⟨false, 1234567, -16⟩ .sr false 0x4000_0000).1 = 0x4D ∧ (roundTo .z8e ⟨false, 1234567, -16⟩ .sr false 0xC000_0000).1 = 0x4C := by
  decide +kernel

/-- The example "one block through three steps" (02, R41 to R44): 9,000.5 at E = −4 saturates to 0x7F; the next scale byte is 0x7D, then 0x3D. -/
theorem test_block_scale_steps :
    roundTo .z8e ⟨false, 18001, 3⟩ .rne false 0 = (0x7F, fOvf) ∧ (roundTo .z8e ⟨false, 13000, 3⟩ .rne false 0).2.getLsbD 0 = false ∧
    scaleByte false true (-4) = 0x7C ∧ scaleByte false true (nextScale (-4) true none).1 = 0x7D ∧
    scaleByte false false (nextScale (-3) false none).1 = 0x3D := by decide +kernel

/-- The cue words of the example of 04_cues_and_stage_clock.md (R109, Table Cue-7), and the ARG of the one of 06 (R163). -/
theorem test_cue_words :
    (let w : CueWord := ⟨0x24CC_0200_0000_4E20, 0x0001_D4C0_0027_1000, 0x0A42_FFFF_0000_0000, 0x0000_0000_FFFF_0002⟩
     cKind w = 2 ∧ cMissN w = 3 ∧ cLclass w = 3 ∧ cHid w = 0x0200 ∧ cOffset w = 20000 ∧ cDeadline w = 120000 ∧ cGrace w = 10000 ∧
     cNotify w = false ∧ cConv w = ⟨0, 5, 2, 0, false, 2⟩ ∧ convValid (cConv w) = true ∧ cCastset w = 0xFFFF ∧ cLslot w = 0 ∧ cCallIdx w = 0xFFFF ∧
     cPset w = 2) ∧
    (let w : CueWord := ⟨0, 0, 0, 0x0310_83FF_F000_0000⟩
     cUhid w = 0x0310 ∧ cRank w = 128 ∧ cCols w = 4096 ∧ cBandrows w = 1024 ∧ cPrnd w = 0 ∧ cPovf w = false ∧ cRzero w = false) := by decide +kernel

def psetEx : Sys2Proof.Machine.PSet :=
  { lr := 0x3500_0000, beta1 := 0x3EC0_0000, beta2 := 0x3EFC_0000, eps := 0x2B00_0000, wd := 0, gscale := 0x3B00_0000, clip := 0, flags := 0 }

/-- The example "the first update of one element" (05_groom_and_master_state.md, R144): M, V and W, also under SR. -/
theorem test_first_update :
    (zMul ⟨zOne, 0⟩ (zScalar psetEx.beta1)).v = 0x3FD8_0000_0000 ∧ (zMul ⟨zOne, 0⟩ (zScalar psetEx.beta2)).v = 0x3FDF_8000_0000 ∧
    (groomElem psetEx 0x3FD8_0000_0000 0x3FDF_8000_0000 (mkWord 0x3F00_0000 0 0) (zRound ⟨false, 8, 0⟩ 0) ⟨zOne, 0⟩ (fun _ => 0)).word =
      mkWord 0x3EFF_8000 0x3600 0x5800 ∧
    wordW (groomElem { psetEx with flags := 0x20 } 0x3FD8_0000_0000 0x3FDF_8000_0000 (mkWord 0x3F00_0000 0 0) (zRound ⟨false, 8, 0⟩ 0) ⟨zOne, 0⟩
      (fun _ => 0x0FFF_FFFF)).word = 0x3EFF_8001 ∧
    wordW (groomElem { psetEx with flags := 0x20 } 0x3FD8_0000_0000 0x3FDF_8000_0000 (mkWord 0x3F00_0000 0 0) (zRound ⟨false, 8, 0⟩ 0) ⟨zOne, 0⟩
      (fun _ => 0x1000_0000)).word = 0x3EFF_8000 := by decide +kernel

/-- The cast of that weight under FIT: E = −8, code 0x78, scale byte 0x38. -/
theorem test_first_cast :
    (let o := convertBlock ⟨0, 5, 2, 0, false, 2⟩ (decodeVal .z32 0x3EFF_8000 :: List.replicate 63 (decodeVal .z32 0)) 64 0 0 (fun _ => 0)
     o.codes.head? = some 0x78 ∧ o.scale = 0x38) := by decide +kernel

/-- The example of 07_callboard.md (R185): 2^−38 + 2^−38 + 1 + 0.5 in slot order, and in the order of arrival. -/
theorem test_call_order :
    (let z (c : Nat) : BitVec 48 := (zOf (decodeVal .z32 c)).v
     (callFold 0 [z 0x1900_0000, z 0x1900_0000, z 0x3F00_0000, z 0x3E00_0000]).v = 0x3FF0_0000_0001 ∧
     (callFold 0 [z 0x3F00_0000, z 0x1900_0000, z 0x3E00_0000, z 0x1900_0000]).v = 0x3FF0_0000_0000) := by decide +kernel

/-- The example of 08_numerics_watch_and_audit.md (R200): the baseline at the 4,096th sample, and the three samples after it. -/
theorem test_baseline_jump :
    (let b := (learn { count := 4095, sumG := -24570 } (-6) (some 0) 4 4).1
     b.baseG = -1536 ∧ (learn b (-6) (some 0) 4 4).2.1 = false ∧
     (let r := learn b 2 (some 0) 4 4
      r.2.1 = true ∧ r.1.baseG = -1528 ∧ (learn r.1 (-2) (some 0) 4 4).2.1 = false ∧ (learn r.1 (-2) (some 0) 4 4).1.baseG = -1525)) := by decide +kernel

/-- Frame sizes of Table Link-9, and the frame header and LINK cells of the example of 10_izano_link.md. -/
theorem test_frames :
    pkCells (pkt kContrib 2 (zeros 528)) = 9 ∧ pkCells (partialPacket 5 11 0 0 0 256 0 0 [] 0 0) = 50 ∧ pkCells (partialPacket 5 6 0 0 0 256 0 0 [] 0 0) = 26 ∧
    pkCells (mcastPacket 5 2 false 0 0 256 [] [] (zeros 256) 0 0) = 5 ∧ lengthOk (mcastPacket 5 2 false 0 0 256 [] [] (zeros 256) 0 0) = true ∧
    pkCells (seedCopyPacket 5 0 256 (zeros 2048) 0 0) = 33 ∧
    (frameBytes 0x3F1 { pkt kContrib 2 (segHeader 0x0200 3 4 1000 0x11 256 ++ zeros 516) with src := 0x1284 }).take 14 =
      [0xD5, 0x40, 0xF1, 0x03, 0x08, 0x01, 0x10, 0x02, 0xFF, 0xFF, 0x84, 0x12, 0, 0] ∧
    segHeader 0x0200 3 4 1000 0x11 256 = [0x00, 0x02, 0x03, 0x04, 0xE8, 0x03, 0, 0, 0x11, 0, 0, 0xFF] ∧
    leAt (linkCellBytes { rxExpect := 0x3F1, anyAccepted := true, nak := true }) 2 2 = 0xC3F0 ∧
    leAt (linkCellBytes { rxExpect := 0x3F3, anyAccepted := true }) 2 2 = 0x43F2 := by decide +kernel

/-- LANE_STATUS and MBX_VIOL of the example of 18_registers.md (R444, R448): the lane that the session selected; the stray write of an
OPERATOR session, counted, and its record kept by the read of a later cycle that clears the count. -/
theorem test_register_values :
    regValue { lane := 0x65 } (modLane 101 (fun _ => { lock := .marked, good := true, llane := 5, skew := 3, goodSf := 0xFFFF }) base) .laneStatus =
      0x3A80_0300_0000_FFFF ∧
    (let s := after (.regWrite 0) (withCmd 0x41 ([0] ++ leBytes 8 0x000C_0038 ++ leBytes 8 0x8000_0000_0000_0025) base)
     regValue {} s .mbxViol = 0x0000_0001_50C0_0038 ∧
     regValue {} (after (.mbxViol (.window 7 2)) { s with cyc := latch s }) .mbxViol = 0x0000_0000_50C0_0038) := by decide +kernel

/-! The example of 03_harnesses.md: one Z8e segment at a root. -/

def exHead : SheetHead := { head0 with hid := 0x0123, fmt := 1, len := 1864, expected := 0x100_0000_0015, segwin := 8 }
def exWord : CueWord := cueW 1 0x0123 0 0 0x3221 0
def exState : State :=
  { base with
    cue := { base.cue with sheet := some { sheetOf exHead [exWord] with firstStep := 41 }
                           run := some { run0 with nextStep := 42, steps := [{ openOf [going] with step := 41 }] } }
    harn := { base.harn with heads := [{ hd0 with expected := 0x100_0000_0015, step := 41, window := [(7, 0xF7D)] }] } }
def exContrib (m : Nat) (code s1 : Byte) : Packet :=
  pkt kContrib 2 (segHeader 0x0123 1 m 41 7 72 ++ [0x3D, s1, 0, 0] ++ zeros 5 ++ [code] ++ zeros 66)
def exPartial : Packet := partialPacket 0x0123 9 40 41 7 72 0 0 (List.replicate 5 0 ++ [123456]) 0xFFFF 0
def ex1 : State := after (.contrib 0 (exContrib 0 0x4D 0x3D) .clean) (after (.partial_ 40 exPartial .clean) (after (.contrib 4 (exContrib 4 0x3E 0x3D) .clean) exState))
def ex2 : State := after (.contrib 2 (exContrib 2 0xC9 0x3C) .clean) (after (.contrib 1 (exContrib 0 0x4D 0x3D) .clean) ex1)

/-- Sums, the duplicate, the void block of R42 and the fired slot (R71, R75, R80). -/
theorem test_segment_sums :
    (slotOf ex1 0 7).map (fun x => (x.acc.getD 5 0, x.hasFired)) = some (1532480, false) ∧
    (slotOf ex2 0 7).map (fun x => (x.acc.getD 5 0, x.hasFired, x.void.getLsbD 63, x.void.getLsbD 64, x.void.getLsbD 71)) =
      some (877120, true, false, true, true) ∧
    (ex2.harn.members[2]).mismatch = 1 ∧ (ex2.harn.members[0]).dup = 1 ∧ ex2.harn.sticky = 0x201 := by decide +kernel

/-- The cast of that segment under its scale in force: code 0x4B, data scale bytes 0x3D and 0xBD (R57). -/
theorem test_segment_cast :
    (jobOf (after (.castIssue 0 7 .clean) ex2) 0 7 41).map (fun j => (j.codes.getD 5 0, j.dscale)) = some (0x4B, [0x3D, 0xBD]) := by decide +kernel

/-- The READ of the example of 13_host_and_prompt_protocol.md, as it is on the wire (R325). -/
theorem test_read_bytes :
    promptBytes 0x10 0x12 0x5A3C_91E7 1 0 0 0 [] = [0x5A, 0x50, 0x10, 0x12, 0xE7, 0x91, 0x3C, 0x5A, 0x01] ++ zeros 15 := by decide +kernel

/-- The example of 11_switch_core_and_traffic.md (R289): the order in which deficit round robin sends the queued frames. -/
theorem test_deficit_rounds :
    (let q (k : Byte) (c : Sys2Proof.Class) (n : Nat) : Queued := qd (pkt k c (zeros n)) 104
     let s : State := swState { queued := List.replicate 2 (q kSeedCopy 4 2064) ++ List.replicate 3 (q kPartial 3 3120) ++ List.replicate 5 (q kContrib 2 528) ++ [q kUser 0 600] }
     let t := (List.range 11).foldl (fun s _ => after (.egressFrameStart 104 false) s) s
     t.swc.handed.map (fun h => h.packet.vl.val) = [3, 2, 2, 2, 2, 2, 3, 0, 4, 3, 4]) := by decide +kernel

/-! One ill-formed operand for each check of `Instr.wf`. -/

def badAddr : Dgram := { dg 0x01 0 0 0 [] with peer := ⟨[1], 48640⟩ }
def longDgram : Dgram := { dg 0x01 0 0 0 [] with bytes := zeros 9171 }

/-- Datagrams: the source address, and the payload past a MAC frame (Table Host-1). -/
theorem test_wf_datagrams :
    [Instr.open_ badAddr, .auth badAddr, .close badAddr, .keep badAddr, .post badAddr, .read badAddr, .bulkW badAddr, .bulkR badAddr [],
      .evack badAddr, .open_ longDgram].all (fun i => !i.wf) = true ∧ (Instr.open_ (dg 0x01 0 0 0 [])).wf = true := by decide +kernel

/-- Packets of another kind than their command's, and a PLEN past 4,076 (R240). -/
theorem test_wf_packets :
    (let w : Packet := pkt 0x7F 2 []
     [Instr.time 0 w, .notice 0 w, .contrib 0 w .clean, .partial_ 0 w .clean, .window 0 w, .mcast 0 w, .seedHdr 0 w, .seedCopy 0 w,
      .seedAck 0 w [], .call 0 w, .user 0 w, .user 0 (pkt 0x10 0 (zeros 4077))].all (fun i => !i.wf)) = true ∧
    (Instr.user 0 (pkt 0x10 0 (zeros 4076))).wf = true := by decide +kernel

/-- Step numbers past 64 bits, cue indices past 16, accesses past the data space, window entries past 4,095. -/
theorem test_wf_steps :
    (let far : List AccErr := [⟨89478485 * 128, .corrected⟩]
     [Instr.cueLaunch (2 ^ 64) 0, .deadline (2 ^ 64) 0, .actionTick 0 65536, .load 0 65536 [], .store (2 ^ 64) 0, .zeroMoments 0 65536 [],
      .convert 0 65536 .clean, .moveDone 0 65536, .convertDone (2 ^ 64) 0, .leaveRequest 0 65536, .headDigestFold 0 (2 ^ 64) .inp,
      .windowOpen (2 ^ 64) 0, .windowOpen 0 4096, .broadcastRead 0 65536 [], .broadcastRead 0 0 far, .groomIssue 0 0 far .clean,
      .groomIssue 0 0 [] (.dram far), .load 0 0 far, .bulkR (dg 0x22 0 0 0 []) far, .reloadDone 0 ⟨far, .clean⟩, .spillDone 0 (.dram far),
      .seedHeaderSend far, .bandForm 0 0 far .clean, .auditDone far].all (fun i => !i.wf)) = true ∧ (Instr.windowOpen 0 4095).wf = true := by
  decide +kernel

/-- Lines of other lengths, and frames of no cell or more than 64 (R218, R225, R240). -/
theorem test_wf_lanes :
    [Instr.superframeReceived 0 ⟨[], 0⟩, .laneLocked 0 0 [], .laneMarked 0 [] [] [] 0, .blockLoss 0 [], .dataFrame 0 0, .dataFrame 0 65].all (fun i => !i.wf) = true ∧
    (Instr.laneLocked 0 0 (List.replicate 64 .m1)).wf = true ∧ (Instr.dataFrame 0 64).wf = true := by decide +kernel

/-! ### Lines (09_lanes.md) -/

/-- Bit pairs 00, 01, 11 and 10 are the levels −3, −1, +1 and +3, and an inverted lane reads them back (R217, R225). -/
theorem test_levels :
    levels [false, false, false, true, true, true, true, false] = [.m3, .m1, .p1, .p3] ∧
    (let b := block headFec 0x0123_4567_89AB_CDEF_0011_2233_4455_6677
     lineBlocks true 1 (blockLine true b) = [b] ∧ (blockLine false b).length = 65) := by decide +kernel

/-- The field and the code: α^10 = α^3 + 1, parity makes every syndrome 0, and one wrong symbol makes none of them 0 (R222). -/
theorem test_codeword :
    gfExp 10 = 9 ∧ syndromes ([1, 2] ++ rsParity [1, 2]) = List.replicate 30 0 ∧ (syndromes ([1, 3] ++ rsParity [1, 2])).all (· ≠ 0) = true := by
  decide +kernel

/-- The remaining operands of fixed length. -/
theorem test_wf_lengths :
    [Instr.registerWrite .prompter (2 ^ 32) 0, .icmpEcho ⟨0, .plain, 64, false⟩ ⟨[], 0⟩ [1, 2, 3, 4] none [], .icmpEcho ⟨0, .plain, 64, false⟩ ⟨[1, 2, 3, 4], 0⟩ [] none [],
      .lldpdu ⟨0, .plain, 64, false⟩ (zeros 257) [], .lldpdu ⟨0, .plain, 64, false⟩ [] (zeros 257), .boxReading (zeros 191) 0, .fwWrite 0 (zeros 255),
      .resetExit [[], [], [], [], []], .resetExit [[0]], .optDone [none, none, none, none], .optDone [some []]].all (fun i => !i.wf) = true := by
  decide +kernel

end Sys2Proof.Tests
end

section
/-! ## The stage clock's own state under the shared operations

What hands work on (host events, the fault log, the switch core, the Callboard, the end of steps and runs) leaves STG and CUE_STICKY
as they stand; a raised source does too, unless its reaction is WARM. -/

namespace Sys2Proof.Machine

/-! ### Host events and the cue unit -/

@[simp] theorem eventTo_clock (k : Nat) (b : List Byte) (s : State) (sid : BitVec 32) :
    (eventTo k b s sid).stg = s.stg ∧ (eventTo k b s sid).cue = s.cue := by
  unfold eventTo sendEvent; (repeat' split) <;> simp

@[simp] theorem hostEvent_clock (k : Nat) (b : List Byte) (s : State) :
    (hostEvent k b s).stg = s.stg ∧ (hostEvent k b s).cue = s.cue :=
  ⟨foldl_same State.stg _ (by simp) _ s, foldl_same State.cue _ (by simp) _ s⟩

@[simp] theorem cueEvent_clock (n c : Nat) (s : State) : (cueEvent n c s).stg = s.stg ∧ (cueEvent n c s).cue = s.cue := by
  unfold cueEvent; split <;> simp

@[simp] theorem modRun_clock (f : Run → Run) (s : State) : (modRun f s).stg = s.stg ∧ (modRun f s).cue.sticky = s.cue.sticky := ⟨rfl, rfl⟩

@[simp] theorem modOpen_clock (n : Nat) (f : OpenStep → OpenStep) (s : State) :
    (modOpen n f s).stg = s.stg ∧ (modOpen n f s).cue.sticky = s.cue.sticky := ⟨rfl, rfl⟩

@[simp] theorem modInst_clock (n c : Nat) (f : Inst → Inst) (s : State) :
    (modInst n c f s).stg = s.stg ∧ (modInst n c f s).cue.sticky = s.cue.sticky := ⟨rfl, rfl⟩

@[simp] theorem modMember_clock (co : BitVec 10) (m : Nat) (f : MemberCount → MemberCount) (s : State) :
    (modMember co m f s).stg = s.stg ∧ (modMember co m f s).cue.sticky = s.cue.sticky := ⟨rfl, rfl⟩

@[simp] theorem noteFirst_clock (n c : Nat) (s : State) :
    (noteFirst n c s).stg = s.stg ∧ (noteFirst n c s).cue.sticky = s.cue.sticky := ⟨rfl, rfl⟩

@[simp] theorem noteFlags_clock (n c : Nat) (f : Flags) (s : State) :
    (noteFlags n c f s).stg = s.stg ∧ (noteFlags n c f s).cue.sticky = s.cue.sticky := ⟨rfl, rfl⟩

@[simp] theorem failInsts_clock (p : Inst → Bool) (s : State) :
    (failInsts p s).stg = s.stg ∧ (failInsts p s).cue.sticky = s.cue.sticky := by
  unfold failInsts
  constructor
  · exact (foldl_same State.stg _ (by intros; split <;> simp) _ _).trans (modRun_clock _ s).1
  · exact (foldl_same (fun s => s.cue.sticky) _ (by intros; split <;> simp) _ _).trans (modRun_clock _ s).2

/-! ### Raised sources -/

@[simp] theorem checkAlive_clock (s : State) : (checkAlive s).stg = s.stg ∧ (checkAlive s).cue = s.cue := by
  unfold checkAlive; (repeat' split) <;> simp

@[simp] theorem queueLog_clock (t : Nat) (i : SrcId) (c x : Nat) (w a : W64) (s : State) :
    (queueLog t i c x w a s).stg = s.stg ∧ (queueLog t i c x w a s).cue = s.cue := by
  unfold queueLog; dsimp only; split <;> simp

@[simp] theorem latchFirst_clock (i : SrcId) (w : W64) (s : State) :
    (latchFirst i w s).stg = s.stg ∧ (latchFirst i w s).cue = s.cue := by
  unfold latchFirst; dsimp only; split <;> simp

@[simp] theorem countRaise_clock (t : Nat) (r : Raise) (c : Nat) (s : State) :
    (countRaise t r c s).1.stg = s.stg ∧ (countRaise t r c s).1.cue = s.cue := by
  unfold countRaise; dsimp only; split <;> simp

@[simp] theorem interrupt_clock (i : SrcId) (s : State) : (interrupt i s).stg = s.stg ∧ (interrupt i s).cue = s.cue := ⟨rfl, rfl⟩

@[simp] theorem resetUnit_clock (u : Nat) (s : State) : (resetUnit u s).stg = s.stg ∧ (resetUnit u s).cue = s.cue := by
  unfold resetUnit; (repeat' split) <;> exact ⟨rfl, rfl⟩

@[simp] theorem holdUnit_clock (u : Nat) (s : State) : (holdUnit u s).stg = s.stg ∧ (holdUnit u s).cue = s.cue := by
  unfold holdUnit; split <;> simp

@[simp] theorem fenceUnit_clock (i : SrcId) (x : Nat) (s : State) : (fenceUnit i x s).stg = s.stg ∧ (fenceUnit i x s).cue = s.cue := by
  unfold fenceUnit; (repeat' split) <;> exact ⟨rfl, rfl⟩

@[simp] theorem resetPrompter_clock (s : State) : (resetPrompter s).stg = s.stg ∧ (resetPrompter s).cue = s.cue := ⟨rfl, rfl⟩

@[simp] theorem doorRestart_clock (c : Nat) (s : State) : (doorRestart c s).stg = s.stg ∧ (doorRestart c s).cue = s.cue := by
  unfold doorRestart; dsimp only; (repeat' split) <;> simp

@[simp] theorem beginRecovery_clock (s : State) :
    (beginRecovery s).stg = s.stg ∧ (beginRecovery s).cue.sticky = s.cue.sticky := by
  unfold beginRecovery; (repeat' split) <;> simp

@[simp] theorem stopAlive_clock (i : SrcId) (s : State) : (stopAlive i s).stg = s.stg ∧ (stopAlive i s).cue.sticky = s.cue.sticky := by
  simp [stopAlive, holdAlive]

@[simp] theorem faultEvent_clock (r : Raise) (c : Nat) (q : W64) (s : State) :
    (faultEvent r c q s).stg = s.stg ∧ (faultEvent r c q s).cue = s.cue := by
  unfold faultEvent; split <;> simp

/-- Of the reactions of Table Faults-3 the WARM one alone, code 5, reaches the stage clock. -/
theorem react_clock (warm : Bool) (r : Raise) (c : Nat) (s : State) (h : c ≠ 5) :
    (react warm r c s).stg = s.stg ∧ (react warm r c s).cue.sticky = s.cue.sticky := by
  unfold react
  dsimp only
  split
  case h_5 => exact absurd rfl h
  all_goals (repeat' split) <;> simp

/-- A refused fence makes of a reaction STOP_ALIVE, never WARM (R410). -/
theorem codeFor_ne_warm (r : Raise) (c : Nat) (s : State) (h : c ≠ 5) : codeFor r c s ≠ 5 := by
  unfold codeFor; split
  · decide
  · exact h

/-- A raised source whose reaction is not WARM leaves the stage clock and CUE_STICKY alone. -/
theorem raise_clock (r : Raise) (s : State) (h : reactOf s r.src ≠ 5) :
    (raise r s).stg = s.stg ∧ (raise r s).cue.sticky = s.cue.sticky := by
  have hc := codeFor_ne_warm r _ s h
  unfold raise raiseAs
  dsimp only
  split
  · exact ⟨rfl, rfl⟩
  · (repeat' split) <;> simp [react_clock _ _ _ _ hc]

/-! ### The switch core -/

@[simp] theorem swcSticky_clock (b : Nat) (s : State) : (swcSticky b s).stg = s.stg ∧ (swcSticky b s).cue = s.cue := ⟨rfl, rfl⟩

@[simp] theorem settleLocalRes_clock (s : State) : (settleLocalRes s).stg = s.stg ∧ (settleLocalRes s).cue = s.cue := by
  unfold settleLocalRes; dsimp only; split <;> simp

@[simp] theorem releaseHold_clock (b : Buf) (s : State) : (releaseHold b s).stg = s.stg ∧ (releaseHold b s).cue = s.cue := by
  unfold releaseHold; split <;> exact ⟨rfl, rfl⟩

@[simp] theorem modBuf_clock (id : Nat) (f : Buf → Buf) (s : State) : (modBuf id f s).stg = s.stg ∧ (modBuf id f s).cue = s.cue := by
  unfold modBuf; dsimp only; (repeat' split) <;> simp

@[simp] theorem copyLeaves_clock (id : Nat) (s : State) : (copyLeaves id s).stg = s.stg ∧ (copyLeaves id s).cue = s.cue :=
  modBuf_clock id _ s

@[simp] theorem sprayTo_clock (m : Fin 512) (v : Class) (s : State) :
    (sprayTo m v s).2.stg = s.stg ∧ (sprayTo m v s).2.cue = s.cue := by
  unfold sprayTo; (repeat' split) <;> exact ⟨rfl, rfl⟩

@[simp] theorem routeEntryTo_clock (m : Fin 512) (pk : Packet) (p : Option Port) (s : State) :
    (routeEntryTo m pk p s).2.stg = s.stg ∧ (routeEntryTo m pk p s).2.cue = s.cue := by
  unfold routeEntryTo; dsimp only; (repeat' split) <;> simp

@[simp] theorem resolve_clock (a p : Option Port) (pk : Packet) (s : State) :
    (resolve a p pk s).2.stg = s.stg ∧ (resolve a p pk s).2.cue = s.cue := by
  unfold resolve; dsimp only; (repeat' split) <;> simp

@[simp] theorem placeFrame_clock (b : Nat) (i : SwPort) (a p : Option Port) (pk : Packet) (s : State) :
    (placeFrame b i a p pk s).stg = s.stg ∧ (placeFrame b i a p pk s).cue = s.cue := by
  unfold placeFrame; dsimp only; split <;> simp

@[simp] theorem launchMember_clock (b : Nat) (i : SwPort) (pk : Packet) (s : State) (p : Port) :
    (launchMember b i pk s p).stg = s.stg ∧ (launchMember b i pk s p).cue = s.cue := by
  unfold launchMember; dsimp only; (repeat' split) <;> simp

@[simp] theorem launchCopy_clock (b : Nat) (i : SwPort) (pk : Packet) (s : State) (p : Port) :
    (launchCopy b i pk s p).stg = s.stg ∧ (launchCopy b i pk s p).cue = s.cue := by
  unfold launchCopy; (repeat' split) <;> simp

@[simp] theorem enterLocal_clock (w : LocalWait) (s : State) : (enterLocal w s).stg = s.stg ∧ (enterLocal w s).cue = s.cue := by
  have hs := foldl_same State.stg (launchCopy s.swc.nextBuf w.input w.packet) (by simp) w.ports
  have hc := foldl_same State.cue (launchCopy s.swc.nextBuf w.input w.packet) (by simp) w.ports
  unfold enterLocal; dsimp only; split <;> simp [hs, hc, newBuf]

@[simp] theorem originate_clock (i : SwPort) (pk : Packet) (l : List Port) (s : State) :
    (originate i pk l s).stg = s.stg ∧ (originate i pk l s).cue = s.cue := by
  unfold originate originateAll; (repeat' split) <;> simp

@[simp] theorem sendOn_clock (i : SwPort) (p : Port) (pk : Packet) (s : State) :
    (sendOn i p pk s).stg = s.stg ∧ (sendOn i p pk s).cue = s.cue := by
  unfold sendOn sendAgain; (repeat' split) <;> simp

/-! ### The Callboard -/

@[simp] theorem callFlags_clock (f : Flags) (s : State) : (callFlags f s).stg = s.stg ∧ (callFlags f s).cue = s.cue := ⟨rfl, rfl⟩

@[simp] theorem callSticky_clock (b : Nat) (s : State) : (callSticky b s).stg = s.stg ∧ (callSticky b s).cue = s.cue := ⟨rfl, rfl⟩

@[simp] theorem modCtx_clock (n c : Nat) (f : CallCtx → CallCtx) (s : State) :
    (modCtx n c f s).stg = s.stg ∧ (modCtx n c f s).cue = s.cue := ⟨rfl, rfl⟩

@[simp] theorem modSum_clock (n c : Nat) (f : SumSq → SumSq) (s : State) :
    (modSum n c f s).stg = s.stg ∧ (modSum n c f s).cue = s.cue := ⟨rfl, rfl⟩

@[simp] theorem armCtx_clock (n c : Nat) (s : State) : (armCtx n c s).stg = s.stg ∧ (armCtx n c s).cue = s.cue := by
  unfold armCtx; split <;> simp

@[simp] theorem storeOperand_clock (n c m : Nat) (l : List (BitVec 48)) (s : State) :
    (storeOperand n c m l s).stg = s.stg ∧ (storeOperand n c m l s).cue.sticky = s.cue.sticky := ⟨rfl, rfl⟩

@[simp] theorem sendDown_clock (n c : Nat) (w : CueWord) (l : List (BitVec 48)) (s : State) :
    (sendDown n c w l s).stg = s.stg ∧ (sendDown n c w l s).cue = s.cue := by
  unfold sendDown
  dsimp only
  constructor
  · split <;> exact foldl_same State.stg _ (by intros; split <;> simp) _ _
  · split <;> exact foldl_same State.cue _ (by intros; split <;> simp) _ _

@[simp] theorem tryComplete_clock (n c : Nat) (s : State) :
    (tryComplete n c s).stg = s.stg ∧ (tryComplete n c s).cue.sticky = s.cue.sticky := by
  unfold tryComplete; dsimp only; (repeat' split) <;> simp

@[simp] theorem callArrive_clock (p : Port) (pk : List Byte) (s : State) :
    (callArrive p pk s).stg = s.stg ∧ (callArrive p pk s).cue.sticky = s.cue.sticky := by
  unfold callArrive; dsimp only; (repeat' split) <;> simp

@[simp] theorem retryHeld_clock (s : State) : (retryHeld s).stg = s.stg ∧ (retryHeld s).cue.sticky = s.cue.sticky :=
  ⟨foldl_same State.stg _ (by simp) _ _, foldl_same (fun s => s.cue.sticky) _ (by simp) _ _⟩

@[simp] theorem foldSumsq_clock (n c k : Nat) (s : State) :
    (foldSumsq n c k s).stg = s.stg ∧ (foldSumsq n c k s).cue.sticky = s.cue.sticky := by
  induction k generalizing s with
  | zero => exact ⟨rfl, rfl⟩
  | succ k ih =>
    unfold foldSumsq; dsimp only
    (repeat' split) <;> simp [ih, sumFlags]

@[simp] theorem retrySums_clock (s : State) : (retrySums s).stg = s.stg ∧ (retrySums s).cue.sticky = s.cue.sticky :=
  ⟨foldl_same State.stg _ (by simp) _ _, foldl_same (fun s => s.cue.sticky) _ (by simp) _ _⟩

/-! ### The end of instances, steps and runs -/

@[simp] theorem arriveOwn_clock (n c : Nat) (s : State) :
    (arriveOwn n c s).stg = s.stg ∧ (arriveOwn n c s).cue.sticky = s.cue.sticky := by
  unfold arriveOwn; (repeat' split) <;> simp

@[simp] theorem clearMisses_clock (h : Nat) (s : State) :
    (clearMisses h s).stg = s.stg ∧ (clearMisses h s).cue.sticky = s.cue.sticky := by
  unfold clearMisses
  split
  · exact ⟨foldl_same State.stg _ (by intros; split <;> simp) _ _,
      foldl_same (fun s => s.cue.sticky) _ (by intros; split <;> simp) _ _⟩
  · exact ⟨rfl, rfl⟩

@[simp] theorem finishInst_clock (n c : Nat) (s : State) :
    (finishInst n c s).stg = s.stg ∧ (finishInst n c s).cue.sticky = s.cue.sticky := by
  unfold finishInst; dsimp only; (repeat' split) <;> simp

@[simp] theorem endStep_clock (n : Nat) (s : State) : (endStep n s).stg = s.stg ∧ (endStep n s).cue.sticky = s.cue.sticky := by
  unfold endStep; (repeat' split) <;> simp

@[simp] theorem settle_clock (s : State) : (settle s).stg = s.stg ∧ (settle s).cue.sticky = s.cue.sticky := by
  unfold settle
  constructor
  · exact foldl_same State.stg _ (fun s n => by simp [foldl_same State.stg (fun s c => finishInst n c s)]) _ _
  · exact foldl_same (fun s => s.cue.sticky) _ (fun s n => by simp [foldl_same (fun s => s.cue.sticky) (fun s c => finishInst n c s)]) _ _

@[simp] theorem endRun_clock (cause : Nat) (s : State) :
    (endRun cause s).stg = s.stg ∧ (endRun cause s).cue.sticky = s.cue.sticky := by
  unfold endRun; dsimp only [endStops, liftFences, signDue, drawnLast, grmSticky, digSticky]
  (repeat' split) <;> simp

@[simp] theorem maybeEnd_clock (s : State) : (maybeEnd s).stg = s.stg ∧ (maybeEnd s).cue.sticky = s.cue.sticky := by
  unfold maybeEnd; (repeat' split) <;> simp

@[simp] theorem clockStop_stg (s : State) : (clockStop s).stg = s.stg := by
  unfold clockStop; dsimp only; (repeat' split) <;> simp [cueSticky]

/-- A cued run cannot go on once the clock is FREE or STOPPED: CUE_STICKY bit 6 tells it (R103). -/
theorem clockStop_sticky (s : State) (r : Run) (sh : Sheet) (hr : s.cue.run = some r) (hs : s.cue.sheet = some sh)
    (hl : sh.liberty = false) : (clockStop s).cue.sticky.getLsbD 6 = true := by
  simp [clockStop, hr, hs, hl, cueSticky]

end Sys2Proof.Machine
end

section
/-! ## The rows of the stage clock (04_cues_and_stage_clock.md R97 to R103) -/

namespace Sys2Proof.Machine

@[simp] theorem stgSticky_stg (b : Nat) (s : State) :
    (stgSticky b s).stg = { s.stg with sticky := s.stg.sticky ||| BitVec.ofNat 6 (1 <<< b) } := rfl

/-- Of the clock's unit, capturing an edge changes the capture alone. -/
theorem captureEdge_stg (s : State) : (captureEdge s).stg = { s.stg with captured := (captureEdge s).stg.captured } := by
  unfold captureEdge; dsimp only; split <;> rfl

/-- Of the clock's unit, clearing ARM changes STG_CTRL alone. -/
theorem clearArm_stg (s : State) : (clearArm s).stg = { s.stg with ctrl := (clearArm s).stg.ctrl } := by
  unfold clearArm; split <;> rfl

/-- An edge clears ARM where no write of its arena cycle stands after it (R14, R99). -/
theorem clearArm_clears (s : State) (h : lastWrite s .stgCtrl 0 = none) : (clearArm s).stg.ctrl.getLsbD 12 = false := by
  simp [clearArm, h, put]

/-- ARM as a write of the edge's own cycle has set it stays (R14, R99). -/
theorem clearArm_keeps (s : State) (v : W64) (h : lastWrite s .stgCtrl 0 = some v) (hv : v.getLsbD 12 = true) : clearArm s = s := by
  simp [clearArm, h, hv]

/-- The fields of STG_CTRL take effect at an edge, but for ARM (R99). -/
def takeCtrl (s : State) : State := { s with stg := { s.stg with inForce := ctrlAtEdge s &&& ~~~(put 1 1 12) } }

/-- The three things an edge can do to a clock that runs (R99). -/
theorem execTmarkEdge_running (s : State) (hr : s.stg.released = true) (hs : s.stg.st ≠ .stopped) :
    execTmarkEdge s = .next (
      if (ctrlAtEdge s).getLsbD 12 then
        if s.cue.run.isSome then captureEdge (stgSticky 3 (clearArm (takeCtrl s))) else retryHeld (epochLoad (clearArm (takeCtrl s)))
      else captureEdge (takeCtrl s)) := by
  unfold execTmarkEdge
  rw [if_neg (by simp [hr])]
  dsimp only
  rw [if_neg hs, apply_ite Host.Outcome.next, apply_ite Host.Outcome.next]
  rfl

/-- ARM after an edge that found it set: clear, unless a write of the edge's own cycle has set it, and then STG_CTRL is as written. -/
theorem clearArm_takeCtrl (s : State) :
    (lastWrite s .stgCtrl 0 = none → (clearArm (takeCtrl s)).stg.ctrl.getLsbD 12 = false) ∧
    (∀ v, lastWrite s .stgCtrl 0 = some v → v.getLsbD 12 = true → (clearArm (takeCtrl s)).stg.ctrl = s.stg.ctrl) :=
  ⟨clearArm_clears (takeCtrl s), fun v h hv => by rw [clearArm_keeps (takeCtrl s) v h hv]; rfl⟩

/-- What an armed load leaves in the clock's unit (R99). -/
theorem loadedEdge_stg (s : State) : (retryHeld (epochLoad (clearArm (takeCtrl s)))).stg =
    (epochLoad { takeCtrl s with stg := { (takeCtrl s).stg with ctrl := (clearArm (takeCtrl s)).stg.ctrl } }).stg := by
  rw [(retryHeld_clock _).1]
  unfold clearArm; split <;> rfl

/-- What an edge leaves in the clock's unit when a run drops its load (R99). -/
theorem droppedEdge_stg (s : State) : (captureEdge (stgSticky 3 (clearArm (takeCtrl s)))).stg =
    { s.stg with
      inForce := ctrlAtEdge s &&& ~~~(put 1 1 12), ctrl := (clearArm (takeCtrl s)).stg.ctrl, sticky := s.stg.sticky ||| 8
      captured := (captureEdge (stgSticky 3 (clearArm (takeCtrl s)))).stg.captured } := by
  rw [captureEdge_stg, stgSticky_stg, clearArm_stg]; rfl

theorem tmarkEdge_completes (s : State) (hr : s.stg.released = true) (hs : s.stg.st ≠ .stopped) :
    Completes .tmarkEdge s (fun t => t.stg.inForce = ctrlAtEdge s &&& ~~~(put 1 1 12) ∧
      ((ctrlAtEdge s).getLsbD 12 = true → s.cue.run = none → t.stg.now = s.stg.epochReg ∧ t.stg.epoch = s.stg.epochReg ∧ t.stg.grid = 0 ∧
        t.stg.st = (if (ctrlAtEdge s).getLsbD 7 then .machine else .rack)) ∧
      ((ctrlAtEdge s).getLsbD 12 = true → s.cue.run ≠ none → t.stg.now = s.stg.now ∧ t.stg.sticky.getLsbD 3 = true) ∧
      ((ctrlAtEdge s).getLsbD 12 = true → lastWrite s .stgCtrl 0 = none → t.stg.ctrl.getLsbD 12 = false) ∧
      (∀ v, lastWrite s .stgCtrl 0 = some v → v.getLsbD 12 = true → t.stg.ctrl = s.stg.ctrl) ∧
      ((ctrlAtEdge s).getLsbD 12 = false → t.stg.now = s.stg.now ∧ t.stg.st = s.stg.st)) := by
  obtain ⟨hclear, hkeep⟩ := clearArm_takeCtrl s
  refine ⟨_, execTmarkEdge_running s hr hs, ?_⟩
  cases ha : (ctrlAtEdge s).getLsbD 12 with
  | false =>
    simp only [Bool.false_eq_true, if_false]
    rw [captureEdge_stg]
    simp [takeCtrl]
  | true =>
    cases hn : s.cue.run with
    | none =>
      simp only [if_true, Option.isSome_none, Bool.false_eq_true, if_false]
      rw [loadedEdge_stg]
      refine ⟨rfl, fun _ _ => ⟨rfl, rfl, rfl, ?_⟩, fun _ h => absurd rfl h, fun _ => hclear, hkeep, by simp⟩
      simp [epochLoad, alignedState, stgRoot, takeCtrl, put]
    | some r =>
      simp only [if_true, Option.isSome_some]
      rw [droppedEdge_stg]
      exact ⟨rfl, by simp, fun _ _ => ⟨rfl, by simp⟩, fun _ => hclear, hkeep, by simp⟩

theorem gridPointJudged_completes (s : State) (hr : s.stg.released = true) (ht : tracking s = true)
    (hp : gridPoint s s.stg.nextK + 16 < (s.stg.now.toNat : Int)) (hc : reactOf s srcStageHold ≠ 5) :
    Completes .gridPointJudged s (fun t => t.stg.nextK = s.stg.nextK + 1 ∧ t.stg.captured = none ∧
      (∀ p, s.stg.captured = some p → t.stg.missed = 0 ∧ t.stg.slew = s.stg.slew - p ∧ (s.stg.st = .holdover → t.stg.st = alignedState s)) ∧
      (s.stg.captured = none → t.stg.missed = s.stg.missed + 1 ∧ t.stg.sticky.getLsbD 0 = true ∧
        (s.stg.missed ≥ 1 → s.stg.st ≠ .holdover → t.stg.st = .holdover ∧ t.stg.holdAt = s.time ∧ t.stg.sticky.getLsbD 1 = true))) := by
  have hg : s.stg.released ∧ tracking s ∧ (s.stg.now.toNat : Int) > gridPoint s s.stg.nextK + 16 := ⟨hr, ht, hp⟩
  change ∃ t, execGridPointJudged s = .next t ∧ _
  unfold execGridPointJudged
  rw [if_pos hg]
  cases hcap : s.stg.captured with
  | some p =>
    refine ⟨_, rfl, rfl, rfl, ?_, by simp⟩
    rintro _ ⟨⟩
    exact ⟨rfl, rfl, fun h => if_pos h⟩
  | none =>
    dsimp only
    split
    case isTrue h =>
      refine ⟨_, rfl, ?_⟩
      rw [(raise_clock _ _ hc).1]
      simp
    case isFalse h =>
      have hold : s.stg.missed ≥ 1 → s.stg.st = .holdover := by simpa using h
      exact ⟨_, rfl, rfl, rfl, by simp, fun _ => ⟨rfl, by simp, fun hm hn => absurd (hold hm) hn⟩⟩

theorem slewCorrection_completes (s : State) (hr : s.stg.released = true) (ht : tracking s = true) (hs : s.stg.slew ≠ 0)
    (hn : s.stg.sinceSlew + 1 ≥ 4096) :
    Completes .slewCorrection s (fun t => t = { passCycle s with
      time := s.time + 1
      stg := { s.stg with now := s.stg.now + (if s.stg.slew > 0 then 2 else 0), slew := s.stg.slew + (if s.stg.slew > 0 then -1 else 1), sinceSlew := 0 } }) := by
  refine ⟨_, if_pos ⟨hr, ht, hs, hn⟩, ?_⟩
  simp only [decide_eq_true_eq]

theorem holdoverExpiry_completes (s : State) (hs : s.stg.st = .holdover) (ht : s.stg.holdAt + 1000 * ms ≤ s.time) :
    Completes .holdoverExpiry s (fun t => t.stg.st = .free ∧ t.stg.now = s.stg.now ∧ t.stg.slew = 0) := by
  refine ⟨_, if_pos ⟨hs, ht⟩, ?_⟩
  simp [dropSlew]

theorem noticeTimeout_completes (s : State) (hs : s.stg.st = .machine) (hr : stgRoot s = false)
    (ht : s.stg.noticeAt + 64 * tmarkPeriod ≤ s.time) :
    Completes .noticeTimeout s (fun t => t = { s with stg := { s.stg with st := .rack } }) :=
  ⟨_, if_pos ⟨hs, by simp [hr], ht⟩, rfl⟩

theorem pllUnlock_completes (s : State) (hr : s.stg.released = true) (hs : s.stg.st ≠ .stopped) (hc : reactOf s srcStagePll ≠ 5) :
    Completes .pllUnlock s (fun t => t.stg.st = .stopped ∧ t.stg.now = s.stg.now ∧ t.stg.sticky.getLsbD 4 = true) := by
  refine ⟨_, if_pos ⟨hr, hs⟩, ?_⟩
  dsimp only
  rw [clockStop_stg, (raise_clock _ _ hc).1]
  simp [dropSlew]

theorem pllRelock_completes (s : State) (hs : s.stg.st = .stopped) :
    Completes .pllRelock s (fun t => t.stg = { s.stg with st := .free } ∧
      ∀ r sh, s.cue.run = some r → s.cue.sheet = some sh → sh.liberty = false → t.cue.sticky.getLsbD 6 = true) := by
  refine ⟨_, if_pos hs, by simp, fun r sh hr hsh hl => ?_⟩
  simp only [settle_clock, retrySums_clock, retryHeld_clock]
  exact clockStop_sticky _ r sh hr hsh hl

/-- Settles O20: each row of the clock, from what it does itself and from the rule that what it hands on leaves the clock alone. -/
theorem stageClockFollowsTheGrid : Obligations.StageClockFollowsTheGrid :=
  ⟨fun s c hr hs (hc : c = ctrlAtEdge s) => hc ▸ tmarkEdge_completes s hr hs, gridPointJudged_completes, slewCorrection_completes, holdoverExpiry_completes,
    noticeTimeout_completes, pllUnlock_completes, pllRelock_completes⟩

end Sys2Proof.Machine
end

section
/-! ## Fields of register words (R8): putting in place, masking and taking out -/

namespace Sys2Proof.Machine

theorem getLsbD_put (x w lo i : Nat) :
    (put x w lo).getLsbD i = (decide (i < 64) && (decide (lo ≤ i) && (decide (i - lo < w) && x.testBit (i - lo)))) := by
  simp [put, BitVec.getLsbD_ofNat, Nat.testBit_shiftLeft]

theorem getLsbD_ones (hi lo i : Nat) : (ones hi lo).getLsbD i = (decide (i < 64) && (decide (lo ≤ i) && decide (i ≤ hi))) := by
  have h (h : lo ≤ i) : decide (i - lo < hi + 1 - lo) = decide (i ≤ hi) := decide_eq_decide.2 (by omega)
  by_cases hl : lo ≤ i <;> simp [ones, BitVec.getLsbD_ofNat, Nat.testBit_shiftLeft, hl, h]

theorem testBit_fld (v : W64) (hi lo j : Nat) : (fld v hi lo).testBit j = (decide (j < hi + 1 - lo) && v.getLsbD (lo + j)) := by
  simp [fld, Nat.testBit_mod_two_pow, Nat.testBit_shiftRight, BitVec.testBit_toNat]

theorem putB_eq_put (b : Bool) (lo : Nat) : putB b lo = put b.toNat 1 lo := by
  cases b <;> simp [putB, put]

theorem fld_or (a b : W64) (hi lo : Nat) : fld (a ||| b) hi lo = fld a hi lo ||| fld b hi lo :=
  Nat.eq_of_testBit_eq fun j => by simp [testBit_fld, Nat.testBit_or, Bool.and_or_distrib_left]

/-- A field put in place is read back from there. -/
theorem fld_put_same (x w lo hi : Nat) (hx : x < 2 ^ w) (hw : hi + 1 = lo + w) (hh : hi < 64) : fld (put x w lo) hi lo = x := by
  refine Nat.eq_of_testBit_eq fun j => ?_
  rw [testBit_fld, getLsbD_put]
  by_cases hj : j < w
  · simp [show j < hi + 1 - lo by omega, show lo + j < 64 by omega, hj]
  · simp [show ¬ j < hi + 1 - lo by omega, Nat.testBit_lt_two_pow (Nat.lt_of_lt_of_le hx (Nat.pow_le_pow_right (by decide) (Nat.le_of_not_lt hj)))]

/-- A field put elsewhere leaves these bits 0. -/
theorem fld_put_apart (x w at' hi lo : Nat) (h : hi < at' ∨ at' + w ≤ lo) : fld (put x w at') hi lo = 0 := by
  refine Nat.eq_of_testBit_eq fun j => ?_
  rw [testBit_fld, getLsbD_put, Nat.zero_testBit]
  by_cases hj : j < hi + 1 - lo
  · by_cases ha : at' ≤ lo + j
    · have hw : ¬ lo + j - at' < w := by omega
      simp only [hw, decide_false, Bool.false_and, Bool.and_false]
    · simp only [ha, decide_false, Bool.false_and, Bool.and_false]
  · simp only [hj, decide_false, Bool.false_and]

theorem put_mod (x w lo : Nat) : put (x % 2 ^ w) w lo = put x w lo := by simp [put]

/-- Taking a field and putting it back in its place is masking. -/
theorem put_fld (v : W64) (hi lo w : Nat) (hw : hi + 1 = lo + w) : put (fld v hi lo) w lo = v &&& ones hi lo := by
  refine BitVec.eq_of_getLsbD_eq fun i hi' => ?_
  rw [getLsbD_put, testBit_fld, BitVec.getLsbD_and, getLsbD_ones]
  by_cases hl : lo ≤ i
  · by_cases hh : i ≤ hi
    · simp [hi', hl, hh, show i - lo < w by omega, show i - lo < hi + 1 - lo by omega, show lo + (i - lo) = i by omega]
    · simp [hh, show ¬ i - lo < w by omega]
  · simp [hl]

theorem put_and_ones (x w lo hi : Nat) (hw : hi + 1 = lo + w) (hh : hi < 64) : put x w lo &&& ones hi lo = put x w lo := by
  rw [← put_mod x, ← put_fld _ hi lo w hw, fld_put_same _ w lo hi (Nat.mod_lt _ (Nat.two_pow_pos w)) hw hh]

theorem put_and_ones_apart (x w at' hi lo : Nat) (h : hi < at' ∨ at' + w ≤ lo) (hl : lo ≤ hi) : put x w at' &&& ones hi lo = 0 := by
  rw [← put_fld _ hi lo (hi + 1 - lo) (by omega), fld_put_apart x w at' hi lo h]
  simp [put]

/-- The low half of a word holds the fields that lie in it. -/
theorem fld_low (v : W64) (hi lo : Nat) (h : hi < 32) : fld ((v.setWidth 32).setWidth 64) hi lo = fld v hi lo := by
  refine Nat.eq_of_testBit_eq fun j => ?_
  by_cases hj : j < hi + 1 - lo
  · simp [testBit_fld, show lo + j < 64 by omega, show lo + j < 32 by omega]
  · simp [testBit_fld, hj]

end Sys2Proof.Machine
end

section
/-! ## Register accesses (R440 to R449) -/

namespace Sys2Proof.Machine

/-! ### Violations -/

/-- The word that MBX_VIOL records of a violation holds each of its fields (R446). -/
theorem violate_violated (who : Requester) (kind off : Nat) (write : Bool) (s : State) (hk : kind < 8) (ho : off < 0x100_0000) :
    Violated who kind off write s (violate who kind off write s) := by
  have hc : windowCode who < 4 := by
    cases who with
    | prompter => decide
    | window _ w => exact Nat.lt_of_lt_of_le w.isLt (by decide)
  have h8 : off / 0x10000 < 256 := by omega
  have h16 : put off 16 0 = put (off % 0x10000) 16 0 := (put_mod off 16 0).symm
  refine ⟨rfl, ?_, ?_, ?_, ?_, ?_⟩
  · simp [violate, fld_low, fld_or, fld_put_same, fld_put_apart, putB_eq_put, hk]
  · cases write <;> simp [violate, BitVec.getLsbD_setWidth, BitVec.getLsbD_or, getLsbD_put, putB_eq_put, -BitVec.getLsbD_eq_getElem]
  · simp [violate, fld_low, fld_or, fld_put_same, fld_put_apart, putB_eq_put, h8]
  · simp [violate, fld_low, fld_or, fld_put_same, fld_put_apart, putB_eq_put, hc]
  · simp [violate, fld_low, fld_or, fld_put_same, fld_put_apart, putB_eq_put, h16, Nat.mod_lt]

theorem limitKind_lt (who : Requester) (r : Reg) (write : Bool) : limitKind who r write < 8 := by
  cases who with
  | prompter => exact Nat.succ_pos 7
  | window sid w => unfold limitKind; dsimp only; (repeat' split) <;> decide

/-- The offset of a register lies in the window span. -/
theorem regOffset_lt (r : Reg) : regOffset r < 0x100_0000 := by
  have h := (regAt_regOffset r).2
  simp only [offsetOk, Bool.and_eq_true, decide_eq_true_eq] at h
  exact h.2

/-! ### Accesses that reach no register -/

theorem accessRead_nowhere (who : Requester) (off : Nat) (s : State) (ho : offsetOk off = true) (hr : regAt off = none) :
    accessRead who off s = (0, violate who 1 off false s) := by
  simp [accessRead, ho, hr]

theorem accessRead_limited (who : Requester) (off : Nat) (r : Reg) (s : State) (ho : offsetOk off = true) (hr : regAt off = some r)
    (hl : limitKind who r false ≠ 0) : accessRead who off s = (0, violate who (limitKind who r false) off false s) := by
  simp [accessRead, ho, hr, hl]

theorem accessRead_held (who : Requester) (off : Nat) (r : Reg) (s : State) (ho : offsetOk off = true) (hr : regAt off = some r)
    (hl : limitKind who r false = 0) (hb : blockOut s r = true) : accessRead who off s = (0, violate who 3 off false s) := by
  simp [accessRead, ho, hr, hl, hb]

theorem accessWrite_nowhere (who : Requester) (off : Nat) (v : W64) (s : State) (ho : offsetOk off = true) (hr : regAt off = none) :
    accessWrite who off v s = violate who 1 off true s := by
  simp [accessWrite, ho, hr]

theorem accessWrite_limited (who : Requester) (r : Reg) (v : W64) (s : State) (hl : limitKind who r true ≠ 0) :
    accessWrite who (regOffset r) v s = violate who (limitKind who r true) (regOffset r) true s := by
  simp [accessWrite, regAt_regOffset r, hl]

theorem accessWrite_held (who : Requester) (r : Reg) (v : W64) (s : State) (hl : limitKind who r true = 0) (hb : blockOut s r = true) :
    accessWrite who (regOffset r) v s = violate who 3 (regOffset r) true s := by
  simp [accessWrite, regAt_regOffset r, hl, hb]

/-- A read that reaches a register with no field that a read clears, no open field and no shared bits changes nothing (R13). -/
theorem accessRead_plain (who : Requester) (r : Reg) (s : State) (hl : limitKind who r false = 0) (hb : blockOut s r = false)
    (hc : rcFields r = []) (hp : r ≠ .prjStatus) (ho : readsOpen (selOf who s) s r = false) :
    accessRead who (regOffset r) s = (regValue (selOf who s) s r, s) := by
  obtain ⟨hv, ha⟩ := read_plain (selOf who s) s r hc
  have hm (x : W64) : x &&& 18446744073709551615#64 = x := BitVec.and_allOnes
  simp [accessRead, regAt_regOffset r, hl, hb, ho, sharesOut, hp, hv, ha, hm]

/-! ### What a write leaves in its register -/

/-- A write by a requester that may write. -/
theorem registerWrite_completes (who : Requester) (off : Nat) (v : W64) (s : State) (P : State → Prop) (hm : mayAccess who true s = true)
    (h : P (accessWrite who off v s)) : Completes (.registerWrite who off v) s P :=
  ⟨_, congrArg Host.Outcome.next (if_pos hm), h⟩

/-- A session changed in all but its ID is found again. -/
theorem findSession_modSession (sid : BitVec 32) (f : Session → Session) (s : State) (hf : ∀ x, (f x).id = x.id) :
    findSession (modSession sid f s) sid = (findSession s sid).map f := by
  have hp : (fun x : Session => decide (x.id = sid)) ∘ (fun x => if x.id = sid then f x else x) = fun x => decide (x.id = sid) := by
    funext x; by_cases hx : x.id = sid <;> simp [hx, hf]
  simp only [findSession, modSession, List.find?_map, hp]
  cases h : s.host.sessions.find? (fun x => decide (x.id = sid)) with
  | none => rfl
  | some x =>
    have hx : x.id = sid := by simpa using List.find?_some h
    simp [hx]

/-- A requester that may make accesses sees its own selector copies as it sets them (R448). -/
theorem selOf_modSel (who : Requester) (write : Bool) (f : Selectors → Selectors) (s : State) (h : mayAccess who write s = true) :
    selOf who (modSel who f s) = f (selOf who s) := by
  cases who with
  | prompter => rfl
  | window sid w =>
    cases hx : findSession s sid with
    | none => simp [mayAccess, hx] at h
    | some x =>
      have hf := findSession_modSession sid (fun x => { x with sel := f x.sel }) s (fun _ => rfl)
      simp [selOf, modSel, hf, hx]

/-- A register with RW fields has no sticky bits. -/
theorem isW1c_of_rwMask (r : Reg) (h : rwMask r ≠ 0) : isW1c r = false := by
  cases r with
  | rstBackup n => simp [isW1c, cycleRegs]
  | _ => revert h; decide

@[simp] theorem suspendAll_ctrl (l : List Grant) (s : State) : (suspendAll l s).rid.ctrl = s.rid.ctrl := by
  induction l generalizing s with
  | nil => rfl
  | cons g l ih =>
    unfold suspendAll
    split
    · rfl
    · rw [ih]; unfold suspendGrant; (repeat' split) <;> rfl

@[simp] theorem capChanged_ctrl (s : State) : (capChanged s).rid.ctrl = s.rid.ctrl := by
  unfold capChanged; split <;> simp

/-- An RW field takes what is written, an RO field beside it keeps its value, and the rest reads 0 (R13, Table Scope-4). -/
theorem regValue_writeReg_rw (who : Requester) (r : Reg) (v : W64) (s : State) (hm : mayAccess who true s = true) (hr : rwMask r ≠ 0) :
    regValue (selOf who (writeReg who (selOf who s) v s r)) (writeReg who (selOf who s) v s r) r =
      (v &&& rwMask r) ||| (regValue (selOf who s) s r &&& roMask r) := by
  have hsel := fun f => selOf_modSel who true f s hm
  rw [writeReg_plain who _ v s r (isW1c_of_rwMask r hr)]
  cases r with
  | cueSel | harnMbrSel | harnDescSel | callSel | outrSel | laneSel | linkSel | swcRtSel | schedSel | fltSel =>
    simp [noteWrite, regWrite, regValue, rwMask, roMask, hsel]
  | outrCtrl | digCtrl | swcMirror | swcMirrorFlow | leaveCtrl | fltCtrl => simp [noteWrite, regWrite, regValue, rwMask, roMask]
  | linkCtrl =>
    change (modLink (selLink (selOf who s)) _ s).link[(selLink (selOf who s)).val].ctrl = _
    simp [rwMask, roMask]
  | swcAdapt =>
    change put (vset s.swc.penalty (selAdapt (selOf who s)) _)[(selAdapt (selOf who s)).val].toNat 16 48 |||
      put s.swc.history[(selAdapt (selOf who s)).val].toNat 21 0 = _
    rw [vset_same, BitVec.toNat_ofNat, put_mod, put_fld v 63 48 16 rfl]
    simp only [rwMask, roMask, regValue]
    rw [BitVec.and_comm (_ ||| _), BitVec.and_or_distrib_left, BitVec.and_comm (ones 20 0), BitVec.and_comm (ones 20 0),
      put_and_ones _ 21 0 20 rfl (by decide), put_and_ones_apart _ 16 48 20 0 (by decide) (by decide)]
    simp
  | rstBackup n =>
    have hv : v &&& ones 63 0 = v := BitVec.and_allOnes
    simp [noteWrite, regWrite, regValue, rwMask, roMask, hv]
  | _ => exact absurd rfl hr

theorem setWidth_w1c {w : Nat} (old : BitVec w) (v : W64) : (w1c old v).setWidth 64 = old.setWidth 64 &&& ~~~v := by
  ext i hi
  by_cases h : i < w
  · simp [w1c, h, hi]
  · simp [w1c, hi, BitVec.getLsbD_of_ge old i (Nat.le_of_not_lt h)]

/-- A one clears its sticky bit where the bit stood at the start of the arena cycle and the cycle has not set it again; no other bit
changes (R13, R14). -/
theorem regValue_writeReg_w1c (who : Requester) (r : Reg) (v : W64) (s : State) (hw : isW1c r = true) (hf : r ≠ .fltFirst) :
    regValue (selOf who (writeReg who (selOf who s) v s r)) (writeReg who (selOf who s) v s r) r =
      regValue (selOf who s) s r &&& ~~~(v &&& cycleWord (selOf who s) s r) := by
  unfold writeReg
  rw [if_pos hw]
  cases r with
  | laneSticky =>
    change ((modLane (selLane (selOf who s)) _ s).lane.lanes[(selLane (selOf who s)).val].sticky).setWidth 64 = _
    simp [regValue, setWidth_w1c]
  | linkSticky =>
    change ((modLink (selLink (selOf who s)) _ s).link[(selLink (selOf who s)).val].sticky).setWidth 64 = _
    simp [regValue, setWidth_w1c]
  | fltFirst => exact absurd rfl hf
  | wdrSticky => simp [takeCycle, regWrite, regValue, w1c]
  | mbxSticky | stgSticky | cueSticky | harnSticky | grmSticky | prjSticky | callSticky | outrSticky | digSticky | swcSticky | leaveSticky
  | boxSticky | rstSticky => simp [takeCycle, regWrite, regValue, setWidth_w1c]
  | rstBackup n => simp [isW1c, cycleRegs] at hw
  | _ => exact absurd hw (by decide)

/-! ### Accesses by row and by command -/

theorem reaches_mayAccess {who : Requester} {r : Reg} {write : Bool} {s : State} (h : reaches who r write s = true) :
    mayAccess who write s = true := by
  simp only [reaches, Bool.and_eq_true] at h
  exact h.1.1

/-- A write that reaches its register: the row's state is that of the register's write. -/
theorem registerWrite_reaches (who : Requester) (r : Reg) (v : W64) (s : State) (P : State → Prop) (h : reaches who r true s = true)
    (hr : r ≠ .prjStatus) (hP : P (writeReg who (selOf who s) v s r)) : Completes (.registerWrite who (regOffset r) v) s P :=
  registerWrite_completes who _ v s P (reaches_mayAccess h) (by rwa [accessWrite_reaches who r v s h hr])

/-- A test that answers nothing has failed, and those after it answer nothing. -/
theorem of_ite_some_eq_none {α : Type} {p : Prop} [Decidable p] {a : α} {x : Option α} (h : (if p then some a else x) = none) :
    ¬ p ∧ x = none := by
  by_cases hp : p
  · rw [if_pos hp] at h; cases h
  · exact ⟨hp, (if_neg hp).symm.trans h⟩

/-- What R440 lets through lies on a register boundary of the window span. -/
theorem accessRefused_offset (c : Cmd) (write : Bool) (h : accessRefused c write = none) :
    offsetOk (arg c 1 8) = true ∧ arg c 1 8 < 0x100_0000 := by
  obtain ⟨-, h⟩ := of_ite_some_eq_none h
  obtain ⟨-, h⟩ := of_ite_some_eq_none h
  obtain ⟨h8, h⟩ := of_ite_some_eq_none h
  obtain ⟨hlt, -⟩ := of_ite_some_eq_none h
  simp only [offsetOk, Bool.and_eq_true, decide_eq_true_eq]
  omega

/-- REG_READ of a command that R440 lets through. -/
theorem regRead_command (id : Nat) (s : State) (c : Cmd) (hc : cmdReady s id 0x0040 = some c) (ha : accessRefused c false = none) :
    exec (.regRead (.command id)) s = .next (endCmd id stOk
      (leBytes 8 (accessRead (.window c.session (Fin.ofNat 3 (arg c 0 1))) (arg c 1 8) s).1.toNat)
      (accessRead (.window c.session (Fin.ofNat 3 (arg c 0 1))) (arg c 1 8) s).2) := by
  change execRegRead (.command id) s = _
  simp [execRegRead, hc, ha]

/-- The fabric lies open to the Prompter's loads (R353, Table Prompter-1). -/
theorem prmAllows_fabric (s : State) (off : Nat) : prmAllows s (0x1000_0000 + off) .load = true := by
  have ha : prmArea (0x1000_0000 + off) = some .fabric := by
    unfold prmArea
    simp only [show ¬ 0x1000_0000 + off < 0x4_0000 by omega, show ¬ 0x1000_0000 + off < 0x120_0000 by omega,
      show ¬ 0x1000_0000 + off < 0x210_0000 by omega, show ¬ 0x1000_0000 + off < 0x300_4000 by omega,
      show ¬ 0x1000_0000 + off < 0x401_0000 by omega, show ¬ 0x1000_0000 + off < 0x500_1000 by omega, and_false, if_false]
    exact if_pos (Nat.le_add_right _ _)
  simp [prmAllows, ha]

/-- A read by the Prompter while it runs (R441). -/
theorem regRead_prompter (off : Nat) (s : State) (h : s.prm.running = true) :
    exec (.regRead (.prompter off)) s =
      .next (emit (.regValue .prompter (accessRead .prompter off s).1) (accessRead .prompter off s).2) := by
  change execRegRead (.prompter off) s = _
  simp [execRegRead, prompterRead, mayAccess, h, prmAllows_fabric]

/-- A command that a read with a violation ends holds the value 0, for the violation touches no command. -/
theorem cmdResult_violated (who : Requester) (kind off id : Nat) (s : State) (c : Cmd) (hc : cmdReady s id 0x0040 = some c) :
    cmdResult (endCmd id stOk (leBytes 8 (0 : W64).toNat) (violate who kind off false s)) id = some (stOk, zeros 8) := by
  obtain ⟨hf, -, -⟩ := cmdReady_spec s id 0x0040 c hc
  exact cmdResult_endCmd _ id c stOk _ hf

/-- Settles O12: a write that gets in is the write of its register, whose word afterwards its fields give; every access that does not
get in is a violation, and so are those that commands and the Prompter make. -/
theorem registerAccessesReachTheirRegister : Obligations.RegisterAccessesReachTheirRegister := by
  refine ⟨?rw, ?w1c, ?first, ?nowhere, ?limited, ?held, ?readPlain, ?readOther, ?prompterPlain, ?prompterNowhere, ?write⟩
  case rw =>
    intro who r v s h hr
    refine registerWrite_reaches who r v s _ h (fun hp => hr (hp ▸ rfl)) ?_
    exact regValue_writeReg_rw who r v s (reaches_mayAccess h) hr
  case w1c =>
    intro who r v s h hw hf
    refine registerWrite_reaches who r v s _ h ?_ (regValue_writeReg_w1c who r v s hw hf)
    rintro rfl
    exact absurd hw (by decide)
  case first =>
    intro who v s h
    refine registerWrite_reaches who .fltFirst v s _ h (by decide) ?_
    simp [writeReg, isW1c, cycleRegs, rcFields, takeCycle, regWrite]
  case nowhere =>
    intro who off v s hm ho hlt hr
    refine registerWrite_completes who off v s _ hm ?_
    rw [accessWrite_nowhere who off v s (by simp [offsetOk, ho, hlt]) hr]
    exact violate_violated who 1 off true s (by decide) hlt
  case limited =>
    intro who r v s hm hl
    refine registerWrite_completes who _ v s _ hm ?_
    rw [accessWrite_limited who r v s hl]
    exact violate_violated who _ _ true s (limitKind_lt who r true) (regOffset_lt r)
  case held =>
    intro who r v s hm hl hb
    refine registerWrite_completes who _ v s _ hm ?_
    rw [accessWrite_held who r v s hl hb]
    exact violate_violated who 3 _ true s (by decide) (regOffset_lt r)
  case readPlain =>
    rintro id s c r w hc ha rfl hoff hl hb hrc hp ho
    refine ⟨_, regRead_command id s c hc ha, ?_⟩
    obtain ⟨hf, -, -⟩ := cmdReady_spec s id 0x0040 c hc
    rw [hoff, accessRead_plain _ r s hl hb hrc hp ho]
    exact ⟨rfl, cmdResult_endCmd s id c stOk _ hf⟩
  case readOther =>
    rintro id s c w hc ha rfl
    obtain ⟨hok, hlt⟩ := accessRefused_offset c false ha
    refine ⟨_, regRead_command id s c hc ha, _, rfl, fun hr => ?_, fun r hr hl => ?_, fun r hr hl hb => ?_⟩
    · rw [accessRead_nowhere _ _ s hok hr]
      exact ⟨violate_violated _ 1 _ false s (by decide) hlt, cmdResult_violated _ 1 _ id s c hc⟩
    · rw [accessRead_limited _ _ r s hok hr hl]
      exact ⟨violate_violated _ _ _ false s (limitKind_lt _ r false) hlt, cmdResult_violated _ _ _ id s c hc⟩
    · rw [accessRead_held _ _ r s hok hr hl hb]
      exact ⟨violate_violated _ 3 _ false s (by decide) hlt, cmdResult_violated _ 3 _ id s c hc⟩
  case prompterPlain =>
    intro r s hr hb hrc hp ho
    refine ⟨_, regRead_prompter _ s hr, ?_⟩
    rw [accessRead_plain .prompter r s rfl hb hrc hp ho]
    rfl
  case prompterNowhere =>
    intro off s hr ho hlt hn
    refine ⟨_, regRead_prompter off s hr, violate .prompter 1 off false s, ?_, violate_violated .prompter 1 off false s (by decide) hlt⟩
    rw [accessRead_nowhere .prompter off s (by simp [offsetOk, ho, hlt]) hn]
  case write =>
    rintro id s c w hc ha rfl hm
    refine ⟨endCmd id stOk [] _, ?_, accessWrite _ _ _ s, congrArg Host.Outcome.next (if_pos hm), rfl, fun hf => ?_⟩
    · change execRegWrite id s = _
      simp [execRegWrite, hc, ha]
    · obtain ⟨d, hd⟩ := Option.isSome_iff_exists.1 hf
      exact cmdResult_endCmd _ id d stOk [] hd

end Sys2Proof.Machine
end

section
/-! ## Reads that clear

What a read of MBX_VIOL takes from the arena cycle's reading is COUNT alone: LAST is no field that a read clears (R446), and a later
access of the same cycle still reads it as it stood. The statement has the whole reading taken. -/

namespace Sys2Proof.Machine

/-- A read of MBX_VIOL takes of the arena cycle's reading the bits of COUNT. -/
theorem readRow_mbxViol_cyc (who : Requester) (s : State) (h : reaches who .mbxViol false s = true) :
    (readRow .mbxViol who s).cyc = s.cyc.map (fun x => if x.1 = .mbxViol ∧ x.2.1 = 0 then (x.1, x.2.1, x.2.2 &&& ~~~ones 63 32) else x) := by
  rw [readRow_reaches who .mbxViol s h (by decide) rfl]
  rfl

/-- The Prompter runs, and an arena cycle has started with one violation counted and recorded: kind 1, a read through WINDOW 0 at offset
8 of block 0. -/
def violationSeen : State :=
  { prm := { running := true }, flt := { violCount := 1, violLast := 0x2000_0008 }, cyc := [(.mbxViol, 0, 0x0000_0001_2000_0008)] }

/-- Refutes O13: where the arena cycle has started with a violation recorded, a read of MBX_VIOL leaves LAST in the cycle's reading. -/
theorem not_readsThatClear : ¬ Obligations.ReadsThatClear := by
  rintro ⟨-, -, -, -, -, -, -, -, -, -, -, hviol⟩
  have hreach : reaches .prompter .mbxViol false violationSeen = true := by decide
  obtain ⟨t, hexec, ht⟩ := hviol .prompter violationSeen hreach
  have hrow : t = readRow .mbxViol .prompter violationSeen := by
    injection hexec.symm.trans (show exec (.mbxViol .prompter) violationSeen = .next (readRow .mbxViol .prompter violationSeen) from rfl)
  have hcyc := congrArg State.cyc (hrow.symm.trans ht)
  rw [readRow_mbxViol_cyc .prompter violationSeen hreach] at hcyc
  revert hcyc
  decide

end Sys2Proof.Machine
end

section
/-! ## The harness, the plan, the Groom engine, the projection path and the fault collector under the shared operations

Host events, frames that units originate and the end of cue instances leave these parts of the state as they stand. -/

namespace Sys2Proof.Machine

/-- Two states with the same harness, topology, Groom engine, projection path and fault collector. -/
abbrev UnitsAlike (t s : State) : Prop :=
  t.harn = s.harn ∧ t.topo = s.topo ∧ t.grm = s.grm ∧ t.prj = s.prj ∧ t.flt = s.flt

theorem UnitsAlike.trans {r s t : State} (hrs : UnitsAlike r s) (hst : UnitsAlike s t) : UnitsAlike r t := by
  simp_all [UnitsAlike]

/-- A fold of operations that each keep these units keeps them. -/
@[simp] theorem foldl_units {α : Type} (g : State → α → State) (l : List α) (s : State) (h : ∀ s x, UnitsAlike (g s x) s) :
    UnitsAlike (l.foldl g s) s := by
  induction l generalizing s with
  | nil => exact ⟨rfl, rfl, rfl, rfl, rfl⟩
  | cons x l ih => exact (ih (g s x)).trans (h s x)

/-! ### Host events -/

@[simp] theorem eventTo_units (k : Nat) (b : List Byte) (s : State) (sid : BitVec 32) : UnitsAlike (eventTo k b s sid) s := by
  unfold eventTo sendEvent; (repeat' split) <;> simp [UnitsAlike, modSession]

@[simp] theorem hostEvent_units (k : Nat) (b : List Byte) (s : State) : UnitsAlike (hostEvent k b s) s :=
  foldl_units _ _ s (eventTo_units k b)

@[simp] theorem cueEvent_units (n c : Nat) (s : State) : UnitsAlike (cueEvent n c s) s := by
  unfold cueEvent; split <;> simp [UnitsAlike]

/-! ### The switch core -/

@[simp] theorem modBuf_units (id : Nat) (f : Buf → Buf) (s : State) : UnitsAlike (modBuf id f s) s := by
  unfold modBuf settleLocalRes releaseHold freeCells; dsimp only; (repeat' split) <;> simp [UnitsAlike]

@[simp] theorem copyLeaves_units (id : Nat) (s : State) : UnitsAlike (copyLeaves id s) s := modBuf_units id _ s

@[simp] theorem resolve_units (a p : Option Port) (pk : Packet) (s : State) : UnitsAlike (resolve a p pk s).2 s := by
  unfold resolve routeEntryTo sprayTo swcSticky noteSpray; dsimp only; (repeat' split) <;> simp [UnitsAlike]

@[simp] theorem placeFrame_units (b : Nat) (i : SwPort) (a p : Option Port) (pk : Packet) (s : State) :
    UnitsAlike (placeFrame b i a p pk s) s := by
  unfold placeFrame; dsimp only; split <;> simp [UnitsAlike]

@[simp] theorem launchMember_units (b : Nat) (i : SwPort) (pk : Packet) (s : State) (p : Port) :
    UnitsAlike (launchMember b i pk s p) s := by
  unfold launchMember swcSticky; dsimp only; (repeat' split) <;> simp [UnitsAlike]

@[simp] theorem launchCopy_units (b : Nat) (i : SwPort) (pk : Packet) (s : State) (p : Port) :
    UnitsAlike (launchCopy b i pk s p) s := by
  unfold launchCopy; (repeat' split) <;> simp [UnitsAlike]

@[simp] theorem enterLocal_units (w : LocalWait) (s : State) : UnitsAlike (enterLocal w s) s := by
  unfold enterLocal; dsimp only; split <;> simp [UnitsAlike, newBuf]

@[simp] theorem originate_units (i : SwPort) (pk : Packet) (l : List Port) (s : State) : UnitsAlike (originate i pk l s) s := by
  unfold originate originateAll; (repeat' split) <;> simp [UnitsAlike]

@[simp] theorem sendOn_units (i : SwPort) (p : Port) (pk : Packet) (s : State) : UnitsAlike (sendOn i p pk s) s := by
  unfold sendOn sendAgain; (repeat' split) <;> simp [UnitsAlike]

/-! ### The end of instances and steps -/

@[simp] theorem modInst_units (n c : Nat) (f : Inst → Inst) (s : State) : UnitsAlike (modInst n c f s) s := ⟨rfl, rfl, rfl, rfl, rfl⟩

@[simp] theorem modMember_units (co : BitVec 10) (m : Nat) (f : MemberCount → MemberCount) (s : State) :
    UnitsAlike (modMember co m f s) s := ⟨rfl, rfl, rfl, rfl, rfl⟩

@[simp] theorem failInsts_units (p : Inst → Bool) (s : State) : UnitsAlike (failInsts p s) s := by
  unfold failInsts modRun
  refine foldl_units _ _ _ fun s x => ?_
  split <;> simp [UnitsAlike]

@[simp] theorem sendDown_units (n c : Nat) (w : CueWord) (l : List (BitVec 48)) (s : State) : UnitsAlike (sendDown n c w l s) s := by
  unfold sendDown
  dsimp only
  split <;> exact foldl_units _ _ (modCtx n c _ s) (fun s m => by split <;> simp [UnitsAlike])

@[simp] theorem tryComplete_units (n c : Nat) (s : State) : UnitsAlike (tryComplete n c s) s := by
  unfold tryComplete noteFlags callFlags modCtx; dsimp only; (repeat' split) <;> simp [UnitsAlike]

@[simp] theorem arriveOwn_units (n c : Nat) (s : State) : UnitsAlike (arriveOwn n c s) s := by
  unfold arriveOwn storeOperand noteFirst modCtx; (repeat' split) <;> simp [UnitsAlike]

@[simp] theorem clearMisses_units (h : Nat) (s : State) : UnitsAlike (clearMisses h s) s := by
  unfold clearMisses
  split
  · refine foldl_units _ _ _ fun s m => ?_
    split <;> simp [UnitsAlike]
  · simp [UnitsAlike]

@[simp] theorem finishInst_units (n c : Nat) (s : State) : UnitsAlike (finishInst n c s) s := by
  unfold finishInst; dsimp only; (repeat' split) <;> simp [UnitsAlike]

@[simp] theorem endStep_units (n : Nat) (s : State) : UnitsAlike (endStep n s) s := by
  unfold endStep modOpen modRun; (repeat' split) <;> simp [UnitsAlike]

@[simp] theorem settle_units (s : State) : UnitsAlike (settle s) s := by
  refine foldl_units _ _ s fun s n => ?_
  simp [UnitsAlike]

end Sys2Proof.Machine
end

section
/-! ## What a raised source leaves in the Groom engine, and what it leaves in its own status (R404, R410, Table Faults-3)

A source that fences nothing and restarts nothing has no reaction of its own unit: it interrupts, stops ALIVE or brings a warm reset. -/

namespace Sys2Proof.Machine

/-- The sources whose reactions reach a unit of their own: a Team engine, an array, or the Prompter. -/
def unitSources : List SrcId := [srcTeam, srcArray, srcPrompterEcc, srcFwFatal]

theorem fenceUnit_other (i : SrcId) (x : Nat) (s : State) (h : i ∉ unitSources) : fenceUnit i x s = s := by
  simp only [unitSources, List.mem_cons, not_or] at h
  obtain ⟨ht, ha, -⟩ := h
  rw [fenceUnit, if_neg ht, if_neg ha]

/-- What the reaction of any other source can be (Table Faults-3). -/
theorem react_cases (warm : Bool) (r : Raise) (c : Nat) (s : State) (h : r.src ∉ unitSources) :
    react warm r c s = s ∨ react warm r c s = interrupt r.src s ∨
    react warm r c s = emit (.nmi r.src) { s with flt := { s.flt with nmiAt := some (s.flt.nmiAt.getD s.time) } } ∨
    react warm r c s = stopAlive r.src s ∨ (c = 5 ∧ react warm r c s = assertWarm 6 (holdAlive r.src (dropStops s))) := by
  have hf := fenceUnit_other r.src r.index.toNat s h
  simp only [unitSources, List.mem_cons, not_or] at h
  obtain ⟨ht, ha, hp, hw, -⟩ := h
  unfold react
  dsimp only
  split
  case h_1 => exact .inr (.inl rfl)
  case h_2 => exact .inr (.inr (.inl rfl))
  case h_3 => rw [hf]; exact .inr (.inl rfl)
  case h_4 => rw [if_neg (by simp [hp, hw]), if_pos ⟨ht, ha⟩]; exact .inl rfl
  case h_5 => exact .inr (.inr (.inr (.inr ⟨rfl, rfl⟩)))
  case h_6 => cases warm <;> simp
  case h_7 => exact .inl rfl

/-! ### The Groom engine -/

@[simp] theorem checkAlive_grm (s : State) : (checkAlive s).grm = s.grm := by
  unfold checkAlive; (repeat' split) <;> simp

@[simp] theorem checkAlive_flt (s : State) : (checkAlive s).flt = s.flt := by
  unfold checkAlive; (repeat' split) <;> simp

@[simp] theorem beginRecovery_grm (s : State) : (beginRecovery s).grm = s.grm := by
  unfold beginRecovery; (repeat' split) <;> simp

@[simp] theorem beginRecovery_flt (s : State) : (beginRecovery s).flt = s.flt := by
  unfold beginRecovery; (repeat' split) <;> simp

@[simp] theorem stopAlive_grm (i : SrcId) (s : State) : (stopAlive i s).grm = s.grm := by
  simp [stopAlive, interrupt, holdAlive, modSource]

/-- A reset of a reach leaves the Groom engine alone or at its reset values. -/
theorem takeReach_grm (r : Reach) (s : State) : (takeReach r s).grm = s.grm ∨ (takeReach r s).grm = {} := by
  have cut (b : Bool) (s : State) : (cutOption b s).grm = s.grm := by cases b <;> rfl
  unfold takeReach
  rw [cut]
  cases r with
  | block => exact .inl rfl
  | warm | cold | power => exact .inr rfl

theorem assertWarm_grm (b : Fin 7) (s : State) : (assertWarm b s).grm = s.grm ∨ (assertWarm b s).grm = {} := by
  have timer (s : State) : (startTimer b s).grm = s.grm := by unfold startTimer; (repeat' split) <;> rfl
  unfold assertWarm
  dsimp only
  (repeat' split)
  · rw [timer]; exact takeReach_grm _ _
  · rw [timer]; exact takeReach_grm _ _
  · exact .inl (checkAlive_grm _)

theorem react_grm (warm : Bool) (r : Raise) (c : Nat) (s : State) (h : r.src ∉ unitSources) :
    (react warm r c s).grm = s.grm ∨ (c = 5 ∧ (react warm r c s).grm = {}) := by
  obtain he | he | he | he | ⟨hc, he⟩ := react_cases warm r c s h
  · simp [he]
  · simp [he, interrupt]
  · simp [he]
  · simp [he]
  · rw [he]
    have held : (holdAlive r.src (dropStops s)).grm = s.grm := checkAlive_grm _
    exact (assertWarm_grm 6 _).imp (·.trans held) (⟨hc, ·⟩)

/-! ### Raising -/

@[simp] theorem queueLog_grm (t : Nat) (i : SrcId) (c x : Nat) (w a : W64) (s : State) : (queueLog t i c x w a s).grm = s.grm := by
  unfold queueLog; dsimp only; split <;> rfl

@[simp] theorem queueLog_sources (t : Nat) (i : SrcId) (c x : Nat) (w a : W64) (s : State) :
    (queueLog t i c x w a s).flt.sources = s.flt.sources := by
  unfold queueLog; dsimp only; split <;> rfl

@[simp] theorem latchFirst_grm (i : SrcId) (w : W64) (s : State) : (latchFirst i w s).grm = s.grm := by
  unfold latchFirst; dsimp only; split <;> rfl

@[simp] theorem latchFirst_sources (i : SrcId) (w : W64) (s : State) : (latchFirst i w s).flt.sources = s.flt.sources := by
  unfold latchFirst; dsimp only; split <;> rfl

@[simp] theorem countRaise_grm (t : Nat) (r : Raise) (c : Nat) (s : State) : (countRaise t r c s).1.grm = s.grm := by
  unfold countRaise; dsimp only; split <;> simp [modSource]

/-- A raise of a source that is no level source leaves it ACTIVE (R404). -/
theorem countRaise_active (t : Nat) (r : Raise) (c : Nat) (s : State) (h : isLevel r.src = false) :
    ((countRaise t r c s).1.flt.sources[r.src.val]).st = .active := by
  unfold countRaise
  rw [if_neg (by simp [h])]
  simp [modSource]

@[simp] theorem faultEvent_units (r : Raise) (c : Nat) (q : W64) (s : State) : UnitsAlike (faultEvent r c q s) s := by
  unfold faultEvent; split <;> simp [UnitsAlike]

theorem codeFor_other (r : Raise) (c : Nat) (s : State) (h : r.src ∉ unitSources) : codeFor r c s = c := by
  simp only [unitSources, List.mem_cons, not_or] at h
  obtain ⟨ht, ha, -⟩ := h
  simp [codeFor, fenceRefused, ht, ha]

/-- A raised source leaves the Groom engine alone, but for the reset that a WARM reaction can bring at once. -/
theorem raise_grm (r : Raise) (s : State) (h : r.src ∉ unitSources) :
    (raise r s).grm = s.grm ∨ (reactOf s r.src = 5 ∧ (raise r s).grm = {}) := by
  unfold raise raiseAs
  rw [codeFor_other r _ s h]
  dsimp only
  split
  · exact .inl rfl
  · split
    · refine (react_grm _ r _ _ h).imp_left (·.trans ?_)
      split <;> simp
    · left
      split <;> simp

/-- The reaction of such a source, if not WARM, does not change the source's status. -/
theorem react_status (warm : Bool) (r : Raise) (c : Nat) (s : State) (h : r.src ∉ unitSources) (hc : c ≠ 5) :
    ((react warm r c s).flt.sources[r.src.val]).st = (s.flt.sources[r.src.val]).st := by
  obtain he | he | he | he | ⟨h5, -⟩ := react_cases warm r c s h
  · rw [he]
  · rw [he]; rfl
  · rw [he]; rfl
  · rw [he]; simp [stopAlive, interrupt, holdAlive, modSource]
  · exact absurd h5 hc

/-- A raised source that is no level source is ACTIVE after its raise, whatever its reaction but for WARM. -/
theorem raise_active (r : Raise) (s : State) (h : r.src ∉ unitSources) (hl : isLevel r.src = false) (hb : r.src ≠ srcHeartbeat)
    (hc : reactOf s r.src ≠ 5) : ((raise r s).flt.sources[r.src.val]).st = .active := by
  have hnl : ¬((s.flt.sources[r.src.val]).st = .active ∧ isLevel r.src = true) := by simp [hl]
  have hact := countRaise_active 0x01 r (reactOf s r.src) s hl
  unfold raise raiseAs
  rw [codeFor_other r _ s h, if_neg hb]
  dsimp only
  rw [if_neg hnl]
  split
  · rw [react_status _ r _ _ h hc]; simpa using hact
  · simpa using hact

end Sys2Proof.Machine
end

section
/-! ## Multicasts and the compare buffer (R25, R84, R147, R152, R282) -/

namespace Sys2Proof.Machine

/-! ### The job that is sent, and its packet -/

/-- The job that is sent next for a segment is a job of the segment that may be sent. -/
theorem unsentJob_spec (s : State) (h g : Nat) (j : Job) (hj : unsentJob s h g = some j) :
    j.head = h ∧ j.seg = g ∧ mcastDue s j = true := by
  have hp := List.find?_some hj
  simp only [Bool.and_eq_true, decide_eq_true_eq] at hp
  obtain ⟨⟨⟨hh, hg⟩, hdue⟩, -⟩ := hp
  exact ⟨hh, hg, hdue⟩

/-- A frame that goes to a port has a copy to make. -/
theorem copiesOf_ne_zero (w : LocalWait) (h : w.ports ≠ []) : copiesOf w ≠ 0 := by
  have := List.length_pos_iff.2 h
  unfold copiesOf
  omega

/-- Outside an understudy a job with copies to make may be sent only with credit for all of them (R25). -/
theorem mcastDue_localReady (s : State) (j : Job) (sh : SheetHead) (hs : sheetHead s j.head = some sh)
    (hr : shardRole s sh.hid ≠ roleUnderstudy) (hp : (mcastWait j.head sh (jobPacket s sh (castDst s j.cue) j) s).ports ≠ [])
    (hdue : mcastDue s j = true) :
    localReady s (pkCells (mcastWait j.head sh (jobPacket s sh (castDst s j.cue) j) s).packet) = true := by
  have hc := copiesOf_ne_zero _ hp
  simp only [mcastDue, hs, hr, hc, decide_false, Bool.false_or, Bool.and_eq_true] at hdue
  exact hdue.2

theorem pSeg_mcastPacket (hid : BitVec 16) (fmt : Nat) (bcast : Bool) (step : BitVec 32) (seg count : Nat) (d n codes : List Byte)
    (dest src : BitVec 16) : pSeg (mcastPacket hid fmt bcast step seg count d n codes dest src) = seg % 2 ^ 24 := by
  simp only [pSeg, leAt, mcastPacket, segHeader, leBytes, List.cons_append, List.nil_append, List.drop_succ_cons, List.drop_zero,
    List.take_succ_cons, List.take_zero, leVal, BitVec.toNat_ofNat]
  omega

/-- The cast of a job is sent: the job keeps the buffers of its copies (R26). -/
def sentJob (h g : Nat) (j : Job) (bufs : List Nat) (s : State) : State :=
  modJob h g j.step j.bcast j.band (fun y => { y with sent := true, bufs := y.bufs ++ bufs }) s

section

variable (head : Fin 4096) (seg : BitVec 24) (s : State) (sh : SheetHead) (j : Job) (hs : sheetHead s head.val = some sh)
  (hj : unsentJob s head.val seg.toNat = some j)

include hs hj

theorem execMulticast_understudy (hr : shardRole s sh.hid = roleUnderstudy) :
    execMulticast head seg s = .next (endJob j (compareEntry sh.hid (BitVec.ofNat 32 j.step) seg.toNat true
      (compareBytes (jobPacket s sh (castDst s j.cue) j)) (sentJob head.val seg.toNat j [] s))) := by
  simp only [execMulticast, sentJob, hs, hj, hr, if_true]

theorem execMulticast_sent (hr : shardRole s sh.hid ≠ roleUnderstudy)
    (hp : (mcastWait head.val sh (jobPacket s sh (castDst s j.cue) j) s).ports ≠ []) :
    execMulticast head seg s = .next (endJob j (enterLocal (mcastWait head.val sh (jobPacket s sh (castDst s j.cue) j) s)
      (sentJob head.val seg.toNat j [s.swc.nextBuf] s))) := by
  have hc := copiesOf_ne_zero _ hp
  simp only [execMulticast, sentJob, hs, hj, hr, hc, if_false]

end

theorem multicast_sent (head : Fin 4096) (seg : BitVec 24) (s : State) (sh : SheetHead) (j : Job) (w : LocalWait)
    (hs : sheetHead s head.val = some sh) (hj : unsentJob s head.val seg.toNat = some j) (hr : shardRole s sh.hid ≠ roleUnderstudy)
    (hw : w = mcastWait head.val sh (jobPacket s sh (castDst s j.cue) j) s) (hp : w.ports ≠ []) :
    Completes (.multicast head seg) s (fun t =>
      (localReady s (pkCells w.packet) = true → t = endJob j (enterLocal w
        (modJob head.val seg.toNat j.step j.bcast j.band (fun y => { y with sent := true, bufs := y.bufs ++ [s.swc.nextBuf] }) s))) ∧
      (localReady s (pkCells w.packet) = false → t = s) ∧
      w.ports = group s head.val ∧ w.packet.kind = kMcast ∧ pSeg w.packet = seg.toNat) := by
  subst hw
  obtain ⟨hhead, hseg, hdue⟩ := unsentJob_spec s _ _ j hj
  have hready := mcastDue_localReady s j sh (hhead ▸ hs) hr (hhead ▸ hp) hdue
  rw [hhead] at hready
  refine ⟨_, execMulticast_sent head seg s sh j hs hj hr hp, fun _ => rfl, fun hn => absurd hready (by simp [hn]), rfl, rfl, ?_⟩
  refine (pSeg_mcastPacket ..).trans ?_
  rw [hseg]
  exact Nat.mod_eq_of_lt seg.isLt

/-! ### The compare buffer -/

/-- GRM_MISMATCH latches the first mismatch since the sticky bit was clear (R152). -/
def recordMismatch (hid : BitVec 16) (step : BitVec 32) (seg : Nat) (s : State) : State :=
  if s.grm.sticky.getLsbD 8 then s
  else { s with grm := { s.grm with mismatch := put hid.toNat 16 48 ||| put seg 24 24 ||| put step.toNat 24 0 } }

/-- Two entries of one segment differ: the record of it, the sticky bit, and DIVERGED in the shard's record (R152). -/
def noteMismatch (hid : BitVec 16) (step : BitVec 32) (seg : Nat) (s : State) : State :=
  modShard hid (fun r => { r with diverged := true }) (grmSticky 8 (recordMismatch hid step seg s))

/-- After that MIRROR is raised and the host is told (R152). -/
def tellMismatch (hid : BitVec 16) (step : BitVec 32) (seg : Nat) (s : State) : State :=
  let s := raise { src := srcMirror, sticky := s.grm.sticky.setWidth 64 } s
  hostEvent 0x06 (leBytes 2 hid.toNat ++ leBytes 3 seg ++ zeros 3 ++ leBytes 8 (stepNear s hid step)) s

/-- An entry that meets none waits in the buffer. -/
theorem compareEntry_unmet (hid : BitVec 16) (step : BitVec 32) (seg : Nat) (own : Bool) (bytes : List Byte) (s : State)
    (h : meets s hid step seg own = false) :
    compareEntry hid step seg own bytes s = { s with grm := { s.grm with compare := s.grm.compare ++ [⟨hid, step, seg, own, bytes⟩] } } := by
  have hn := List.find?_eq_none.2 (List.any_eq_false.1 h)
  simp only [compareEntry, hn]

/-- An entry that meets the one in the buffer frees it; other bits mark the shard. -/
theorem compareEntry_met (hid : BitVec 16) (step : BitVec 32) (seg : Nat) (own : Bool) (bytes : List Byte) (s : State) (c : Compare)
    (hc : s.grm.compare = [c]) (h : meets s hid step seg own = true) :
    compareEntry hid step seg own bytes s =
      if c.bytes = bytes then { s with grm := { s.grm with compare := [] } }
      else tellMismatch hid step seg (noteMismatch hid step seg { s with grm := { s.grm with compare := [] } }) := by
  have hit : (c.hid == hid && c.step == step && decide (c.seg = seg) && (c.own != own)) = true := by
    simpa only [meets, hc, List.any_cons, List.any_nil, Bool.or_false] using h
  simp only [compareEntry, hc, List.find?_cons, hit, dropFirst, if_true]
  rfl

@[simp] theorem modShard_units (hid : BitVec 16) (f : Shard → Shard) (s : State) : UnitsAlike (modShard hid f s) s := by
  unfold modShard writeShard; split <;> simp [UnitsAlike]

@[simp] theorem recordMismatch_keeps (hid : BitVec 16) (step : BitVec 32) (seg : Nat) (s : State) :
    (recordMismatch hid step seg s).grm.compare = s.grm.compare ∧ (recordMismatch hid step seg s).flt = s.flt := by
  unfold recordMismatch; split <;> simp

theorem noteMismatch_grm (hid : BitVec 16) (step : BitVec 32) (seg : Nat) (s : State) :
    (noteMismatch hid step seg s).grm.compare = s.grm.compare ∧ (noteMismatch hid step seg s).grm.sticky.getLsbD 8 = true := by
  simp [noteMismatch, grmSticky]

theorem noteMismatch_flt (hid : BitVec 16) (step : BitVec 32) (seg : Nat) (s : State) : (noteMismatch hid step seg s).flt = s.flt := by
  simp [noteMismatch, grmSticky]

/-- MIRROR is no level source, and its reactions reach no unit of its own; a compare buffer that is empty stays so, also where the reaction
is WARM. -/
theorem tellMismatch_spec (hid : BitVec 16) (step : BitVec 32) (seg : Nat) (s : State) :
    (s.grm.compare = [] → (tellMismatch hid step seg s).grm.compare = []) ∧
    (reactOf s srcMirror ≠ 5 → (tellMismatch hid step seg s).grm = s.grm ∧
      ((tellMismatch hid step seg s).flt.sources[srcMirror.val]).st = .active) := by
  have hsrc : srcMirror ∉ unitSources := by decide
  have hgrm := raise_grm { src := srcMirror, sticky := s.grm.sticky.setWidth 64 } s hsrc
  simp only [tellMismatch, hostEvent_units]
  refine ⟨fun he => ?_, fun hr => ⟨hgrm.resolve_right fun h => hr h.1, ?_⟩⟩
  · obtain h | ⟨-, h⟩ := hgrm
    · rw [h, he]
    · rw [h]
  · exact raise_active { src := srcMirror, sticky := s.grm.sticky.setWidth 64 } s hsrc rfl (by decide : srcMirror ≠ srcHeartbeat) hr

/-- The three ends of an entry: it waits, it frees the one that it meets, or their bits differ. -/
theorem compareEntry_spec (hid : BitVec 16) (step : BitVec 32) (seg : Nat) (own : Bool) (bytes : List Byte) (s : State) :
    (meets s hid step seg own = false →
      (compareEntry hid step seg own bytes s).grm.compare = s.grm.compare ++ [⟨hid, step, seg, own, bytes⟩]) ∧
    (∀ c, s.grm.compare = [c] → meets s hid step seg own = true → (compareEntry hid step seg own bytes s).grm.compare = [] ∧
      (c.bytes = bytes → (compareEntry hid step seg own bytes s).grm.sticky = s.grm.sticky ∧
        (compareEntry hid step seg own bytes s).dram = s.dram) ∧
      (c.bytes ≠ bytes → reactOf s srcMirror ≠ 5 → (compareEntry hid step seg own bytes s).grm.sticky.getLsbD 8 = true ∧
        ((compareEntry hid step seg own bytes s).flt.sources[srcMirror.val]).st = .active)) := by
  refine ⟨fun hm => by rw [compareEntry_unmet _ _ _ _ _ _ hm], fun c hc hm => ?_⟩
  rw [compareEntry_met _ _ _ _ _ _ c hc hm]
  by_cases hb : c.bytes = bytes
  · rw [if_pos hb]
    exact ⟨rfl, fun _ => ⟨rfl, rfl⟩, fun h => absurd hb h⟩
  · rw [if_neg hb]
    generalize hv : ({ s with grm := { s.grm with compare := [] } } : State) = v
    obtain ⟨hcomp, hsticky⟩ := noteMismatch_grm hid step seg v
    obtain ⟨hempty, hactive⟩ := tellMismatch_spec hid step seg (noteMismatch hid step seg v)
    have hreact : reactOf (noteMismatch hid step seg v) srcMirror = reactOf s srcMirror := by
      unfold reactOf; rw [noteMismatch_flt, ← hv]
    refine ⟨hempty (hcomp.trans (by rw [← hv])), fun h => absurd h hb, fun _ hr => ?_⟩
    obtain ⟨hgrm, hst⟩ := hactive (hreact ▸ hr)
    exact ⟨by rw [hgrm]; exact hsticky, hst⟩

/-- Ending a job touches the harness alone, and what the end of its instances touches. -/
@[simp] theorem endJob_groom (j : Job) (s : State) : (endJob j s).grm = s.grm ∧ (endJob j s).flt = s.flt := by
  unfold endJob endJobs; split <;> simp

theorem multicast_compared (head : Fin 4096) (seg : BitVec 24) (s : State) (sh : SheetHead) (j : Job) (own : Compare)
    (hs : sheetHead s head.val = some sh) (hj : unsentJob s head.val seg.toNat = some j) (hr : shardRole s sh.hid = roleUnderstudy)
    (ho : own = ⟨sh.hid, BitVec.ofNat 32 j.step, seg.toNat, true, compareBytes (jobPacket s sh (castDst s j.cue) j)⟩) :
    Completes (.multicast head seg) s (fun t =>
      (meets s sh.hid own.step own.seg true = false → t.grm.compare = s.grm.compare ++ [own]) ∧
      (∀ c, s.grm.compare = [c] → meets s sh.hid own.step own.seg true = true → t.grm.compare = [] ∧
        (c.bytes = own.bytes → t.grm.sticky = s.grm.sticky ∧ t.dram = s.dram) ∧
        (c.bytes ≠ own.bytes → reactOf s srcMirror ≠ 5 → t.grm.sticky.getLsbD 8 = true ∧ (t.flt.sources[srcMirror.val]).st = .active))) := by
  subst ho
  refine ⟨_, execMulticast_understudy head seg s sh j hs hj hr, ?_⟩
  simp only [endJob_groom, endJob_frame]
  exact compareEntry_spec _ _ _ _ _ (sentJob head.val seg.toNat j [] s)

end Sys2Proof.Machine
end

section
/-! ## MCAST (R84, R85, R152, R165, R282) -/

namespace Sys2Proof.Machine

/-! ### What the group and the source address of a multicast rest on -/

theorem group_congr (s t : State) (h : Nat) (hsheet : t.cue.sheet = s.cue.sheet) (hlost : lostSlots t h = lostSlots s h) :
    group t h = group s h := by
  simp only [group, sheetHead, hsheet, hlost]

theorem srcAddr_congr (s t : State) (htopo : t.topo = s.topo) (hfuses : t.fuses = s.fuses) : srcAddr t = srcAddr s := by
  simp only [srcAddr, ownNumber, htopo, hfuses]

theorem isUpper_congr (s t : State) (hid : BitVec 16) (hsheet : t.cue.sheet = s.cue.sheet) : isUpper t hid = isUpper s hid := by
  simp only [isUpper, hsheet]

/-- A change of a head that keeps its lost slots keeps those of every head. -/
theorem lostSlots_modHead (k h : Nat) (f : Head → Head) (s : State) (hf : ∀ x, (f x).lost = x.lost) :
    lostSlots (modHead k f s) h = lostSlots s h := by
  unfold lostSlots modHead
  simp only [List.getElem?_modify]
  cases s.harn.heads[h]? with
  | none => rfl
  | some x => by_cases hk : k = h <;> simp [hk, hf]

/-! ### Next scales -/

/-- Counting blocks out of range touches the step's record, the Outrider's sticky bits and the host's events. -/
@[simp] theorem countHead_units (n h o v : Nat) (l : Bool) (s : State) : UnitsAlike (countHead n h o v l s) s := by
  unfold countHead modHStep modOpen modRun outrSticky; dsimp only; (repeat' split) <;> simp [UnitsAlike]

@[simp] theorem countHead_sheet (n h o v : Nat) (l : Bool) (s : State) : (countHead n h o v l s).cue.sheet = s.cue.sheet := by
  unfold countHead modHStep modOpen modRun outrSticky; dsimp only; (repeat' split) <;> simp

/-- The SCALES bytes that the next scales of an MCAST give. -/
def nextScaleBytes (pk : Packet) (blocks : Nat) : List Byte :=
  (List.range blocks).map (fun b => BitVec.ofNat 8 (twos 6 (scaleExp (byteAt pk.bytes (16 + b)))))

@[simp] theorem lostSlots_countHead (n h o v k : Nat) (l : Bool) (s : State) : lostSlots (countHead n h o v l s) k = lostSlots s k := by
  simp only [lostSlots, countHead_units]

/-- A SCALES entry is written to memory and to the scale window (R85). -/
theorem writeScales_some (h g n : Nat) (es : List Int) (s : State) (hd : Head) (hh : s.harn.heads[h]? = some hd) :
    writeScales h g n es s = modHead h (fun x => { x with window := x.window.map (fun e => if e.1 = g then (g, packExps (es.take n)) else e) })
      { s with dram := memWrite s.dram (scaleAddr hd g 0) ((es.take n).map (fun e => BitVec.ofNat 8 (twos 6 e))) } := by
  simp only [writeScales, hh]

/-- Taking in next scales leaves the sheet, the plan and the lost slots of the head. -/
theorem takeScales_keeps (h g : Nat) (sh : SheetHead) (pk : Packet) (s : State) :
    (takeScales h g sh pk s).cue.sheet = s.cue.sheet ∧ (takeScales h g sh pk s).topo = s.topo ∧
    lostSlots (takeScales h g sh pk s) h = lostSlots s h := by
  unfold takeScales
  cases hh : s.harn.heads[h]? with
  | none => exact ⟨rfl, rfl, rfl⟩
  | some hd =>
    simp only [writeScales_some _ _ _ _ _ hd hh]
    refine ⟨?_, ?_, ?_⟩
    · (repeat' split) <;> simp [modHead]
    · (repeat' split) <;> simp [modHead]
    · (repeat' split) <;> simp [lostSlots_modHead] <;> rfl

/-- Of memory it writes nothing where the head has no scales (R84). -/
theorem takeScales_dram_unscaled (h g : Nat) (sh : SheetHead) (pk : Packet) (s : State)
    (hs : headScaled sh = false ∨ s.harn.heads[h]? = none) : (takeScales h g sh pk s).dram = s.dram := by
  unfold takeScales
  cases hh : s.harn.heads[h]? with
  | none => rfl
  | some hd =>
    have hs : headScaled sh = false := hs.resolve_right (by simp [hh])
    simp only [hs, Bool.false_eq_true, false_and, if_false]
    (repeat' split) <;> rfl

/-- Of a scaled head it writes the segment's SCALES entry (R84, R85). -/
theorem takeScales_dram (h g : Nat) (sh : SheetHead) (pk : Packet) (s : State) (hd : Head) (hh : s.harn.heads[h]? = some hd)
    (hs : headScaled sh = true) :
    (takeScales h g sh pk s).dram = memWrite s.dram (scaleAddr hd g 0) (nextScaleBytes pk ((segLen sh g + 63) / 64)) := by
  have bytes (n : Nat) : ((((List.range n).map (fun b => byteAt pk.bytes (16 + b))).map scaleExp).take n).map
      (fun e => BitVec.ofNat 8 (twos 6 e)) = nextScaleBytes pk n := by
    rw [List.take_of_length_le (by simp)]
    simp [nextScaleBytes]
  simp only [takeScales, hh, hs, if_true, true_and, writeScales_some _ _ _ _ _ hd hh, bytes]
  (repeat' split) <;> simp

/-- The bytes written are those of the blocks' scale fields. -/
theorem memByte_nextScaleBytes (m : Mem) (a : Nat) (pk : Packet) (n b : Nat) (hm : Memory.wf m = true) (hb : b < n) :
    memByte (memWrite m a (nextScaleBytes pk n)) (a + b) = BitVec.ofNat 8 (twos 6 (scaleExp (byteAt pk.bytes (16 + b)))) := by
  rw [memByte_memWrite_inside _ m a b hm (by simpa [nextScaleBytes] using hb)]
  simp [nextScaleBytes]

/-! ### S of an upper head -/

/-- A segment of S is kept in the projection path, whose sticky bits may tell of its format (R165, R171). -/
theorem takeUpper_keeps (h g : Nat) (sh : SheetHead) (pk : Packet) (s : State) :
    (takeUpper h g sh pk s).cue = s.cue ∧ (takeUpper h g sh pk s).topo = s.topo ∧ (takeUpper h g sh pk s).harn = s.harn := by
  unfold takeUpper prjFlags; dsimp only; refine ⟨?_, ?_, ?_⟩ <;> (repeat' split) <;> rfl

theorem takeUpper_upper (h : Nat) (sh : SheetHead) (pk : Packet) (s : State) (hn : pCount pk = segLen sh (pSeg pk)) :
    ∃ x ∈ (takeUpper h (pSeg pk) sh pk s).prj.upper, x.head = h ∧ x.step = pStep pk ∧ x.seg = pSeg pk ∧
      ∀ f, fmtOf (pFmt pk) = some f → x.codes = (unpackCodes f (pCount pk) (pk.bytes.drop 32)).map (BitVec.ofNat 32) := by
  refine ⟨_, List.mem_append_right _ (List.mem_singleton.2 rfl), rfl, rfl, rfl, fun f hf => ?_⟩
  simp only [hf, hn]

/-! ### The row -/

/-- What a forwarding module has taken from an MCAST when it goes on: its next scales, and S of an upper head; of a BROADCAST's
neither (R84, R165). -/
def mcastTaken (h : Nat) (sh : SheetHead) (pk : Packet) (s : State) : State :=
  if (byteAt pk.bytes 3).getLsbD 0 then s
  else
    let s := takeScales h (pSeg pk) sh pk s
    if isUpper s sh.hid then takeUpper h (pSeg pk) sh pk s else s

theorem mcastTaken_keeps (h : Nat) (sh : SheetHead) (pk : Packet) (s : State) :
    group (mcastTaken h sh pk s) h = group s h ∧ srcAddr (mcastTaken h sh pk s) = srcAddr s := by
  obtain ⟨hsheet, htopo, hlost⟩ := takeScales_keeps h (pSeg pk) sh pk s
  obtain ⟨hcue', htopo', hharn'⟩ := takeUpper_keeps h (pSeg pk) sh pk (takeScales h (pSeg pk) sh pk s)
  unfold mcastTaken
  dsimp only
  split
  · exact ⟨rfl, rfl⟩
  · split
    · refine ⟨(group_congr _ _ h (by rw [hcue', hsheet]) (Eq.trans ?_ hlost)), srcAddr_congr _ _ (htopo'.trans htopo) (by simp)⟩
      simp only [lostSlots, hharn']
    · exact ⟨group_congr _ _ h hsheet hlost, srcAddr_congr _ _ htopo (by simp)⟩

section

variable (p : Port) (pk : Packet) (s : State) (h : Nat) (sh : SheetHead) (hk : pk.kind = kMcast) (hl : lengthOk pk = true)
  (hc : compareFull s pk = false) (hi : headIdx (takeHanded p pk s) (pHid pk) = some h)
  (hs : sheetHead (takeHanded p pk s) h = some sh) (hg : pSeg pk < segsOf sh.len) (hn : pCount pk = segLen sh (pSeg pk))

include hk hl hc hi hs hg hn

theorem execMcast_root (hr : sh.root = true) :
    execMcast p pk s = .next (if shardRole (takeHanded p pk s) sh.hid = roleUnderstudy then
      compareEntry sh.hid (pStep pk) (pSeg pk) false (compareBytes pk) (takeHanded p pk s) else takeHanded p pk s) := by
  unfold execMcast
  rw [if_pos (by simp [hk, hl, hc])]
  simp only [hi, hs]
  rw [if_neg (by simp [hg, hn]), if_pos hr, apply_ite Host.Outcome.next]

theorem execMcast_forwarded (hr : sh.root = false) :
    execMcast p pk s = .next (originate (harnPort sh.hid)
      { pk with dest := 0xFFFF, src := srcAddr (mcastTaken h sh pk (takeHanded p pk s)), resend := false }
      (group (mcastTaken h sh pk (takeHanded p pk s)) h) (mcastTaken h sh pk (takeHanded p pk s))) := by
  unfold execMcast
  rw [if_pos (by simp [hk, hl, hc])]
  simp only [hi, hs]
  rw [if_neg (by simp [hg, hn]), if_neg (by simp [hr])]
  unfold mcastTaken
  cases (byteAt pk.bytes 3).getLsbD 0 <;> simp

end

/-- Outside the SCALES entry that it takes in, a forwarding module's memory is as before (R84, R85). -/
theorem mcastTaken_frame (h : Nat) (sh : SheetHead) (pk : Packet) (s : State) (a : Nat) (hw : Memory.wf s.dram = true)
    (ha : headScaled sh = true → ∀ hd, s.harn.heads[h]? = some hd →
      a < scaleAddr hd (pSeg pk) 0 ∨ scaleAddr hd (pSeg pk) 0 + (segLen sh (pSeg pk) + 63) / 64 ≤ a) :
    memByte (mcastTaken h sh pk s).dram a = memByte s.dram a := by
  have hscales : memByte (takeScales h (pSeg pk) sh pk s).dram a = memByte s.dram a := by
    cases hs : headScaled sh with
    | false => rw [takeScales_dram_unscaled _ _ _ _ _ (.inl hs)]
    | true =>
      cases hh : s.harn.heads[h]? with
      | none => rw [takeScales_dram_unscaled _ _ _ _ _ (.inr hh)]
      | some hd =>
        rw [takeScales_dram h _ sh pk s hd hh hs]
        exact memByte_memWrite_outside _ _ _ _ hw (by simpa [nextScaleBytes] using ha hs hd hh)
  unfold mcastTaken
  dsimp only
  (repeat' split) <;> simp [hscales]

/-- Of a cast that is no BROADCAST's, a forwarding module keeps S where the head is an upper head (R165). -/
theorem mcastTaken_upper (h : Nat) (sh : SheetHead) (pk : Packet) (s : State) (hb : (byteAt pk.bytes 3).getLsbD 0 = false)
    (hn : pCount pk = segLen sh (pSeg pk)) (hu : isUpper s sh.hid = true) :
    ∃ x ∈ (mcastTaken h sh pk s).prj.upper, x.head = h ∧ x.step = pStep pk ∧ x.seg = pSeg pk ∧
      ∀ f, fmtOf (pFmt pk) = some f → x.codes = (unpackCodes f (pCount pk) (pk.bytes.drop 32)).map (BitVec.ofNat 32) := by
  have hu' : isUpper (takeScales h (pSeg pk) sh pk s) sh.hid = true := by
    rw [isUpper_congr s _ _ (takeScales_keeps h (pSeg pk) sh pk s).1, hu]
  simp only [mcastTaken, hb, hu', Bool.false_eq_true, if_false, if_true]
  exact takeUpper_upper h sh pk _ hn

/-- And the EXP fields of its next scales stand in the segment's SCALES entry (R84, R85). -/
theorem mcastTaken_scales (h : Nat) (sh : SheetHead) (pk : Packet) (s : State) (hd : Head) (b : Nat)
    (hb : (byteAt pk.bytes 3).getLsbD 0 = false) (hh : s.harn.heads[h]? = some hd) (hs : headScaled sh = true)
    (hw : Memory.wf s.dram = true) (hlt : b < (segLen sh (pSeg pk) + 63) / 64) :
    memByte (mcastTaken h sh pk s).dram (scaleAddr hd (pSeg pk) b) =
      BitVec.ofNat 8 (twos 6 (scaleExp (byteAt pk.bytes (16 + b)))) := by
  have hdram : (mcastTaken h sh pk s).dram = (takeScales h (pSeg pk) sh pk s).dram := by
    simp only [mcastTaken, hb, Bool.false_eq_true, if_false]
    split <;> simp
  rw [hdram, takeScales_dram h _ sh pk s hd hh hs]
  exact memByte_nextScaleBytes _ (scaleAddr hd (pSeg pk) 0) pk _ b hw hlt

theorem mcast_completes (p : Port) (pk : Packet) (s u : State) (h : Nat) (sh : SheetHead) (q : Packet) (hk : pk.kind = kMcast)
    (hl : lengthOk pk = true) (hc : compareFull s pk = false) (hu : u = takeHanded p pk s) (hi : headIdx u (pHid pk) = some h)
    (hs : sheetHead u h = some sh) (hg : pSeg pk < segsOf sh.len) (hn : pCount pk = segLen sh (pSeg pk))
    (hq : q = { pk with dest := 0xFFFF, src := srcAddr u, resend := false }) :
    Completes (.mcast p pk) s (fun t =>
      (sh.root = true → shardRole u sh.hid = roleUnderstudy → t = compareEntry sh.hid (pStep pk) (pSeg pk) false (compareBytes pk) u) ∧
      (sh.root = true → shardRole u sh.hid ≠ roleUnderstudy → t = u) ∧
      (sh.root = false → (byteAt pk.bytes 3).getLsbD 0 = true → t = originate (harnPort sh.hid) q (group u h) u) ∧
      (∀ a, Memory.wf s.dram = true → (headScaled sh = true → ∀ hd, u.harn.heads[h]? = some hd → a < scaleAddr hd (pSeg pk) 0 ∨
        scaleAddr hd (pSeg pk) 0 + (segLen sh (pSeg pk) + 63) / 64 ≤ a) → sh.root = false → memByte t.dram a = memByte s.dram a) ∧
      (sh.root = false → (byteAt pk.bytes 3).getLsbD 0 = false → (∃ v, t = originate (harnPort sh.hid) q (group v h) v ∧ group v h = group u h) ∧
        (isUpper u sh.hid = true → ∃ x ∈ t.prj.upper, x.head = h ∧ x.step = pStep pk ∧ x.seg = pSeg pk ∧
          ∀ f, fmtOf (pFmt pk) = some f → x.codes = (unpackCodes f (pCount pk) (pk.bytes.drop 32)).map (BitVec.ofNat 32)) ∧
        ∀ hd, u.harn.heads[h]? = some hd → headScaled sh = true → Memory.wf s.dram = true → ∀ b, b < (segLen sh (pSeg pk) + 63) / 64 →
          memByte t.dram (scaleAddr hd (pSeg pk) b) = BitVec.ofNat 8 (twos 6 (scaleExp (byteAt pk.bytes (16 + b)))))) := by
  subst hu hq
  have hdram : (takeHanded p pk s).dram = s.dram := by simp
  cases hr : sh.root with
  | true =>
    refine ⟨_, execMcast_root p pk s h sh hk hl hc hi hs hg hn hr, fun _ ho => if_pos ho, fun _ ho => if_neg ho, ?_, ?_, ?_⟩ <;> simp
  | false =>
    obtain ⟨hgroup, hsrc⟩ := mcastTaken_keeps h sh pk (takeHanded p pk s)
    refine ⟨_, execMcast_forwarded p pk s h sh hk hl hc hi hs hg hn hr, by simp, by simp, fun _ hb => ?bcast, fun a hw ha _ => ?frame,
      fun _ hb => ⟨?goesOn, fun hup => ?upper, fun hd hh hsc hw b hlt => ?scales⟩⟩
    case bcast => simp only [mcastTaken, hb, if_true]
    case frame => simpa [hdram] using mcastTaken_frame h sh pk (takeHanded p pk s) a (hdram ▸ hw) ha
    case goesOn => rw [hsrc]; exact ⟨_, rfl, hgroup⟩
    case upper => simpa only [originate_units] using mcastTaken_upper h sh pk _ hb hn hup
    case scales => simpa using mcastTaken_scales h sh pk _ hd b hb hh hsc (hdram ▸ hw) hlt

/-- Settles O33: MULTICAST by whether the module is an understudy of the shard, MCAST by whether it is a root of the head. -/
theorem multicastsGoToTheGroup : Obligations.MulticastsGoToTheGroup :=
  ⟨fun head seg s _ sh j w hs hj hr hw hp hu => hu ▸ multicast_sent head seg s sh j w hs hj hr hw hp, multicast_compared, mcast_completes⟩

end Sys2Proof.Machine
end

section
/-! ## Casts of segments (R57, R114, R147, R148) -/

namespace Sys2Proof.Machine

/-! ### Jobs -/

/-- A change of the first entry that meets a test, by a function that keeps the test met, changes what a search for it finds. -/
theorem find?_modFirst {α : Type} (p : α → Bool) (f : α → α) (hf : ∀ x, p x = true → p (f x) = true) (l : List α) :
    (modFirst p f l).find? p = (l.find? p).map f := by
  induction l with
  | nil => rfl
  | cons x l ih => cases hp : p x <;> simp [modFirst, hp, hf, ih]

theorem isJob_iff (h g n : Nat) (b d : Bool) (j : Job) :
    isJob h g n b d j = true ↔ j.head = h ∧ j.seg = g ∧ j.step = n ∧ j.bcast = b ∧ j.band = d := by
  simp [isJob, and_assoc]

/-- Where a segment had no job, the one that is added is its job. -/
theorem jobOf_addJob (s : State) (j : Job) (hb : j.bcast = false) (hd : j.band = false)
    (hn : jobOf s j.head j.seg j.step = none) : jobOf (addJob j s) j.head j.seg j.step = some j := by
  have hj : isJob j.head j.seg j.step false false j = true := by simp [isJob, hb, hd]
  unfold jobOf at hn
  simp [jobOf, addJob, hn, hj]

/-- The slot found for a segment is one of that segment. -/
theorem slotOf_seg (s : State) (h g : Nat) (x : Slot) (hx : slotOf s h g = some x) : x.seg = g := by
  have hp := List.find?_some hx
  simp only [isSlot, Bool.and_eq_true, decide_eq_true_eq] at hp
  exact hp.2

theorem slotOf_of_firedSlot (s : State) (h g : Nat) (x : Slot) (hx : firedSlot s h g = some x) : slotOf s h g = some x :=
  (Option.filter_eq_some_iff.1 hx).1

theorem cueWord_of_reducerWord (s : State) (h c : Nat) (w : CueWord) (hw : reducerWord s h = some (c, w)) : cueWord s c = some w := by
  obtain ⟨d, -, hd⟩ := Option.bind_eq_some_iff.1 hw
  obtain ⟨v, hv, heq⟩ := Option.map_eq_some_iff.1 hd
  cases heq
  exact hv

/-! ### Which cast is issued -/

section

variable (s : State) (h g : Nat) (sh : SheetHead)

/-- Outside an understudy no cast waits for room in the compare buffer (R152). -/
theorem castWorks_of_ne_understudy (hs : sheetHead s h = some sh) (hu : unitHeld s unitWardrobe = false)
    (hr : shardRole s sh.hid ≠ roleUnderstudy) : castWorks s h g = ownCast s sh h g ++ broadcastCast s h g := by
  simp only [castWorks, hs, hu, Bool.false_eq_true, if_false]
  exact List.filter_eq_self.2 fun k _ => by simp only [hr, decide_false, Bool.false_and, Bool.not_false]

/-- The sums of a REDUCE are cast where the segment has no job yet. -/
theorem ownCast_sums (x : Slot) (c : Nat) (w : CueWord) (hx : firedSlot s h g = some x) (hw : reducerWord s h = some (c, w))
    (hroot : sh.root = true) (hp : permitted s x.step c = true) (hk : cKind w = cReduce) (hj : jobOf s h g x.step = none) :
    ownCast s sh h g = [⟨x.step, c, .sums⟩] := by
  have hne : cReduce ≠ cReduceUpdate := by decide
  simp [ownCast, hx, hw, hroot, hp, hk, hj, hne]

/-- The W of an update is cast once it is ready. -/
theorem ownCast_job (x : Slot) (c : Nat) (w : CueWord) (j : Job) (hx : firedSlot s h g = some x)
    (hw : reducerWord s h = some (c, w)) (hroot : sh.root = true) (hp : permitted s x.step c = true)
    (hj : jobOf s h g x.step = some j) (hready : j.wReady = true) (hcast : j.cast = false) (hr : shardRole s sh.hid ≠ roleSeeding) :
    ownCast s sh h g = [⟨x.step, c, .job false⟩] := by
  simp [ownCast, hx, hw, hroot, hp, hj, hready, hcast, hr]

theorem ownCast_unfired (hx : firedSlot s h g = none) : ownCast s sh h g = [] := by
  simp [ownCast, hx]

end

section

variable (head : Fin 4096) (seg : BitVec 24) (err : HarnErr) (s : State) (sh : SheetHead) (k : CastWork) (l : List CastWork)
  (w : CueWord) (hs : sheetHead s head.val = some sh) (hk : castWorks s head.val seg.toNat = k :: l)
  (ht : wardrobeTurn s k.step k.cue = true) (hw : cueWord s k.cue = some w)

include hs hk ht hw

theorem execCastIssue_own (x : Slot) (hx : slotOf s head.val seg.toNat = some x) (hsrc : k.src ≠ .job true) :
    execCastIssue head seg err s = .next (castOwn sh head.val w k x err s) := by
  simp only [execCastIssue, hs, hk, List.find?_cons, ht, hw, hx]
  split <;> simp_all

theorem execCastIssue_broadcast (j : Job) (hj : s.harn.jobs.find? (isJob head.val seg.toNat k.step true false) = some j)
    (hsrc : k.src = .job true) : execCastIssue head seg err s = .next (castBroadcast sh head.val w j err s) := by
  simp only [execCastIssue, hs, hk, List.find?_cons, ht, hw, hj, hsrc]

end

/-! ### What a cast leaves in its job -/

theorem noteCast_units (o : CastOut) (s : State) : UnitsAlike (noteCast o s) s := ⟨rfl, rfl, rfl, rfl, rfl⟩

/-- The Outrider's snoop queue is no part of the harness. -/
theorem snoop_harn (h g n k : Nat) (s : State) : (snoop h g n k s).harn = s.harn :=
  foldl_same State.harn _ (fun s y => by unfold snoopOne; dsimp only; split <;> rfl) _ s

/-- The cast stage writes scales, counts and flags; the jobs stand. -/
theorem castStage_jobs (h n g c : Nat) (w : CueWord) (sh : SheetHead) (scale : BitVec 24) (blkovf : BitVec 4) (vs : List Val)
    (s : State) : (castStage h n g c w sh scale blkovf vs s).2.2.harn.jobs = s.harn.jobs := by
  unfold castStage
  dsimp only
  split
  · simp only [countHead_units, writeScales]
    split <;> rfl
  · simp only [countHead_units]
    rfl

/-- A scale limit adds a flag to the cast; its codes and data scales are those of the conversion (R45, R57). -/
theorem castStage_out (h n g c : Nat) (w : CueWord) (sh : SheetHead) (scale : BitVec 24) (blkovf : BitVec 4) (vs : List Val)
    (s : State) : (castStage h n g c w sh scale blkovf vs s).1.codes = (castFor s sh n g w scale vs).codes ∧
      (castStage h n g c w sh scale blkovf vs s).1.dscale = (castFor s sh n g w scale vs).dscale := by
  unfold castStage
  dsimp only
  split <;> exact ⟨rfl, rfl⟩

/-- The job of the segment takes the cast. -/
theorem castJob_job (h g c : Nat) (w : CueWord) (sh : SheetHead) (x : Slot) (vs : List Val) (s : State) (j : Job)
    (hj : jobOf s h g x.step = some j) :
    ∃ k, jobOf (castJob h g c w sh x vs s) h g x.step = some k ∧ k.cast = true ∧ k.w = j.w ∧
      k.codes = (castFor s sh x.step g w x.scale vs).codes ∧ k.dscale = (castFor s sh x.step g w x.scale vs).dscale := by
  have hjobs : (castJob h g c w sh x vs s).harn.jobs = modFirst (isJob h g x.step false false)
      (fun y => withCast y (castStage h x.step g c w sh x.scale x.blkovf vs s)) s.harn.jobs := by
    simp [castJob, modSamples, snoop_harn, modSlot, modJob, castStage_jobs]
  obtain ⟨hcodes, hdscale⟩ := castStage_out h x.step g c w sh x.scale x.blkovf vs s
  refine ⟨withCast j (castStage h x.step g c w sh x.scale x.blkovf vs s), ?_, rfl, rfl, hcodes, hdscale⟩
  unfold jobOf at hj ⊢
  rw [hjobs, find?_modFirst, hj]
  · rfl
  · exact fun _ hy => hy

/-- A cast of the fired sums makes a job of the segment (R147). -/
theorem castOwn_sums (sh : SheetHead) (h c : Nat) (w : CueWord) (x : Slot) (s : State) (hx : slotOf s h x.seg = some x)
    (hj : jobOf s h x.seg x.step = none) :
    ∃ j, jobOf (castOwn sh h w ⟨x.step, c, .sums⟩ x .clean s) h x.seg x.step = some j ∧ j.cast = true ∧
      j.codes = (castFor s sh x.step x.seg w x.scale ((List.range x.seglen).map (slotVal x))).codes ∧
      j.dscale = (castFor s sh x.step x.seg w x.scale ((List.range x.seglen).map (slotVal x))).dscale := by
  have hnew := jobOf_addJob s { head := h, seg := x.seg, step := x.step, cue := c, bcast := false, writesDone := true } rfl rfl hj
  obtain ⟨k, hk, hcast, -, hcodes, hdscale⟩ := castJob_job h x.seg c w sh x ((List.range x.seglen).map (slotVal x)) _ _ hnew
  refine ⟨k, ?_, hcast, hcodes, hdscale⟩
  simpa only [castOwn, slotError, hx, Option.getD_some] using hk

/-- A cast of the new W goes into the job that holds it (R147). -/
theorem castOwn_job (sh : SheetHead) (h c : Nat) (w : CueWord) (x : Slot) (s : State) (j : Job)
    (hj : jobOf s h x.seg x.step = some j) :
    ∃ k, jobOf (castOwn sh h w ⟨x.step, c, .job false⟩ x .clean s) h x.seg x.step = some k ∧ k.cast = true ∧ k.w = j.w ∧
      k.codes = (castFor s sh x.step x.seg w x.scale (wVals j.w [])).codes := by
  obtain ⟨k, hk, hcast, hw, hcodes, -⟩ := castJob_job h x.seg c w sh x (wVals j.w []) s j hj
  exact ⟨k, by simpa only [castOwn, hj, wordError, badWords] using hk, hcast, hw, hcodes⟩

theorem castBroadcast_dram (sh : SheetHead) (h : Nat) (w : CueWord) (j : Job) (s : State) :
    (castBroadcast sh h w j .clean s).dram = s.dram := by
  simp [castBroadcast, wordError]

/-- The job of a BROADCAST once it is cast (R148). -/
def withBroadcast (s : State) (sh : SheetHead) (h : Nat) (w : CueWord) (j y : Job) : Job :=
  { y with cast := true, codes := (castFor s sh j.step j.seg w 0 (wVals j.w [])).codes
           dscale := (castFor s sh j.step j.seg w 0 (wVals j.w [])).dscale, nscale := forceBytes s h j.seg sh }

/-- A cast of a BROADCAST goes into its job, with the scales in force (R148). -/
theorem castBroadcast_job (sh : SheetHead) (h : Nat) (w : CueWord) (j : Job) (s : State)
    (hj : s.harn.jobs.find? (isJob h j.seg j.step true false) = some j) :
    (castBroadcast sh h w j .clean s).harn.jobs.find? (isJob h j.seg j.step true false) = some (withBroadcast s sh h w j j) := by
  have hjobs : (castBroadcast sh h w j .clean s).harn.jobs =
      modFirst (isJob h j.seg j.step true false) (withBroadcast s sh h w j) s.harn.jobs := by
    simp only [castBroadcast, modJob, countHead_units]
    rfl
  rw [hjobs, find?_modFirst, hj]
  · rfl
  · exact fun _ hy => hy

/-! ### The row -/

theorem castIssue_sums (head : Fin 4096) (seg : BitVec 24) (s : State) (sh : SheetHead) (x : Slot) (c : Nat) (w : CueWord)
    (hs : sheetHead s head.val = some sh) (hu : unitHeld s unitWardrobe = false) (hr : shardRole s sh.hid ≠ roleUnderstudy)
    (hx : firedSlot s head.val seg.toNat = some x) (hw : reducerWord s head.val = some (c, w)) (hroot : sh.root = true)
    (hp : permitted s x.step c = true) (hk : cKind w = cReduce) (hj : jobOf s head.val seg.toNat x.step = none)
    (ht : wardrobeTurn s x.step c = true) :
    Completes (.castIssue head seg .clean) s (fun t => ∃ j, jobOf t head.val seg.toNat x.step = some j ∧ j.cast = true ∧
      j.codes = (castFor s sh x.step seg.toNat w x.scale ((List.range x.seglen).map (slotVal x))).codes ∧
      j.dscale = (castFor s sh x.step seg.toNat w x.scale ((List.range x.seglen).map (slotVal x))).dscale) := by
  have hslot := slotOf_of_firedSlot s _ _ x hx
  have hseg := slotOf_seg s _ _ x hslot
  have hworks := castWorks_of_ne_understudy s head.val seg.toNat sh hs hu hr
  rw [ownCast_sums s _ _ sh x c w hx hw hroot hp hk hj] at hworks
  refine ⟨_, execCastIssue_own head seg .clean s sh _ _ w hs hworks ht (cueWord_of_reducerWord s _ c w hw) x hslot (by simp), ?_⟩
  rw [← hseg] at hslot hj ⊢
  exact castOwn_sums sh head.val c w x s hslot hj

theorem castIssue_job (head : Fin 4096) (seg : BitVec 24) (s : State) (sh : SheetHead) (x : Slot) (c : Nat) (w : CueWord) (j : Job)
    (hs : sheetHead s head.val = some sh) (hu : unitHeld s unitWardrobe = false) (hr : shardRole s sh.hid ≠ roleUnderstudy)
    (hx : firedSlot s head.val seg.toNat = some x) (hw : reducerWord s head.val = some (c, w)) (hroot : sh.root = true)
    (hp : permitted s x.step c = true) (hj : jobOf s head.val seg.toNat x.step = some j) (hready : j.wReady = true)
    (hcast : j.cast = false) (hseed : shardRole s sh.hid ≠ roleSeeding) (ht : wardrobeTurn s x.step c = true) :
    Completes (.castIssue head seg .clean) s (fun t => ∃ k, jobOf t head.val seg.toNat x.step = some k ∧ k.cast = true ∧ k.w = j.w ∧
      k.codes = (castFor s sh x.step seg.toNat w x.scale (wVals j.w [])).codes) := by
  have hslot := slotOf_of_firedSlot s _ _ x hx
  have hseg := slotOf_seg s _ _ x hslot
  have hworks := castWorks_of_ne_understudy s head.val seg.toNat sh hs hu hr
  rw [ownCast_job s _ _ sh x c w j hx hw hroot hp hj hready hcast hseed] at hworks
  refine ⟨_, execCastIssue_own head seg .clean s sh _ _ w hs hworks ht (cueWord_of_reducerWord s _ c w hw) x hslot (by simp), ?_⟩
  rw [← hseg] at hj ⊢
  exact castOwn_job sh head.val c w x s j hj

theorem castIssue_broadcast (head : Fin 4096) (seg : BitVec 24) (s : State) (sh : SheetHead) (w : CueWord) (j : Job)
    (hs : sheetHead s head.val = some sh) (hu : unitHeld s unitWardrobe = false) (hr : shardRole s sh.hid ≠ roleUnderstudy)
    (hx : firedSlot s head.val seg.toNat = none)
    (hfirst : s.harn.jobs.find? (fun j => decide (j.head = head.val) && decide (j.seg = seg.toNat) && j.bcast && !j.cast) = some j)
    (hw : cueWord s j.cue = some w) (hj : s.harn.jobs.find? (isJob head.val seg.toNat j.step true false) = some j)
    (ht : wardrobeTurn s j.step j.cue = true) :
    Completes (.castIssue head seg .clean) s (fun t => t.dram = s.dram ∧
      ∃ k, t.harn.jobs.find? (isJob head.val seg.toNat j.step true false) = some k ∧ k.cast = true ∧
        k.codes = (castFor s sh j.step seg.toNat w 0 (wVals j.w [])).codes ∧ k.nscale = forceBytes s head.val seg.toNat sh) := by
  obtain ⟨-, hseg, -⟩ := (isJob_iff _ _ _ _ _ j).1 (List.find?_some hj)
  have hbcast : broadcastCast s head.val seg.toNat = [⟨j.step, j.cue, .job true⟩] := by simp [broadcastCast, hfirst]
  have hworks := castWorks_of_ne_understudy s head.val seg.toNat sh hs hu hr
  rw [ownCast_unfired s _ _ sh hx, hbcast] at hworks
  refine ⟨_, execCastIssue_broadcast head seg .clean s sh _ _ w hs hworks ht hw j hj rfl, castBroadcast_dram sh _ w j s, ?_⟩
  rw [← hseg] at hj ⊢
  exact ⟨_, castBroadcast_job sh head.val w j s hj, rfl, rfl, rfl⟩

/-- Settles O32: one case per source of a cast, the fired sums, the new W of an update, and the W of a BROADCAST. -/
theorem segmentsAreCast : Obligations.SegmentsAreCast :=
  ⟨fun head seg s sh _ x c w hs _ => castIssue_sums head seg s sh x c w hs,
   fun head seg s sh _ x c w j hs _ hu hr hx hw hroot hp _ => castIssue_job head seg s sh x c w j hs hu hr hx hw hroot hp,
   fun head seg s sh _ w j hs _ => castIssue_broadcast head seg s sh w j hs⟩

end Sys2Proof.Machine
end

section
/-! ## Reads of memory after a write or a fill, and shard records written back (R136, R137, Table Groom-4) -/

namespace Sys2Proof.Machine

/-! ### Reads -/

/-- A read rests on the bytes that it takes. -/
theorem memRead_congr (m q : Mem) (a b n : Nat) (h : ∀ i, i < n → memByte m (a + i) = memByte q (b + i)) :
    memRead m a n = memRead q b n :=
  List.map_congr_left fun i hi => h i (List.mem_range.1 hi)

@[simp] theorem memRead_length (m : Mem) (a n : Nat) : (memRead m a n).length = n := by simp [memRead]

/-- Bytes copied from one memory to another are read back there. -/
theorem memRead_memWrite_memRead (m q : Mem) (a b n : Nat) (h : Memory.wf m = true) :
    memRead (memWrite m a (memRead q b n)) a n = memRead q b n := by
  simpa using memRead_memWrite (memRead q b n) m a h

theorem memByte_memClear (m : Mem) (a n b : Nat) : memByte (memClear m a n) b = if a ≤ b ∧ b < a + n then 0 else memByte m b := by
  induction m with
  | nil => simp [memClear, memByte]
  | cons c m ih =>
    unfold memClear at ih ⊢
    by_cases hc : a ≤ c.1 ∧ c.1 < a + n
    · rw [List.filter_cons_of_neg (by simp [hc]), ih]
      split
      · rfl
      · rw [memByte, if_neg (by rintro rfl; contradiction)]
    · rw [List.filter_cons_of_pos (by simp only [← Bool.decide_and, hc, decide_false, Bool.not_false]), memByte, memByte, ih]
      by_cases hb : b = c.1
      · subst hb; simp [hc]
      · simp [hb]

/-- A field of bytes read from memory is what stands at its own address. -/
theorem leAt_memRead (m : Mem) (a n off k : Nat) (h : off + k ≤ n) : leAt (memRead m a n) off k = memLe m (a + off) k := by
  unfold leAt memLe
  congr 1
  apply List.ext_getElem
  · simp; omega
  · intro i _ _
    simp [memRead, Nat.add_assoc]

/-! ### Fields of bytes written in a row -/

theorem leBytes_length (n v : Nat) : (leBytes n v).length = n := by
  induction n generalizing v with
  | zero => rfl
  | succ n ih => simp [leBytes, ih]

/-- A value that fits its bytes is read back from them. -/
theorem leVal_leBytes (n v : Nat) (h : v < 256 ^ n) : leVal (leBytes n v) = v := by
  induction n generalizing v with
  | zero => simp only [Nat.pow_zero, Nat.lt_one_iff] at h; simp [leBytes, leVal, h]
  | succ n ih =>
    have hv : v / 256 < 256 ^ n := Nat.div_lt_of_lt_mul (by rwa [Nat.pow_succ'] at h)
    simp only [leBytes, leVal, ih _ hv, BitVec.toNat_ofNat]
    omega

theorem leVal_lt (l : List Byte) : leVal l < 256 ^ l.length := by
  induction l with
  | nil => simp [leVal]
  | cons b l ih =>
    have hb := b.isLt
    simp only [leVal, List.length_cons, Nat.pow_succ]
    omega

theorem take_leBytes (n m v : Nat) (h : n ≤ m) : (leBytes m v).take n = leBytes n v := by
  induction n generalizing m v with
  | zero => rfl
  | succ n ih =>
    obtain ⟨m, rfl⟩ : ∃ k, m = k + 1 := ⟨m - 1, by omega⟩
    simp [leBytes, ih m (v / 256) (by omega)]

/-- The first field of a row is read back, by any width that its value fits. -/
theorem leAt_leBytes_append (m n v : Nat) (l : List Byte) (h : n ≤ m) (hv : v < 256 ^ n) : leAt (leBytes m v ++ l) 0 n = v := by
  have hlen := leBytes_length m v
  rw [leAt, List.drop_zero, List.take_append_of_le_length (by omega), take_leBytes n m v h, leVal_leBytes n v hv]

/-- A later field is read from the rest of the row. -/
theorem leAt_leBytes_append_right (m v off n : Nat) (l : List Byte) (h : m ≤ off) :
    leAt (leBytes m v ++ l) off n = leAt l (off - m) n := by
  rw [leAt, leAt, List.drop_append, List.drop_of_length_le (by rwa [leBytes_length]), List.nil_append, leBytes_length]

theorem byteAt_toNat (l : List Byte) (off : Nat) : (byteAt l off).toNat = leAt l off 1 := by
  unfold byteAt leAt
  rw [List.getD_eq_getElem?_getD, List.take_one, List.head?_drop]
  cases l[off]? <;> simp [leVal]

/-! ### Shard records -/

/-- The fields of a record lie in their ranges (Table Groom-4). -/
def Shard.Fits (r : Shard) : Prop := r.role < 4 ∧ r.uport < 64 ∧ r.uslot < 128 ∧ r.len < 2 ^ 64 ∧ r.base < 2 ^ 64

theorem leAt_lt (l : List Byte) (off n : Nat) : leAt l off n < 256 ^ n :=
  Nat.lt_of_lt_of_le (leVal_lt _) (Nat.pow_le_pow_right (by decide) (List.length_take_le n _))

theorem readShard_fits (s : State) (i : Nat) : (readShard s i).Fits := by
  have hlen := leAt_lt (memRead s.dram (shardAddr i) 64) 8 8
  have hbase := leAt_lt (memRead s.dram (shardAddr i) 64) 0x10 8
  simp only [Shard.Fits, readShard]
  omega

theorem readShard_congr (s t : State) (i : Nat) (h : ∀ a, shardAddr i ≤ a → a < shardAddr i + 64 → memByte t.dram a = memByte s.dram a) :
    readShard t i = readShard s i := by
  unfold readShard
  rw [memRead_congr t.dram s.dram _ _ 64 fun k hk => h _ (by omega) (by omega)]

theorem shardBytes_length (r : Shard) : (shardBytes r).length = 64 := by
  simp [shardBytes, leBytes_length, zeros]

/-- The byte of a record that holds its role, SEEDOUT and DIVERGED. -/
def roleByte (role : Nat) (seedout diverged : Bool) : Nat :=
  role + (if seedout then 4 else 0) + if diverged then 8 else 0

theorem roleByte_fields : ∀ (k : Fin 4) (a b : Bool),
    roleByte k a b < 256 ∧ roleByte k a b % 4 = k ∧ (roleByte k a b).testBit 2 = a ∧ (roleByte k a b).testBit 3 = b := by
  decide

theorem writeShard_dram (i : Nat) (r : Shard) (s : State) :
    (writeShard i r s).dram = memWrite s.dram (shardAddr i) (shardBytes r) := by
  simp only [writeShard]

/-- A record written is read back. -/
theorem readShard_writeShard (i : Nat) (r : Shard) (s : State) (hw : Memory.wf s.dram = true) (hr : r.Fits) :
    readShard (writeShard i r s) i = r := by
  obtain ⟨hrole, hport, hslot, hlen, hbase⟩ := hr
  have hread : memRead (writeShard i r s).dram (shardAddr i) 64 = shardBytes r := by
    have h := memRead_memWrite (shardBytes r) s.dram (shardAddr i) hw
    rwa [shardBytes_length, ← writeShard_dram] at h
  obtain ⟨hbyte, hmod, hseed, hdiv⟩ := roleByte_fields ⟨r.role, hrole⟩ r.seedout r.diverged
  have hrow : shardBytes r = leBytes 2 r.hid.toNat ++ (leBytes 1 (roleByte r.role r.seedout r.diverged) ++ (leBytes 1 r.uport ++
      (leBytes 1 r.uslot ++ (leBytes 3 0 ++ (leBytes 8 r.len ++ (leBytes 8 r.base ++ (leBytes 8 r.age.toNat ++
      (leBytes 8 r.p1.toNat ++ (leBytes 8 r.p2.toNat ++ (leBytes 8 r.partner.toNat ++ (leBytes 8 r.last.toNat ++ []))))))))))) := by
    simp only [shardBytes, List.append_assoc, List.append_nil]
    rfl
  unfold readShard
  rw [hread, hrow]
  simp (disch := omega) [-List.append_nil, byteAt_toNat, leAt_leBytes_append_right, leAt_leBytes_append, hmod, hseed, hdiv,
    Nat.mod_eq_of_lt]

/-- A number that is found meets the test. -/
theorem findFrom_spec (p : Nat → Bool) (n i k : Nat) (h : findFrom p n i = some k) : p k = true := by
  induction n generalizing i with
  | zero => cases h
  | succ n ih =>
    unfold findFrom at h
    split at h
    · cases h; assumption
    · exact ih _ h

/-- The record that is found for a HID has it. -/
theorem readShard_hid (s : State) (hid : BitVec 16) (k : Nat) (h : findShard s hid = some k) : (readShard s k).hid = hid := by
  have hp := findFrom_spec _ _ _ _ h
  simp only [Bool.and_eq_true, decide_eq_true_eq] at hp
  simp only [readShard, leAt_memRead _ _ 64 0 2 (by omega), Nat.add_zero, hp.2, BitVec.ofNat_toNat, BitVec.setWidth_eq]

/-- The search for a record rests on the shard table. -/
theorem findShard_congr (s t : State) (hid : BitVec 16) (h : ∀ a, shardTable ≤ a → memByte t.dram a = memByte s.dram a) :
    findShard t hid = findShard s hid := by
  unfold findShard
  congr 1
  funext i
  have hi : shardTable ≤ shardAddr i := Nat.le_add_right _ _
  rw [h _ (by omega), memLe, memLe, memRead_congr t.dram s.dram _ _ 2 fun k _ => h _ (by omega)]

/-- A change of the record that is found writes it back. -/
theorem modShard_some (s : State) (hid : BitVec 16) (f : Shard → Shard) (k : Nat) (h : findShard s hid = some k) :
    modShard hid f s = writeShard k (f (readShard s k)) s := by
  simp only [modShard, h]

end Sys2Proof.Machine
end

section
/-! ## What the end of instances leaves of each of them (R124, R181, R188)

Those that could end become DONE; none is taken back, and none fails. -/

namespace Sys2Proof.Machine

/-! ### Looking up instances after a change -/

theorem openStep_modOpen (n : Nat) (f : OpenStep → OpenStep) (hf : ∀ o, (f o).step = o.step) (s : State) (m : Nat) :
    openStep (modOpen n f s) m = (openStep s m).map (fun o => if m = n then f o else o) := by
  unfold openStep modOpen modRun
  cases s.cue.run with
  | none => rfl
  | some r =>
    simp only [Option.map_some, Option.bind_some]
    induction r.steps with
    | nil => rfl
    | cons o l ih =>
      by_cases hn : o.step = n <;> by_cases hm : o.step = m
      · simp_all [modFirst]
      · have hne : m ≠ n := fun h => hm (hn.trans h.symm)
        simp_all [modFirst]
      · have hne : m ≠ n := fun h => hn (hm.trans h)
        simp_all [modFirst]
      · simp_all [modFirst]

theorem instOf_modInst (n c : Nat) (f : Inst → Inst) (s : State) (m d : Nat) :
    instOf (modInst n c f s) m d = (instOf s m d).map (fun i => if m = n ∧ d = c then f i else i) := by
  unfold instOf modInst
  rw [openStep_modOpen n (fun o => { o with insts := o.insts.modify c f }) (fun _ => rfl)]
  cases openStep s m with
  | none => rfl
  | some o =>
    by_cases hm : m = n
    · by_cases hd : d = c
      · simp [hm, hd]
      · simp [hm, hd, Ne.symm hd]
    · simp [hm]

theorem instOf_modInst_self (n c : Nat) (f : Inst → Inst) (s : State) (i : Inst) (h : instOf s n c = some i) :
    instOf (modInst n c f s) n c = some (f i) := by
  simp [instOf_modInst, h]

/-- Instances rest on the run alone. -/
theorem instOf_congr (s t : State) (n c : Nat) (h : t.cue.run = s.cue.run) : instOf t n c = instOf s n c := by
  simp only [instOf, openStep, h]

/-! ### Instances go on -/

/-- `j` is `i` later on: as launched, started and finished as before, and in the same state or DONE. -/
def Inst.Onward (i j : Inst) : Prop :=
  j.launched = i.launched ∧ j.started = i.started ∧ j.finished = i.finished ∧ (j.st = i.st ∨ j.st = .done)

theorem Inst.Onward.refl (i : Inst) : i.Onward i := ⟨rfl, rfl, rfl, .inl rfl⟩

theorem Inst.Onward.trans {i j k : Inst} (hij : i.Onward j) (hjk : j.Onward k) : i.Onward k := by
  obtain ⟨hl, hs, hf, hst⟩ := hij
  obtain ⟨hl', hs', hf', hst'⟩ := hjk
  refine ⟨hl'.trans hl, hs'.trans hs, hf'.trans hf, ?_⟩
  obtain h | h := hst'
  · rwa [h]
  · exact .inr h

/-- Two states of one sheet, in the second of which all instances of the first go on. -/
def Onward (s t : State) : Prop :=
  t.cue.sheet = s.cue.sheet ∧ ∀ n c i, instOf s n c = some i → ∃ j, instOf t n c = some j ∧ i.Onward j

theorem Onward.trans {s t u : State} (hst : Onward s t) (htu : Onward t u) : Onward s u := by
  refine ⟨htu.1.trans hst.1, fun n c i hi => ?_⟩
  obtain ⟨j, hj, hij⟩ := hst.2 n c i hi
  obtain ⟨k, hk, hjk⟩ := htu.2 n c j hj
  exact ⟨k, hk, hij.trans hjk⟩

theorem Onward.of_cue {s t : State} (hs : t.cue.sheet = s.cue.sheet) (hr : t.cue.run = s.cue.run) : Onward s t :=
  ⟨hs, fun n c i hi => ⟨i, by rw [instOf_congr s t n c hr, hi], .refl i⟩⟩

theorem Onward.of_cue_eq {s t : State} (h : t.cue = s.cue) : Onward s t := .of_cue (by rw [h]) (by rw [h])

theorem Onward.refl (s : State) : Onward s s := .of_cue rfl rfl

theorem Onward.cueWord_eq {s t : State} (h : Onward s t) (c : Nat) : cueWord t c = cueWord s c := by
  simp only [cueWord, h.1]

theorem onward_foldl {α : Type} (g : State → α → State) (hg : ∀ s x, Onward s (g s x)) (l : List α) (s : State) :
    Onward s (l.foldl g s) := by
  induction l generalizing s with
  | nil => exact .refl s
  | cons x l ih => exact (hg s x).trans (ih (g s x))

/-- A change of one of the instances, under which it goes on. -/
theorem onward_modInst (n c : Nat) (f : Inst → Inst) (hf : ∀ i, Inst.Onward i (f i)) (s : State) : Onward s (modInst n c f s) := by
  refine ⟨rfl, fun m d i hi => ⟨_, by rw [instOf_modInst, hi, Option.map_some], ?_⟩⟩
  split
  · exact hf i
  · exact .refl i

/-- A change of a step beside its instances. -/
theorem onward_modOpen (n : Nat) (f : OpenStep → OpenStep) (hf : ∀ o, (f o).step = o.step ∧ (f o).insts = o.insts) (s : State) :
    Onward s (modOpen n f s) := by
  refine ⟨rfl, fun m c i hi => ⟨i, ?_, .refl i⟩⟩
  obtain ⟨o, ho, hoc⟩ := Option.bind_eq_some_iff.1 hi
  rw [instOf, openStep_modOpen n f (fun o => (hf o).1), ho, Option.map_some, Option.bind_some]
  split
  · rw [(hf o).2, hoc]
  · exact hoc

theorem onward_noteFirst (n c : Nat) (s : State) : Onward s (noteFirst n c s) :=
  onward_modInst n c _ (fun i => by split <;> exact ⟨rfl, rfl, rfl, .inl rfl⟩) s

theorem onward_noteFlags (n c : Nat) (fl : Flags) (s : State) : Onward s (noteFlags n c fl s) :=
  onward_modInst n c _ (fun _ => by exact ⟨rfl, rfl, rfl, .inl rfl⟩) s

/-! ### The rules of the end of instances -/

theorem onward_tryComplete (n c : Nat) (s : State) : Onward s (tryComplete n c s) := by
  unfold tryComplete
  split
  case h_2 => exact .refl s
  case h_1 w x _ _ =>
    dsimp only
    split
    · exact .refl s
    · split
      · exact .refl s
      · have flagged (fl : Flags) (f : CallCtx → CallCtx) : Onward s (noteFlags n c fl (callFlags fl (modCtx n c f s))) :=
          (Onward.of_cue_eq rfl).trans (onward_noteFlags n c fl _)
        split
        · exact (flagged _ _).trans (.of_cue_eq (sendDown_clock ..).2)
        · exact (flagged _ _).trans (.of_cue_eq (sendOn_clock ..).2)

theorem onward_arriveOwn (n c : Nat) (s : State) : Onward s (arriveOwn n c s) := by
  unfold arriveOwn
  split
  · split
    · exact .refl s
    · split
      · have stored : Onward s (storeOperand n c 64 [] s) := (Onward.of_cue_eq rfl).trans (onward_noteFirst n c _)
        exact stored.trans (onward_tryComplete n c _)
      · exact .refl s
  · exact .refl s

theorem onward_clearMisses (h : Nat) (s : State) : Onward s (clearMisses h s) := by
  unfold clearMisses
  split
  · refine onward_foldl _ (fun s m => ?_) _ s
    split
    · exact .refl s
    · exact .of_cue rfl rfl
  · exact .refl s

/-- Members from which a cue that is DONE misses no contribution lose their misses (R122). -/
def missesOver (w : CueWord) (s : State) : State :=
  if headed (cKind w) ∧ cDeadline w = 0 then match headIdx s (cHid w) with
    | some h => clearMisses h s
    | none => s
  else s

/-- What follows once a cue is DONE: the misses, and the event where the cue asks for it (R122, R129). -/
def afterDone (n c : Nat) (w : CueWord) (s : State) : State :=
  if cNotify w then cueEvent n c (missesOver w s) else missesOver w s

theorem onward_afterDone (n c : Nat) (w : CueWord) (s : State) : Onward s (afterDone n c w s) := by
  have misses : Onward s (missesOver w s) := by
    unfold missesOver
    split
    · split
      · exact onward_clearMisses _ s
      · exact .refl s
    · exact .refl s
  unfold afterDone
  split
  · exact misses.trans (.of_cue_eq (cueEvent_clock ..).2)
  · exact misses

theorem finishInst_some (n c : Nat) (s : State) (i : Inst) (w : CueWord) (hi : instOf s n c = some i) (hw : cueWord s c = some w) :
    finishInst n c s = if !i.launched || decide (i.st = .done) || decide (i.st = .failed) then s
      else
        let s := if cKind w = cCurtain then arriveOwn n c s else s
        if stagesDone s n c w i then afterDone n c w (modInst n c (fun i => { i with st := .done, doneAt := sinceLaunch s i }) s)
        else s := by
  unfold finishInst afterDone missesOver
  simp only [hi, hw] <;> rfl

theorem onward_finishInst (n c : Nat) (s : State) : Onward s (finishInst n c s) := by
  cases hi : instOf s n c with
  | none => simp only [finishInst, hi]; exact .refl s
  | some i => cases hw : cueWord s c with
    | none => simp only [finishInst, hi, hw]; exact .refl s
    | some w =>
      have own : Onward s (if cKind w = cCurtain then arriveOwn n c s else s) := by
        split
        · exact onward_arriveOwn n c s
        · exact .refl s
      rw [finishInst_some n c s i w hi hw]
      dsimp only
      generalize (if cKind w = cCurtain then arriveOwn n c s else s) = u at own
      split
      · exact .refl s
      · split
        · exact own.trans ((onward_modInst n c _ (fun _ => by exact ⟨rfl, rfl, rfl, .inr rfl⟩) u).trans (onward_afterDone n c w _))
        · exact own

theorem onward_endStep (n : Nat) (s : State) : Onward s (endStep n s) := by
  unfold endStep
  split
  · split
    · exact onward_modOpen n _ (fun _ => by exact ⟨rfl, rfl⟩) s
    · exact .refl s
  · exact .refl s

/-- One step of the run settles: its instances in the order of R181, then the step itself. -/
def settleStep (s : State) (n : Nat) : State := endStep n ((cueOrder s n).foldl (fun s c => finishInst n c s) s)

theorem onward_settleStep (s : State) (n : Nat) : Onward s (settleStep s n) :=
  (onward_foldl _ (fun s c => onward_finishInst n c s) _ s).trans (onward_endStep n _)

theorem settle_eq (s : State) : settle s = ((s.cue.run.map (fun r => r.steps.map (·.step))).getD []).foldl settleStep s := rfl

theorem onward_settle (s : State) : Onward s (settle s) := onward_foldl _ onward_settleStep _ s

/-! ### Instances whose stages are over become DONE -/

def InstDone (n c : Nat) (s : State) : Prop := ∃ i, instOf s n c = some i ∧ i.st = .done

theorem InstDone.onward {n c : Nat} {s t : State} (hd : InstDone n c s) (h : Onward s t) : InstDone n c t := by
  obtain ⟨i, hi, hst⟩ := hd
  obtain ⟨j, hj, -, -, -, hst'⟩ := h.2 n c i hi
  exact ⟨j, hj, hst'.elim (·.trans hst) id⟩

/-- What one operation of a fold brings about from every later state, the fold brings about. -/
theorem InstDone.foldl {α : Type} {n c : Nat} (u : State) (g : State → α → State) (hg : ∀ s x, Onward s (g s x)) (x : α)
    (hx : ∀ s, Onward u s → InstDone n c (g s x)) (l : List α) (hl : x ∈ l) : InstDone n c (l.foldl g u) := by
  obtain ⟨a, b, rfl⟩ := List.append_of_mem hl
  rw [List.foldl_append, List.foldl_cons]
  exact (hx _ (onward_foldl g hg a u)).onward (onward_foldl g hg b _)

theorem mem_insertBy {α : Type} (le : α → α → Bool) (x y : α) (l : List α) : y ∈ insertBy le x l ↔ y = x ∨ y ∈ l := by
  induction l with
  | nil => simp [insertBy]
  | cons z l ih =>
    unfold insertBy
    split
    · simp
    · simp only [List.mem_cons, ih]; exact or_left_comm

theorem mem_sortBy {α : Type} (le : α → α → Bool) (y : α) (l : List α) : y ∈ sortBy le l ↔ y ∈ l := by
  induction l with
  | nil => simp [sortBy]
  | cons x l ih => simp [sortBy, mem_insertBy, ih]

/-- The order of a step names each of its instances. -/
theorem mem_cueOrder (s : State) (n c : Nat) (i : Inst) (h : instOf s n c = some i) : c ∈ cueOrder s n := by
  obtain ⟨o, ho, hoc⟩ := Option.bind_eq_some_iff.1 h
  obtain ⟨hlt, -⟩ := List.getElem?_eq_some_iff.1 hoc
  simp [cueOrder, ho, mem_sortBy, hlt]

/-- Instances stand in steps of the run. -/
theorem mem_steps (s : State) (n c : Nat) (i : Inst) (h : instOf s n c = some i) :
    n ∈ (s.cue.run.map (fun r => r.steps.map (·.step))).getD [] := by
  obtain ⟨o, ho, -⟩ := Option.bind_eq_some_iff.1 h
  obtain ⟨r, hr, hfind⟩ := Option.bind_eq_some_iff.1 ho
  have hstep := List.find?_some hfind
  simp only [decide_eq_true_eq] at hstep
  simp only [hr, Option.map_some, Option.getD_some, List.mem_map]
  exact ⟨o, List.mem_of_find?_eq_some hfind, hstep⟩

section

variable (n c : Nat) (s : State) (i : Inst) (w : CueWord) (hi : instOf s n c = some i) (hw : cueWord s c = some w)
  (hk : cKind w = cConvert ∨ cKind w = cMove) (hl : i.launched = true) (hf : i.finished = true) (hst : i.st ≠ .failed)

include hi hw hk hl hf hst

/-- A launched CONVERT or MOVE that has finished is DONE at the next test (R124). -/
theorem finishInst_done : InstDone n c (finishInst n c s) := by
  rw [finishInst_some n c s i w hi hw]
  by_cases hd : i.st = .done
  · simpa [hd] using ⟨i, hi, hd⟩
  · have hcurtain : cKind w ≠ cCurtain := by rintro h; rw [h] at hk; exact absurd hk (by decide)
    have hstages : stagesDone s n c w i = true := by
      have hnop : cKind w ≠ cNop := by rintro h; rw [h] at hk; exact absurd hk (by decide)
      have hbcast : cKind w ≠ cBroadcast := by rintro h; rw [h] at hk; exact absurd hk (by decide)
      simp only [stagesDone, hnop, hbcast, hk, hf, if_false, if_true]
    rw [if_neg (by simp [hl, hd, hst])]
    simp only [hcurtain, hstages, if_false, if_true]
    exact InstDone.onward ⟨_, instOf_modInst_self n c _ s i hi, rfl⟩ (onward_afterDone n c w _)

/-- It is DONE once all that can end has ended. -/
theorem settle_done : InstDone n c (settle s) := by
  have later (t : State) (ht : Onward s t) : ∃ j, instOf t n c = some j ∧ InstDone n c (finishInst n c t) := by
    obtain ⟨j, hj, hlj, -, hfj, hstj⟩ := ht.2 n c i hi
    refine ⟨j, hj, finishInst_done n c t j w hj (by rw [ht.cueWord_eq, hw]) hk (hlj.trans hl) (hfj.trans hf) ?_⟩
    obtain h | h := hstj <;> simp [h, hst]
  rw [settle_eq]
  refine .foldl s settleStep onward_settleStep n (fun t ht => InstDone.onward ?_ (onward_endStep n _)) _ (mem_steps s n c i hi)
  obtain ⟨j, hj, -⟩ := later t ht
  refine .foldl t (fun s c => finishInst n c s) (fun s c => onward_finishInst n c s) c (fun v hv => ?_) _ (mem_cueOrder t n c j hj)
  obtain ⟨-, -, hdone⟩ := later v (ht.trans hv)
  exact hdone

end

end Sys2Proof.Machine
end

section
/-! ## BROADCAST, MOVE and CONVERT (R60, R114, R134, R141, R148, R150) -/

namespace Sys2Proof.Machine

/-! ### A cue that runs, and the shard it names -/

theorem running_eq_some (s : State) (n c k : Nat) (i : Inst) (w : CueWord) (h : running s n c k = some (i, w)) :
    instOf s n c = some i ∧ cueWord s c = some w ∧ cKind w = k ∧ i.launched = true ∧ i.st ≠ .failed := by
  unfold running at h
  split at h
  · next j v hj hv =>
    split at h
    · next hc =>
      cases h
      simp only [Bool.and_eq_true, decide_eq_true_eq] at hc
      obtain ⟨⟨⟨hl, -⟩, hf⟩, hk⟩ := hc
      exact ⟨hj, hv, hk, hl, hf⟩
    · cases h
  · cases h

theorem shardOf_of_findShard (s : State) (hid : BitVec 16) (k : Nat) (h : findShard s hid = some k) :
    shardOf s hid = some (readShard s k) := by
  simp only [shardOf, h, Option.map_some]

/-! ### BROADCAST_READ -/

theorem execBroadcastRead_due (n c : Nat) (errs : List AccErr) (s : State) (h : Nat) (sh : SheetHead) (r : Shard) (g : Nat)
    (hd : readDue s n c = some (h, sh, r, g)) (hf : sheetFirst s n c (groomReady s) = true) :
    execBroadcastRead n c errs s = .next (addJob
      { head := h, seg := g, step := n, cue := c, bcast := true, wReady := true, writesDone := true
        w := (readWords (readErrors (stateAddr r (256 * g)) (8 * segLen sh g) errs s) r (256 * g) (segLen sh g)).map wordW }
      (modInst n c (fun i => { i with nextSeg := g + 1, finished := decide (g + 1 = segsOf sh.len) })
        (readErrors (stateAddr r (256 * g)) (8 * segLen sh g) errs s))) := by
  simp only [execBroadcastRead, hd, hf, Bool.not_true, Bool.false_eq_true, if_false]

theorem broadcastRead_completes (n c : Nat) (s : State) (i : Inst) (w : CueWord) (h : Nat) (r : Shard) (sh : SheetHead)
    (hrun : running s n c cBroadcast = some (i, w)) (hh : headIdx s (cHid w) = some h) (hr : shardOf s (cHid w) = some r)
    (hs : sheetHead s h = some sh) (hg : i.nextSeg < segsOf sh.len) (hfill : filling s sh.hid = false)
    (hu : unitHeld s unitGroom = false) (hc : carriageClear s 1 = true) (hf : sheetFirst s n c (groomReady s) = true) :
    Completes (.broadcastRead n c []) s (fun t => t.dram = s.dram ∧ (∃ i', instOf t n c = some i' ∧ i'.nextSeg = i.nextSeg + 1) ∧
      t.harn.jobs = s.harn.jobs ++ [{ head := h, seg := i.nextSeg, step := n, cue := c, bcast := true, wReady := true, writesDone := true
                                      w := (readWords s r (256 * i.nextSeg) (segLen sh i.nextSeg)).map wordW }]) := by
  obtain ⟨hi, -⟩ := running_eq_some s n c _ i w hrun
  have hdue : readDue s n c = some (h, sh, r, i.nextSeg) := by
    simp [readDue, hrun, hh, hr, hs, hfill, hu, hc, Nat.not_le.2 hg]
  exact ⟨_, execBroadcastRead_due n c [] s h sh r i.nextSeg hdue hf, rfl, ⟨_, instOf_modInst_self n c _ s i hi, rfl⟩, rfl⟩

/-! ### LOAD and STORE -/

/-- A MOVE that is no ZERO_MOMENTS waits for nothing but its turn (R134). -/
theorem moveTurn_copy (s : State) (n c op : Nat) (i : Inst) (w : CueWord) (hrun : running s n c cMove = some (i, w))
    (hst : i.started = false) (hop : cMoveOp w = op) (hne : op ≠ 2) (hf : moveFirst s n c = true) : moveTurn s n c op = some w := by
  have hdue : moveDue s n c = some w := by simp [moveDue, hrun, hst, hop, hne]
  simp [moveTurn, hdue, hop, hf]

theorem load_completes (n c : Nat) (errs : List AccErr) (s u : State) (i : Inst) (w : CueWord)
    (hrun : running s n c cMove = some (i, w)) (hst : i.started = false) (hop : cMoveOp w = 0) (hf : moveFirst s n c = true)
    (hu : u = readErrors (scratchBase + 4096 * cPage w) (4096 * cPages w) errs s) (hw : Memory.wf u.ws = true) :
    Completes (.load n c errs) s (fun t => t.dram = u.dram ∧
      memRead t.ws (64 * cWsoff w) (4096 * cPages w) = memRead u.dram (scratchBase + 4096 * cPage w) (4096 * cPages w) ∧
      (∀ a, a < 64 * cWsoff w ∨ 64 * cWsoff w + 4096 * cPages w ≤ a → memByte t.ws a = memByte u.ws a)) := by
  have hturn := moveTurn_copy s n c 0 i w hrun hst hop (by decide) hf
  have hexec : execLoad n c errs s = .next (startMove n c { u with
      ws := memWrite u.ws (64 * cWsoff w) (memRead u.dram (scratchBase + 4096 * cPage w) (4096 * cPages w)) }) := by
    simp only [execLoad, hturn, hu]
  refine ⟨_, hexec, ?_⟩
  simp only [startMove_frame]
  exact ⟨trivial, memRead_memWrite_memRead _ _ _ _ _ hw, fun a ha => memByte_memWrite_outside _ _ _ _ hw (by simpa using ha)⟩

theorem store_completes (n c : Nat) (s : State) (i : Inst) (w : CueWord) (hrun : running s n c cMove = some (i, w))
    (hst : i.started = false) (hop : cMoveOp w = 1) (hf : moveFirst s n c = true) (hw : Memory.wf s.dram = true) :
    Completes (.store n c) s (fun t => t.ws = s.ws ∧
      memRead t.dram (scratchBase + 4096 * cPage w) (4096 * cPages w) = memRead s.ws (64 * cWsoff w) (4096 * cPages w) ∧
      (∀ a, a < scratchBase + 4096 * cPage w ∨ scratchBase + 4096 * cPage w + 4096 * cPages w ≤ a → memByte t.dram a = memByte s.dram a)) := by
  have hturn := moveTurn_copy s n c 1 i w hrun hst hop (by decide) hf
  have hexec : execStore n c s = .next (startMove n c { s with
      dram := memWrite s.dram (scratchBase + 4096 * cPage w) (memRead s.ws (64 * cWsoff w) (4096 * cPages w)) }) := by
    simp only [execStore, hturn]
  refine ⟨_, hexec, ?_⟩
  simp only [startMove_frame]
  exact ⟨trivial, memRead_memWrite_memRead _ _ _ _ _ hw, fun a ha => memByte_memWrite_outside _ _ _ _ hw (by simpa using ha)⟩

/-! ### ZERO_MOMENTS -/

/-- The bytes of M and V of the first n elements become zero; every other byte stands (R141). -/
theorem memByte_zeroMoments (n : Nat) (r : Shard) (s : State) (a : Nat) :
    memByte (zeroMoments n r s).dram a =
      if ∃ e, e < n ∧ stateAddr r e + 4 ≤ a ∧ a < stateAddr r e + 4 + 4 then 0 else memByte s.dram a := by
  induction n with
  | zero => simp [zeroMoments]
  | succ n ih =>
    have hstep : (zeroMoments (n + 1) r s).dram = memClear (zeroMoments n r s).dram (stateAddr r n + 4) 4 := by
      simp only [zeroMoments, List.range_succ, List.foldl_append, List.foldl_cons, List.foldl_nil]
    rw [hstep, memByte_memClear, ih]
    by_cases hn : stateAddr r n + 4 ≤ a ∧ a < stateAddr r n + 4 + 4
    · rw [if_pos hn, if_pos ⟨n, Nat.lt_succ_self n, hn⟩]
    · rw [if_neg hn]
      by_cases hex : ∃ e, e < n ∧ stateAddr r e + 4 ≤ a ∧ a < stateAddr r e + 4 + 4
      · obtain ⟨e, he, ha⟩ := hex
        rw [if_pos ⟨e, he, ha⟩, if_pos ⟨e, Nat.lt_succ_of_lt he, ha⟩]
      · rw [if_neg hex, if_neg]
        rintro ⟨e, he, ha⟩
        have hne : e ≠ n := fun h => hn (h ▸ ha)
        exact hex ⟨e, by omega, ha⟩

/-- Outside the state words of its elements a fill of moments changes nothing. -/
theorem memByte_zeroMoments_outside (n : Nat) (r : Shard) (s : State) (a : Nat) (ha : a < stateAddr r 0 ∨ stateAddr r n ≤ a) :
    memByte (zeroMoments n r s).dram a = memByte s.dram a := by
  rw [memByte_zeroMoments, if_neg]
  rintro ⟨e, he, hlo, hhi⟩
  simp only [stateAddr] at ha hlo hhi
  omega

/-- W of an element stands (R141). -/
theorem memByte_zeroMoments_W (n : Nat) (r : Shard) (s : State) (e k : Nat) (hk : k < 4) :
    memByte (zeroMoments n r s).dram (stateAddr r e + k) = memByte s.dram (stateAddr r e + k) := by
  rw [memByte_zeroMoments, if_neg]
  rintro ⟨d, -, hlo, hhi⟩
  simp only [stateAddr] at hlo hhi
  omega

/-- M and V of an element are zero (R141). -/
theorem memByte_zeroMoments_MV (n : Nat) (r : Shard) (s : State) (e k : Nat) (he : e < n) (hk : k < 4) :
    memByte (zeroMoments n r s).dram (stateAddr r e + 4 + k) = 0 := by
  rw [memByte_zeroMoments, if_pos ⟨e, he, by omega, by omega⟩]

/-- A ZERO_MOMENTS whose shard no earlier update and no fill holds up (R150). -/
theorem moveTurn_zero (s : State) (n c : Nat) (i : Inst) (w : CueWord) (r : Shard) (hrun : running s n c cMove = some (i, w))
    (hst : i.started = false) (hop : cMoveOp w = 2) (hr : shardOf s (cZeroHid w) = some r)
    (hup : updatePending s r.hid n c = false) (hfill : filling s r.hid = false) (hf : moveFirst s n c = true) :
    moveTurn s n c 2 = some w := by
  have hdue : moveDue s n c = some w := by simp [moveDue, hrun, hst, hop, hr, hup, hfill]
  simp [moveTurn, hdue, hop, hf]

/-- The record of a shard whose moments are zero. -/
def zeroedShard (r : Shard) : Shard := { r with age := 0, p1 := zOne, p2 := zOne }

/-- The state with the moments zero and the record written back. -/
def zeroedState (k : Nat) (r : Shard) (s : State) : State := writeShard k (zeroedShard r) (zeroMoments r.len r s)

/-- The state words of a shard lie below the shard table, whose records a fill of moments leaves alone. -/
theorem modShard_zeroMoments (s : State) (hid : BitVec 16) (r : Shard) (k : Nat) (hk : findShard s hid = some k)
    (hr : readShard s k = r) (hb : stateAddr r r.len ≤ stateBytes) :
    modShard r.hid (fun r => { r with age := 0, p1 := zOne, p2 := zOne }) (zeroMoments r.len r s) = zeroedState k r s := by
  have htable : ∀ a, shardTable ≤ a → memByte (zeroMoments r.len r s).dram a = memByte s.dram a := fun a ha =>
    memByte_zeroMoments_outside r.len r s a (.inr (Nat.le_trans hb (Nat.le_trans (by decide) ha)))
  have hhid : r.hid = hid := by rw [← hr, readShard_hid s hid k hk]
  have hfind : findShard (zeroMoments r.len r s) r.hid = some k := by rw [findShard_congr s _ _ htable, hhid, hk]
  have hread : readShard (zeroMoments r.len r s) k = r := by
    rw [readShard_congr s _ k fun a ha _ => htable a (Nat.le_trans (Nat.le_add_right _ _) ha), hr]
  rw [modShard_some _ _ _ k hfind, hread]
  rfl

theorem execZeroMoments_turn (n c : Nat) (s : State) (w : CueWord) (r : Shard) (k : Nat) (ht : moveTurn s n c 2 = some w)
    (hk : findShard s (cZeroHid w) = some k) (hr : readShard s k = r) (hb : stateAddr r r.len ≤ stateBytes) :
    execZeroMoments n c [] s = .next (startMove n c (zeroedState k r s)) := by
  have hshard : shardOf s (cZeroHid w) = some r := by rw [shardOf_of_findShard s _ k hk, hr]
  rw [← modShard_zeroMoments s _ r k hk hr hb]
  simp only [execZeroMoments, ht, hshard]
  rfl

section

variable (k : Nat) (r : Shard) (s : State) (hw : Memory.wf s.dram = true)

include hw

/-- Outside the record the zeroed state holds what the fill of moments left. -/
theorem memByte_zeroedState (a : Nat) (ha : a < shardAddr k ∨ shardAddr k + 64 ≤ a) :
    memByte (zeroedState k r s).dram a = memByte (zeroMoments r.len r s).dram a := by
  rw [zeroedState, writeShard_dram]
  exact memByte_memWrite_outside _ _ _ _ (zeroMoments_wf_dram r.len r s hw) (by rwa [shardBytes_length])

theorem readShard_zeroedState (hr : readShard s k = r) : readShard (zeroedState k r s) k = zeroedShard r := by
  have hfits : r.Fits := hr ▸ readShard_fits s k
  exact readShard_writeShard k _ _ (zeroMoments_wf_dram r.len r s hw) hfits

theorem zeroedState_words (hb : stateAddr r r.len ≤ stateBytes) (e : Nat) (he : e < r.len) :
    memRead (zeroedState k r s).dram (stateAddr r e) 4 = memRead s.dram (stateAddr r e) 4 ∧
    memRead (zeroedState k r s).dram (stateAddr r e + 4) 4 = zeros 4 := by
  have below (a : Nat) (ha : a < stateAddr r e + 8) : memByte (zeroedState k r s).dram a = memByte (zeroMoments r.len r s).dram a := by
    have htable : stateBytes ≤ shardAddr k := Nat.le_trans (by decide : stateBytes ≤ shardTable) (Nat.le_add_right _ _)
    refine memByte_zeroedState k r s hw a (.inl ?_)
    simp only [stateAddr] at ha hb
    omega
  constructor
  · exact memRead_congr _ _ _ _ 4 fun i hi => by rw [below _ (by omega), memByte_zeroMoments_W r.len r s e i hi]
  · refine List.eq_replicate_iff.2 ⟨memRead_length _ _ _, fun b hb => ?_⟩
    obtain ⟨i, hi, rfl⟩ := List.mem_map.1 hb
    rw [List.mem_range] at hi
    rw [below _ (by omega), memByte_zeroMoments_MV r.len r s e i he hi]

end

theorem zeroMoments_completes (n c : Nat) (s : State) (i : Inst) (w : CueWord) (r : Shard) (k : Nat)
    (hrun : running s n c cMove = some (i, w)) (hst : i.started = false) (hop : cMoveOp w = 2)
    (hk : findShard s (cZeroHid w) = some k) (hr : readShard s k = r) (hup : updatePending s r.hid n c = false)
    (hfill : filling s r.hid = false) (hf : moveFirst s n c = true) (hb : stateAddr r r.len ≤ stateBytes)
    (hw : Memory.wf s.dram = true) :
    Completes (.zeroMoments n c []) s (fun t => t.ws = s.ws ∧ readShard t k = { r with age := 0, p1 := zOne, p2 := zOne } ∧
      (∀ e, e < r.len → memRead t.dram (stateAddr r e) 4 = memRead s.dram (stateAddr r e) 4 ∧ memRead t.dram (stateAddr r e + 4) 4 = zeros 4) ∧
      ∀ a, (a < stateAddr r 0 ∨ stateAddr r r.len ≤ a) → (a < shardAddr k ∨ shardAddr k + 64 ≤ a) → memByte t.dram a = memByte s.dram a) := by
  have hshard : shardOf s (cZeroHid w) = some r := by rw [shardOf_of_findShard s _ k hk, hr]
  have hturn := moveTurn_zero s n c i w r hrun hst hop hshard hup hfill hf
  refine ⟨_, execZeroMoments_turn n c s w r k hturn hk hr hb, ?_⟩
  have hread : readShard (startMove n c (zeroedState k r s)) k = zeroedShard r := by
    rw [readShard_congr (zeroedState k r s) _ k fun a _ _ => by rw [(startMove_frame ..).2.2.2.2.1], readShard_zeroedState k r s hw hr]
  simp only [startMove_frame]
  exact ⟨by simp [zeroedState, writeShard], hread, zeroedState_words k r s hw hb, fun a ha hrec => by
    rw [memByte_zeroedState k r s hw a hrec, memByte_zeroMoments_outside r.len r s a ha]⟩

/-! ### CONVERT -/

/-- Of the instances a block of a conversion changes the flags of its own (R48). -/
theorem onward_convertGroup (n c : Nat) (w : CueWord) (f : SFmt) (seed : W64) (bad : List Nat) (s : State) (b : Nat) (t : State) :
    Onward t (convertGroup n c w f seed bad s b t) := by
  have noted (fl : Flags) (o : CastOut) : Onward t (noteFlags n c fl (noteCast o t)) :=
    (Onward.of_cue_eq rfl).trans (onward_noteFlags n c fl _)
  unfold convertGroup
  dsimp only
  split <;> exact (noted _ _).trans (.of_cue_eq rfl)

theorem convert_completes (n c : Nat) (s : State) (i : Inst) (w : CueWord) (img : Sheet) (f : SFmt)
    (hrun : running s n c cConvert = some (i, w)) (himg : s.cue.sheet = some img) (hst : i.started = false)
    (hm : movePending s n c = false) (hu : unitHeld s unitWardrobe = false) (hf : fmtOf (cConv w).dst = some f)
    (ht : wardrobeTurn s n c = true) :
    Completes (.convert n c .clean) s (fun t => t.dram = s.dram ∧ (∃ i', instOf t n c = some i' ∧ i'.started = true) ∧
      t.ws = ((List.range (cBlocks w)).foldl (fun t b => convertGroup n c w f img.seed [] s b t) s).ws) := by
  obtain ⟨hi, -⟩ := running_eq_some s n c _ i w hrun
  have hdue : convertDue s n c = some (w, f) := by simp [convertDue, hrun, hst, hm, hu, hf]
  generalize hv : (List.range (cBlocks w)).foldl (fun t b => convertGroup n c w f img.seed [] s b t) s = v
  have hexec : execConvert n c .clean s = .next (noteFirst n c (modInst n c (fun i => { i with started := true }) v)) := by
    simp only [execConvert, hdue, himg, ht, wordError, badWords, hv, if_true]
  have hdram : v.dram = s.dram := by rw [← hv]; simp
  have hon : Onward s v := hv ▸ onward_foldl _ (fun t b => onward_convertGroup n c w f img.seed [] s b t) _ s
  obtain ⟨j, hj, -⟩ := hon.2 n c i hi
  obtain ⟨j', hj', -, hstarted, -⟩ := (onward_noteFirst n c _).2 n c _ (instOf_modInst_self n c (fun i => { i with started := true }) v j hj)
  exact ⟨_, hexec, by simp [hdram], ⟨j', hj', hstarted⟩, by simp⟩

/-! ### MOVE_DONE and CONVERT_DONE -/

/-- The cue has finished its accesses, and what can end ends (R124). -/
def finishedState (n c : Nat) (s : State) : State := settle (modInst n c (fun i => { i with finished := true }) s)

theorem execMoveDone_started (n c : Nat) (s : State) (i : Inst) (w : CueWord) (hrun : running s n c cMove = some (i, w))
    (hst : i.started = true) (hf : i.finished = false) (ht : carriageTurn s 3 i.issue = true) :
    execMoveDone n c s = .next (finishedState n c s) := by
  simp [execMoveDone, hrun, hst, hf, ht, finishedState]

theorem execConvertDone_started (n c : Nat) (s : State) (i : Inst) (w : CueWord) (hrun : running s n c cConvert = some (i, w))
    (hst : i.started = true) : execConvertDone n c s = .next (finishedState n c s) := by
  simp [execConvertDone, hrun, hst, finishedState]

/-- A CONVERT or MOVE that has finished is DONE. -/
theorem finishedState_done (n c k : Nat) (s : State) (i : Inst) (w : CueWord) (hrun : running s n c k = some (i, w))
    (hk : k = cConvert ∨ k = cMove) :
    ∃ j, instOf (finishedState n c s) n c = some j ∧ j.finished = true ∧ j.st = .done := by
  obtain ⟨hi, hw, hkind, hl, hst⟩ := running_eq_some s n c k i w hrun
  have hi' := instOf_modInst_self n c (fun i => { i with finished := true }) s i hi
  obtain ⟨j, hj, -, -, hfin, -⟩ := (onward_settle (modInst n c (fun i => { i with finished := true }) s)).2 n c _ hi'
  obtain ⟨j', hj', hdone⟩ := settle_done n c _ _ w hi' hw (hkind ▸ hk) hl rfl hst
  cases hj.symm.trans hj'
  exact ⟨j, hj, hfin, hdone⟩

theorem done_completes (n c : Nat) (conv : Bool) (s : State) (i : Inst) (w : CueWord)
    (hrun : running s n c (if conv then cConvert else cMove) = some (i, w)) (hst : i.started = true)
    (hm : conv = false → i.finished = false ∧ carriageTurn s 3 i.issue = true) :
    Completes (if conv then .convertDone n c else .moveDone n c) s (fun t => t.dram = s.dram ∧ t.ws = s.ws ∧
      ∃ i', instOf t n c = some i' ∧ i'.finished = true ∧ i'.st = .done) := by
  have hexec : exec (if conv then .convertDone n c else .moveDone n c) s = .next (finishedState n c s) := by
    cases conv with
    | true => exact execConvertDone_started n c s i w hrun hst
    | false => exact execMoveDone_started n c s i w hrun hst (hm rfl).1 (hm rfl).2
  refine ⟨_, hexec, by simp [finishedState], by simp [finishedState], finishedState_done n c _ s i w hrun ?_⟩
  cases conv
  · exact .inr rfl
  · exact .inl rfl

/-- Settles O35: a case for each row. -/
theorem broadcastsMovesAndConversions : Obligations.BroadcastsMovesAndConversions :=
  ⟨broadcastRead_completes, load_completes, store_completes, zeroMoments_completes, convert_completes, done_completes⟩

end Sys2Proof.Machine
end

section
/-! ## State audits (08_numerics_watch_and_audit.md R214) -/

namespace Sys2Proof.Machine

/-! ### The search for a record and the test of a start rest on memory and the run -/

theorem shardOf_congr (s t : State) (hid : BitVec 16) (h : t.dram = s.dram) : shardOf t hid = shardOf s hid := by
  have hread : readShard t = readShard s := funext fun i => readShard_congr s t i fun a _ _ => by rw [h]
  rw [shardOf, shardOf, findShard_congr s t hid fun a _ => by rw [h], hread]

theorem auditRefused_congr (s t : State) (hid : BitVec 16) (page : Nat) (hd : t.dram = s.dram) (hr : t.cue.run = s.cue.run) :
    auditRefused t hid page = auditRefused s hid page := by
  unfold auditRefused
  rw [shardOf_congr s t hid hd, hr]

/-! ### A write of GO while no audit runs -/

/-- HID and PAGE of a write of DIG_AUDIT, without GO. -/
def auditFields (v : W64) : W64 := v &&& (ones 47 32 ||| ones 31 14)

/-- A field that lies in the bits that a mask keeps is read as before. -/
theorem fld_and_kept (v m : W64) (hi lo : Nat) (h : ∀ i, lo ≤ i → i ≤ hi → m.getLsbD i = true) : fld (v &&& m) hi lo = fld v hi lo := by
  refine Nat.eq_of_testBit_eq fun j => ?_
  rw [testBit_fld, testBit_fld, BitVec.getLsbD_and]
  by_cases hj : j < hi + 1 - lo
  · rw [h (lo + j) (by omega) (by omega), Bool.and_true]
  · simp [hj]

theorem auditFields_hid (v : W64) : fld (auditFields v) 47 32 = fld v 47 32 :=
  fld_and_kept v _ 47 32 fun i _ _ => by simp [getLsbD_ones]; omega

theorem auditFields_page (v : W64) : fld (auditFields v) 31 14 = fld v 31 14 :=
  fld_and_kept v _ 31 14 fun i _ _ => by simp [getLsbD_ones]; omega

/-- GO as a field is bit 63. -/
theorem getLsbD_of_fld_go (v : W64) (h : fld v 63 63 = 1) : v.getLsbD 63 = true := by
  have hbit := testBit_fld v 63 63 0
  simpa [h] using hbit.symm

@[simp] theorem digSticky_dig (b : BitVec 4) (s : State) : (digSticky b s).dig = { s.dig with sticky := s.dig.sticky ||| b } := rfl

@[simp] theorem digSticky_cue (b : BitVec 4) (s : State) : (digSticky b s).cue = s.cue := rfl

/-- What a start leaves: the audit, or AUDIT_REFUSED. -/
theorem startAudit_dig (v : W64) (s : State) :
    (startAudit v s).dig.auditJob = (if auditRefused s (BitVec.ofNat 16 (fld v 47 32)) (fld v 31 14) then s.dig.auditJob
      else some ⟨BitVec.ofNat 16 (fld v 47 32), fld v 31 14, s.issued⟩) ∧
    (startAudit v s).dig.sticky = (if auditRefused s (BitVec.ofNat 16 (fld v 47 32)) (fld v 31 14) then s.dig.sticky ||| 8
      else s.dig.sticky) := by
  unfold startAudit
  dsimp only
  rw [auditRefused_congr s { s with dig := { s.dig with audit := v &&& ~~~(ones 63 63) } } _ _ rfl rfl]
  split <;> exact ⟨rfl, rfl⟩

theorem writeAudit_go (v : W64) (s : State) (hv : v.getLsbD 63 = true) (hj : s.dig.auditJob = none) :
    writeAudit v s = startAudit (auditFields v) s := by
  simp [writeAudit, hv, hj, auditFields]

/-- A write of GO starts the audit of the shard and the page it names, or is refused. -/
theorem writeAudit_go_dig (v : W64) (s : State) (hv : v.getLsbD 63 = true) (hj : s.dig.auditJob = none) :
    (writeAudit v s).dig.auditJob = (if auditRefused s (BitVec.ofNat 16 (fld v 47 32)) (fld v 31 14) then none
      else some ⟨BitVec.ofNat 16 (fld v 47 32), fld v 31 14, s.issued⟩) ∧
    (writeAudit v s).dig.sticky = (if auditRefused s (BitVec.ofNat 16 (fld v 47 32)) (fld v 31 14) then s.dig.sticky ||| 8
      else s.dig.sticky) := by
  have h := startAudit_dig (auditFields v) s
  rwa [auditFields_hid, auditFields_page, hj, ← writeAudit_go v s hv hj] at h

/-- A write that reaches DIG_AUDIT changes the audit, and is remembered for its arena cycle (R14). -/
theorem writeRow_digAudit (who : Requester) (v : W64) (s : State) (h : reaches who .digAudit true s = true) :
    writeRow .digAudit who v s = noteWrite (selOf who s) v .digAudit (writeAudit v s) := by
  rw [writeRow_reaches who .digAudit v s h (by decide), writeReg_plain who _ v s .digAudit (by decide)]
  rfl

theorem stateAudit_completes (who : Requester) (v : W64) (s : State) (h : reaches who .digAudit true s = true)
    (hj : s.dig.auditJob = none) (hgo : fld v 63 63 = 1) :
    Completes (.stateAudit who v) s (fun t =>
      if auditRefused s (BitVec.ofNat 16 (fld v 47 32)) (fld v 31 14) then t.dig.auditJob = none ∧ t.dig.sticky = s.dig.sticky ||| 8
      else t.dig.auditJob = some ⟨BitVec.ofNat 16 (fld v 47 32), fld v 31 14, s.issued⟩ ∧ t.dig.sticky = s.dig.sticky) := by
  have hexec : exec (.stateAudit who v) s = .next (noteWrite (selOf who s) v .digAudit (writeAudit v s)) :=
    congrArg Host.Outcome.next (writeRow_digAudit who v s h)
  obtain ⟨hjob, hsticky⟩ := writeAudit_go_dig v s (getLsbD_of_fld_go v hgo) hj
  refine ⟨_, hexec, ?_⟩
  split
  case isTrue hr => exact ⟨hjob.trans (if_pos hr), hsticky.trans (if_pos hr)⟩
  case isFalse hr => exact ⟨hjob.trans (if_neg hr), hsticky.trans (if_neg hr)⟩

/-! ### The end of an audit -/

/-- The audit has ended, before a write of the same arena cycle takes effect: no audit runs, GO is clear, AUDIT_DONE is set. -/
def auditEnded (s : State) : State :=
  digSticky 4 { s with dig := { s.dig with auditJob := none, audit := s.dig.audit &&& ~~~(ones 63 63) } }

theorem endAudit_eq (s : State) : endAudit s = (lastWrite s .digAudit 0).elim (auditEnded s) (fun v => writeAudit v (auditEnded s)) := rfl

/-- AUDIT_REFUSED is the one bit of DIG_STICKY that a write of DIG_AUDIT can set, and it leaves the cue unit alone. -/
theorem writeAudit_keeps (v : W64) (s : State) :
    (writeAudit v s).cue = s.cue ∧ ((writeAudit v s).dig.sticky = s.dig.sticky ∨ (writeAudit v s).dig.sticky = s.dig.sticky ||| 8) := by
  unfold writeAudit startAudit
  dsimp only
  split
  · split
    · exact ⟨rfl, .inr rfl⟩
    · exact ⟨rfl, .inl rfl⟩
  · exact ⟨rfl, .inl rfl⟩

theorem endAudit_cue (s : State) : (endAudit s).cue = s.cue := by
  rw [endAudit_eq]
  cases lastWrite s .digAudit 0 with
  | none => rfl
  | some v => exact (writeAudit_keeps v _).1

/-- AUDIT_DONE stands after a write of the same arena cycle (R14). -/
theorem endAudit_done (s : State) : (endAudit s).dig.sticky.getLsbD 2 = true := by
  have hset : (auditEnded s).dig.sticky.getLsbD 2 = true := by simp [auditEnded]
  rw [endAudit_eq]
  cases lastWrite s .digAudit 0 with
  | none => exact hset
  | some v =>
    rcases (writeAudit_keeps v (auditEnded s)).2 with h | h <;> simp [h, hset]

theorem endAudit_unwritten (s : State) (h : lastWrite s .digAudit 0 = none) :
    (endAudit s).dig.auditJob = none ∧ (endAudit s).dig.sticky = s.dig.sticky ||| 4 := by
  simp [endAudit_eq, h, auditEnded]

/-- A write of GO in the arena cycle of the end starts, or is refused, the next audit (R14). -/
theorem endAudit_go (s : State) (v : W64) (h : lastWrite s .digAudit 0 = some v) (hv : v.getLsbD 63 = true) :
    (endAudit s).dig.auditJob = if auditRefused (endAudit s) (BitVec.ofNat 16 (fld v 47 32)) (fld v 31 14) then none
      else some ⟨BitVec.ofNat 16 (fld v 47 32), fld v 31 14, s.issued⟩ := by
  have hrefused : auditRefused (endAudit s) = auditRefused (auditEnded s) :=
    funext fun hid => funext fun page => auditRefused_congr _ _ hid page (by simp [auditEnded]) (by rw [endAudit_cue]; rfl)
  rw [hrefused, endAudit_eq, h]
  exact (writeAudit_go_dig v (auditEnded s) hv rfl).1

/-! ### AUDIT_DONE -/

/-- The digests of a shard, as the state words read, go to the audit's page (R214). -/
def digestsWritten (j : AuditJob) (q : Shard) (u : State) : State :=
  { u with dram := memWrite u.dram (scratchBase + 4096 * j.page) (auditDigests u j.hid q) }

theorem execAuditDone_turn (errs : List AccErr) (s u : State) (j : AuditJob) (r q : Shard) (hj : s.dig.auditJob = some j)
    (ht : carriageTurn s 3 j.issue = true) (hr : shardOf s j.hid = some r)
    (hu : u = readErrors (stateAddr r 0) (8 * r.len) errs s) (hq : shardOf u j.hid = some q) :
    execAuditDone errs s = .next (endAudit (digestsWritten j q u)) := by
  subst hu
  simp only [execAuditDone, hj, ht, hr, hq, Bool.not_true, Bool.false_eq_true, if_false, digestsWritten]

theorem auditDone_completes (errs : List AccErr) (s u : State) (j : AuditJob) (r q : Shard) (hj : s.dig.auditJob = some j)
    (ht : carriageTurn s 3 j.issue = true) (hr : shardOf s j.hid = some r)
    (hu : u = readErrors (stateAddr r 0) (8 * r.len) errs s) (hq : shardOf u j.hid = some q) (hw : Memory.wf s.dram = true) :
    Completes (.auditDone errs) s (fun t => t.dig.sticky.getLsbD 2 = true ∧
      (lastWrite u .digAudit 0 = none → t.dig.auditJob = none ∧ t.dig.sticky = u.dig.sticky ||| 4) ∧
      (∀ v, lastWrite u .digAudit 0 = some v → v.getLsbD 63 = true → t.dig.auditJob =
        if auditRefused t (BitVec.ofNat 16 (fld v 47 32)) (fld v 31 14) then none
        else some ⟨BitVec.ofNat 16 (fld v 47 32), fld v 31 14, u.issued⟩) ∧
      memRead t.dram (scratchBase + 4096 * j.page) (auditDigests u j.hid q).length = auditDigests u j.hid q ∧
      (∀ a, a < scratchBase + 4096 * j.page ∨ scratchBase + 4096 * j.page + (auditDigests u j.hid q).length ≤ a →
        memByte t.dram a = memByte u.dram a)) := by
  have hwu : Memory.wf u.dram = true := hu ▸ readErrors_wf_dram _ _ _ s hw
  have hdram : (endAudit (digestsWritten j q u)).dram =
      memWrite u.dram (scratchBase + 4096 * j.page) (auditDigests u j.hid q) := by simp [digestsWritten]
  refine ⟨_, execAuditDone_turn errs s u j r q hj ht hr hu hq, endAudit_done _, endAudit_unwritten (digestsWritten j q u),
    endAudit_go (digestsWritten j q u), ?_⟩
  rw [hdram]
  exact ⟨memRead_memWrite _ _ _ hwu, fun a ha => memByte_memWrite_outside _ _ _ a hwu ha⟩

/-- Settles O11: a write of GO by what `startAudit` can do, and the end of an audit by that of `endAudit` after the digests' write. -/
theorem stateAuditsStartAndEnd : Obligations.StateAuditsStartAndEnd :=
  ⟨stateAudit_completes, auditDone_completes⟩

end Sys2Proof.Machine
end
